-- ==== Sys2Proof/Word.lean ====
section
/-! DEFINITION. The words of the KL-96: bytes, register words, and the sparse table type that holds every
repeated thing (links, lanes, queues, sync objects, window words) in one canonical form. -/

namespace Sys2Proof

/-- A byte; multi-byte values are little-endian (R4). -/
abbrev Byte := BitVec 8

/-- A management-window register (R465: 64 bits wide). -/
abbrev Word := BitVec 64

/-- A string of bytes, lowest address first. -/
abbrev Bytes := List Byte

/-- A sparse table: keys strictly rising, no entry equal to the default. -/
abbrev Tab (α : Type) := List (Nat × α)

/-- The entry at key `k`; `d` is what an unlisted key reads as. -/
def Tab.get {α : Type} (d : α) : Tab α → Nat → α
  | [], _ => d
  | (j, v) :: t, k => if k = j then v else Tab.get d t k

/-- `t` without key `k`. -/
def Tab.drop {α : Type} (t : Tab α) (k : Nat) : Tab α := t.filter fun e => decide (e.1 ≠ k)

/-- Puts `v` at key `k`, before the first larger key. -/
def Tab.insert {α : Type} : Tab α → Nat → α → Tab α
  | [], k, v => [(k, v)]
  | (j, w) :: t, k, v =>
    if k < j then (k, v) :: (j, w) :: t else if k = j then (k, v) :: t else (j, w) :: Tab.insert t k v

/-- Writes `v` at key `k` in place of what was there; writing the default removes the entry, so equal tables are equal data. -/
def Tab.put {α : Type} [DecidableEq α] (d : α) (t : Tab α) (k : Nat) (v : α) : Tab α :=
  if v = d then t.drop k else (t.drop k).insert k v

/-- Keys strictly rising and no entry equal to the default `d k` of its key. -/
def Tab.wfBy {α : Type} [DecidableEq α] (d : Nat → α) : Tab α → Bool
  | [] => true
  | (k, v) :: t => decide (v ≠ d k) && t.all (fun e => decide (k < e.1)) && Tab.wfBy d t

/-- Canonical form with one default. -/
def Tab.wf {α : Type} [DecidableEq α] (d : α) (t : Tab α) : Bool := Tab.wfBy (fun _ => d) t

/-- Bits `[lo + n - 1 : lo]` of a word as a number. -/
def bits {w : Nat} (x : BitVec w) (lo n : Nat) : Nat := (x.toNat >>> lo) % 2 ^ n

/-- Bit `i` of a word. -/
def bit {w : Nat} (x : BitVec w) (i : Nat) : Bool := x.getLsbD i

/-- A Bool as a number. -/
def b2n (b : Bool) : Nat := if b then 1 else 0

end Sys2Proof
end

