-- ==== Sys2Proof/Config.lean ====
section
/-! DEFINITION. What one part or one integration fixes, and the free values: constants without a body, so that
nothing can be proved of the value they hold. -/

namespace Sys2Proof.Config

/-- Passport class fused at manufacture (Table 16.6): `true` for bench, `false` for production. -/
opaque benchClass : Bool

/-- The test fuse, `true` while intact (R54). -/
opaque testFuse : Bool

/-- The fused 16-byte serial (R391), as a number, byte 0 lowest. -/
opaque serial : BitVec 128

/-- The fused manufacture date (R391), as the eight decimal digits of year, month and day, four bits each. -/
opaque made : BitVec 32

/-- The fused signature of the product CA over the certificate (R391): r then s, 48 bytes each, byte 0 lowest. -/
opaque caSignature : BitVec 768

/-- The subject of the product CA certificate held in ROM, in DER (Table 16.5). -/
opaque caName : Bytes

/-- Patch level in GBL_VERSION (R1, Table 19.3). -/
opaque patchLevel : BitVec 8

/-- A free value: the `n`-th value the spec leaves open in a run. -/
opaque freeWord : Nat → Word

/-- The last 58 scrambled bits a lane received before the FEC class of its link took effect, by lane and time: only the line knows
them. -/
opaque rxTail : Nat → Nat → BitVec 58

/-- The four bits that a collective writes beside the last element of a 4-bit vector of odd length, by COUNT and that element: the
spec gives no value, and R338 lets it depend on nothing but what two runs agree in (log 84). -/
opaque sumPad : Nat → Byte → BitVec 4

/-- Fresh random bytes of the entropy source (nonces, ephemeral keys, jitter): draw `n`, byte `i`. -/
opaque entropy : Nat → Nat → Byte

/-- The fused ECDSA P-384 private key (R391). It never leaves the block. -/
opaque identityKey : BitVec 384

/-- The nonce of the `n`-th ECDSA signature the block makes; ECDSA leaves it to the signer. -/
opaque signNonce : Nat → Nat

/-- The product CA public key held in ROM (R392). -/
opaque caKey : Nat × Nat

/-- The product CA certificate held in ROM, in DER: the first of slot 0 (Table 16.10). -/
opaque caCert : Bytes

/-- CTExponent of the block's SPDM capabilities; the spec gives no value. -/
opaque spdmTimeout : Byte

/-- SHA-384 of the block version and ROM (Table 16.11, index 1). -/
opaque romDigest : Bytes

/-- The body length in 8-byte words of a scan-out section whose layout the spec does not give (Table 18.9). -/
opaque scanExtraLen : Nat → Nat → Nat

/-- The words of such a body, for the section, the instance, the word index and a draw number. -/
opaque scanExtra : Nat → Nat → Nat → Nat → Word

end Sys2Proof.Config
end

