-- ==== Sys2Proof/Syntax.lean ====
section
/-! DEFINITION. The commands of the KL-96: one constructor per row of the opcode table, with the row's operands.
A command is whatever reaches the block from outside or from one of its own timers and engines. A row that a timer
raises carries `dt`, the nanoseconds that have passed since the command before (the milestone counter and the core's
timers move on by it). A row for a packet names the link whose receive buffer holds it; `src` 24 is the block itself
(R215). An instruction row names the steward and carries the instruction's fields (Table 12.1). -/

namespace Sys2Proof

abbrev LinkId := Fin 24
abbrev LaneId := Fin 96
abbrev EPortId := Fin 16
abbrev PartId := Fin 16
abbrev QueueId := Fin 8192
abbrev SyncId := Fin 4096
abbrev GroupId := Fin 512
abbrev StwId := Fin 64
/-- Where a packet was received: links L0 to L23, and 24 for the block's own (R215). -/
abbrev SrcId := Fin 25

/-- A port on which the block commands the carrier's memory (Table 2.1). -/
inductive CPort
  | m (i : Fin 24)
  | n (i : Fin 4)
  | s (i : Fin 8)
  deriving DecidableEq, Repr

/-- A channel on which the block is the sender (Table 2.2). -/
inductive Channel
  | eCpl (port : EPortId)
  | rcmd (port : CPort)
  | wcmd (port : CPort)
  | wd (port : CPort)
  | ncmd (port : Fin 4)
  | mgRsp
  deriving DecidableEq, Repr

/-- A crossing between the core and a clocked domain (Table 3.5). -/
inductive Crossing
  | laneRx (lane : LaneId)
  | laneTx (lane : LaneId)
  | hclk (port : Fin 53)
  | milestone
  | tck
  deriving DecidableEq, Repr

/-- An instruction's fields D, A, B, C, F, X and Y (Table 12.1). -/
structure Fields where
  d : BitVec 4 := 0
  a : BitVec 4 := 0
  b : BitVec 4 := 0
  c : BitVec 4 := 0
  f : BitVec 4 := 0
  x : BitVec 32 := 0
  y : BitVec 64 := 0
  deriving DecidableEq, Repr

/-- 32 blocks as they arrive at a link (R157): the 256 frame bytes; `ctl`, a control block that broke into them
(R158); `bad`, a block of an uncorrectable codeword among them (R101); `clean`, every block with a valid sync header
on a lane holding block lock (Table 16.9); `full`, the receive crossing is full (R73). -/
structure RxFrame where
  bytes : Bytes
  ctl : Option (BitVec 64) := none
  bad : Bool := false
  clean : Bool := true
  full : Bool := false
  deriving DecidableEq, Repr

/-- What receiver adaptation has settled on (Tables 4.8, 4.10, 4.11). -/
structure Adapted where
  freqOfs : BitVec 10 := 0
  ctle : BitVec 5 := 0
  vga : BitVec 8 := 0
  snr : BitVec 16 := 0
  dfe0 : BitVec 64 := 0
  dfe1 : BitVec 32 := 0
  deriving DecidableEq, Repr

/-- The fields of LANE_PRBS_CTL a write carries (Table 4.15). -/
structure PrbsSet where
  rate : BitVec 4 := 0
  inv : Bool := false
  pattern : BitVec 3 := 0
  chk : Bool := false
  gen : Bool := false
  deriving DecidableEq, Repr

/-- The commands. -/
inductive Instr
  /-- COLD_RESET (R57). -/
  | coldReset (testmode : Bool)
  /-- WARM_RESET (R57). -/
  | warmReset
  /-- BLOCK_RST (R59). -/
  | blockRst
  /-- PART_RST (R61). -/
  | partRst (mask : BitVec 16)
  /-- PART_RESET_DONE (R61). -/
  | partResetDone (p : PartId)
  /-- LINK_RST (R59). -/
  | linkRst (mask : BitVec 24)
  /-- BOOT_STAGE_ADVANCE (R58). -/
  | bootStageAdvance (selftestOk : Bool) (dt : Nat)
  /-- CHANNEL_CREDIT (R29). -/
  | channelCredit (ch : Channel)
  /-- EPORT_LOAD (R35). -/
  | eportLoad (port : EPortId) (beat : BitVec 128)
  /-- EPORT_STORE (R35). -/
  | eportStore (port : EPortId) (beat : BitVec 128)
  /-- EPORT_AADD (R35). -/
  | eportAadd (port : EPortId) (beat : BitVec 128)
  /-- EPORT_AMIN (R35). -/
  | eportAmin (port : EPortId) (beat : BitVec 128)
  /-- EPORT_AMAX (R35). -/
  | eportAmax (port : EPortId) (beat : BitVec 128)
  /-- EPORT_AAND (R35). -/
  | eportAand (port : EPortId) (beat : BitVec 128)
  /-- EPORT_AOR (R35). -/
  | eportAor (port : EPortId) (beat : BitVec 128)
  /-- EPORT_AXOR (R35). -/
  | eportAxor (port : EPortId) (beat : BitVec 128)
  /-- EPORT_ASWP (R35). -/
  | eportAswp (port : EPortId) (beat : BitVec 128)
  /-- EPORT_ACAS (R35). -/
  | eportAcas (port : EPortId) (beat : BitVec 128)
  /-- EPORT_WD_BEAT (R37). -/
  | eportWdBeat (port : EPortId) (data : Bytes)
  /-- EPORT_COMPLETION (R40). -/
  | eportCompletion (port : EPortId)
  /-- EPORT_FABRIC_TIMEOUT (R47). -/
  | eportFabricTimeout (port : EPortId) (tag : BitVec 9) (dt : Nat)
  /-- CARRIER_READ_DATA (R44). -/
  | carrierReadData (port : CPort) (tag : BitVec 9) (status : BitVec 2) (data : Bytes)
  /-- CARRIER_WRITE_ACK (R45). -/
  | carrierWriteAck (port : CPort) (tag : BitVec 9) (status : BitVec 2)
  /-- N_PORT_RESPONSE (R43). -/
  | nPortResponse (port : Fin 4) (tag : BitVec 7) (status : BitVec 2) (data : Bytes)
  /-- CARRIER_PORT_TIMEOUT (R48). -/
  | carrierPortTimeout (port : CPort) (write : Bool) (tag : BitVec 9) (dt : Nat)
  /-- MGMT_WRITE (R49). -/
  | mgmtWrite (addr : BitVec 26) (size8 : Bool) (data : BitVec 64)
  /-- RC_FIELD_READ (R10). -/
  | rcFieldRead (addr : BitVec 26) (size8 : Bool)
  /-- VWARN_RISE (R85). -/
  | vwarnRise
  /-- VWARN_RELEASE (R85). -/
  | vwarnRelease (dt : Nat)
  /-- BROWNOUT_NOTICE_TIMER (R86). -/
  | brownoutNoticeTimer (dt : Nat)
  /-- HBM_HOT_CHANGE (R426). -/
  | hbmHotChange (stack : Fin 20) (high : Bool)
  /-- HOT_NOTICE_TIMER (R340). -/
  | hotNoticeTimer (dt : Nat)
  /-- HCLK_LOST (R84). -/
  | hclkLost
  /-- REFCLK_LOST (R416). -/
  | refclkLost
  /-- SPEED_SAMPLE (R75). -/
  | speedSample (period : BitVec 16) (dt : Nat)
  /-- PACE_RECOMPUTE (R72). -/
  | paceRecompute (dt : Nat)
  /-- CROSSING_RESET_REQUEST (R82). -/
  | crossingResetRequest (x : Crossing) (coreSide : Bool)
  /-- CROSSING_RESET_ACK (R82). -/
  | crossingResetAck (x : Crossing) (coreSide : Bool)
  /-- TXEQ_APPLY (R103). -/
  | txeqApply (lane : LaneId)
  /-- SLIP (R96). -/
  | slip (lane : LaneId)
  /-- SLIP_DONE (R96). -/
  | slipDone (lane : LaneId)
  /-- CLEAR (R97). -/
  | clear (lane : LaneId)
  /-- WINDOW_DONE (R97). -/
  | windowDone (lane : LaneId) (bad : Fin 1025)
  /-- BLOCK_LOCK_ACQUIRE (R95). -/
  | blockLockAcquire (lane : LaneId)
  /-- BLOCK_LOCK_LOSS (R95). -/
  | blockLockLoss (lane : LaneId)
  /-- CDR_LOCK_ACQUIRE (R106). -/
  | cdrLockAcquire (lane : LaneId)
  /-- CDR_LOCK_LOSS (R106). -/
  | cdrLockLoss (lane : LaneId)
  /-- ADAPT_DONE (R105). -/
  | adaptDone (lane : LaneId) (rx : Adapted)
  /-- FEC_CODEWORD_RX (R101). -/
  | fecCodewordRx (link : LinkId) (blocks : List (BitVec 66)) (symbols : List (BitVec 10))
  /-- EYE_SCAN_START (R109). -/
  | eyeScanStart (lane : LaneId)
  /-- EYE_SCAN_DONE (R109). -/
  | eyeScanDone (lane : LaneId) (errs : BitVec 32) (moved : Bool)
  /-- PRBS_ENABLE (R111). -/
  | prbsEnable (lane : LaneId) (w : PrbsSet)
  /-- INJ_ONE (R111). -/
  | injOne (lane : LaneId)
  /-- PRBS_CHK_LOCK (R112). -/
  | prbsChkLock (lane : LaneId)
  /-- PRBS_CHK_UNLOCK (R112). -/
  | prbsChkUnlock (lane : LaneId)
  /-- ENABLE (R117). -/
  | enable (link : LinkId)
  /-- LINK_DISABLE (R117). -/
  | linkDisable (link : LinkId)
  /-- RETRAIN (R118). -/
  | retrain (link : LinkId)
  /-- ADMIT (R135). -/
  | admitGuest (link : LinkId)
  /-- TEST (R118). -/
  | test (link : LinkId) (on : Bool)
  /-- TRAIN_ROW_ACTION (R118). -/
  | trainRowAction (link : LinkId)
  /-- TRAIN_ROW_TIMEOUT (R118). -/
  | trainRowTimeout (link : LinkId) (dt : Nat)
  /-- EYE_CHECK_DONE (R127). -/
  | eyeCheckDone (link : LinkId)
  /-- STEPPED (R122). -/
  | stepped (link : LinkId)
  /-- TRAINING_BLOCK_RX (R121). -/
  | trainingBlockRx (lane : LaneId) (complemented : Bool) (w : BitVec 64)
  /-- EQ_REQ_SEND (R123). -/
  | eqReqSend (lane : LaneId) (req : BitVec 3)
  /-- HELLO_TIMER (R132). -/
  | helloTimer (link : LinkId) (dt : Nat)
  /-- HELLO (R133). -/
  | hello (link : LinkId)
  /-- TCOMMIT_TRAINING_TABLE (R119). -/
  | tcommitTrainingTable
  /-- TCOMMIT_INSTALLED_PLAN (R130). -/
  | tcommitInstalledPlan
  /-- TCOMMIT_ROUTING_TABLE (R180). -/
  | tcommitRoutingTable
  /-- TCOMMIT_SCHEDULING_TABLE (R202). -/
  | tcommitSchedulingTable
  /-- TCOMMIT_INNKEEPER_TABLE (R250). -/
  | tcommitInnkeeperTable
  /-- TCOMMIT_SAMOVAR_TABLE (R323). -/
  | tcommitSamovarTable
  /-- TCOMMIT_FORMAT_TABLE (R356). -/
  | tcommitFormatTable
  /-- TCOMMIT_SIP_TREE (R363). -/
  | tcommitSipTree
  /-- TCOMMIT_TASTING_MENU (R443). -/
  | tcommitTastingMenu
  /-- COMMIT_DONE (R470). -/
  | commitDone
  /-- FRAME (R165). -/
  | frame (link : LinkId) (fr : RxFrame)
  /-- ACK (R167). -/
  | ack (link : LinkId) (w : BitVec 64)
  /-- CREDIT (R173). -/
  | credit (link : LinkId) (w : BitVec 64)
  /-- CRED_INIT (R170). -/
  | credInit (link : LinkId) (w : BitVec 64)
  /-- PACE (R72). -/
  | pace (link : LinkId) (w : BitVec 64)
  /-- FATAL (R193). -/
  | fatal (link : LinkId) (w : BitVec 64)
  /-- CURFEW_ENTRY_BLOCK (R452). -/
  | curfewEntryBlock (link : LinkId) (w : BitVec 64)
  /-- CURFEW_RESUME_BLOCK (R457). -/
  | curfewResumeBlock (link : LinkId) (w : BitVec 64)
  /-- ACK_BLOCK_TIMER (R166). -/
  | ackBlockTimer (link : LinkId)
  /-- CRED_INIT_TIMER (R170). -/
  | credInitTimer (link : LinkId) (dt : Nat)
  /-- REPLAY_TIMEOUT (R167). -/
  | replayTimeout (link : LinkId) (dt : Nat)
  /-- FRAME_TX (R194). -/
  | frameTx (link : LinkId)
  /-- SCHED_INTERVAL (R198). -/
  | schedInterval (dt : Nat)
  /-- RD (R223). -/
  | rd (src : SrcId)
  /-- WR (R223). -/
  | wr (src : SrcId)
  /-- RSIG_PACKET (R225). -/
  | rsigPacket (src : SrcId)
  /-- ATOM (R226). -/
  | atom (src : SrcId)
  /-- RD_BF (R211). -/
  | rdBf (src : SrcId)
  /-- WR_BF (R211). -/
  | wrBf (src : SrcId)
  /-- ATOM_BF (R226). -/
  | atomBf (src : SrcId)
  /-- BRD (R224). -/
  | brd (src : SrcId)
  /-- BWR (R224). -/
  | bwr (src : SrcId)
  /-- BRD_BF (R224). -/
  | brdBf (src : SrcId)
  /-- BWR_BF (R224). -/
  | bwrBf (src : SrcId)
  /-- FILL_REQUEST (R408). -/
  | fillRequest (src : SrcId)
  /-- CPL (R177). -/
  | cpl (src : SrcId)
  /-- CPL_D (R177). -/
  | cplD (src : SrcId)
  /-- ONWARD_TIMEOUT (R221). -/
  | onwardTimeout (slot : Fin 512) (dt : Nat)
  /-- BUSY_RETRY (R244). -/
  | busyRetry (req : Nat) (dt : Nat)
  /-- STEWARD_REQUEST_TIMEOUT (R244). -/
  | stewardRequestTimeout (req : Nat) (dt : Nat)
  /-- INNKEEPER_EPOCH (R256). -/
  | innkeeperEpoch (dt : Nat)
  /-- NOTE_EXPIRY (R253). -/
  | noteExpiry (dt : Nat)
  /-- DIR_HOLD_END (R253). -/
  | dirHoldEnd (dt : Nat)
  /-- PL_ASK (R258). -/
  | plAsk (src : SrcId)
  /-- PL_MOVE (R259). -/
  | plMove (src : SrcId)
  /-- PL_OPEN (R260). -/
  | plOpen (src : SrcId)
  /-- PL_DATA (R260). -/
  | plData (src : SrcId)
  /-- PL_COMMIT (R260). -/
  | plCommit (src : SrcId)
  /-- PL_DIR (R260). -/
  | plDir (src : SrcId)
  /-- PL_DROP (R261). -/
  | plDrop (src : SrcId)
  /-- PL_DIR_RETRY (R260). -/
  | plDirRetry (pl : Nat) (dt : Nat)
  /-- QUEUE_BIND (R273). -/
  | queueBind (q : QueueId) (word : Fin 3) (data : BitVec 64)
  /-- QUEUE_UNBIND (R273). -/
  | queueUnbind (q : QueueId)
  /-- START (R279). -/
  | start (q : QueueId)
  /-- RESTART (R279). -/
  | restart (q : QueueId)
  /-- QUEUE_CLEAR (R295). -/
  | queueClear (q : QueueId)
  /-- SKIP (R279). -/
  | skip (q : QueueId)
  /-- QUEUE_HALT (R279). -/
  | queueHalt (q : QueueId)
  /-- DOORBELL (R277). -/
  | doorbell (q : QueueId) (tenant : Option PartId) (value : BitVec 32)
  /-- IFETCH_LINE (R281). -/
  | ifetchLine (stw : StwId)
  /-- STEWARD_CHOOSE (R284). -/
  | stewardChoose (stw : StwId)
  /-- STW_CTL_WRITE (R283). -/
  | stwCtlWrite (stw : StwId) (en : Bool) (pool : BitVec 4)
  /-- SYNC_CTL_WRITE (R287). -/
  | syncCtlWrite (n : SyncId) (alloc : Bool) (p : BitVec 4)
  /-- SYNC_VAL_WRITE (R288). -/
  | syncValWrite (n : SyncId) (value : BitVec 64)
  /-- PRT_SYNC_ADD (R288). -/
  | prtSyncAdd (p : PartId) (n : SyncId) (addend : BitVec 64)
  /-- SETG (R302). -/
  | setg (stw : StwId) (w : Fields)
  /-- ADDG (R302). -/
  | addg (stw : StwId) (w : Fields)
  /-- JMP (R302). -/
  | jmp (stw : StwId) (w : Fields)
  /-- BNZ (R302). -/
  | bnz (stw : StwId) (w : Fields)
  /-- LOOP (R302). -/
  | loop (stw : StwId) (w : Fields)
  /-- HALT (R302). -/
  | halt (stw : StwId) (w : Fields)
  /-- YIELD (R302). -/
  | yield (stw : StwId) (w : Fields)
  /-- COPY (R303). -/
  | copy (stw : StwId) (w : Fields)
  /-- PUT (R303). -/
  | put (stw : StwId) (w : Fields)
  /-- GET (R303). -/
  | get (stw : StwId) (w : Fields)
  /-- PUTI (R304). -/
  | puti (stw : StwId) (w : Fields)
  /-- FILL (R303). -/
  | fill (stw : StwId) (w : Fields)
  /-- AADD (R306). -/
  | aadd (stw : StwId) (w : Fields)
  /-- AMIN (R306). -/
  | amin (stw : StwId) (w : Fields)
  /-- AMAX (R306). -/
  | amax (stw : StwId) (w : Fields)
  /-- AAND (R306). -/
  | aand (stw : StwId) (w : Fields)
  /-- AOR (R306). -/
  | aor (stw : StwId) (w : Fields)
  /-- AXOR (R306). -/
  | axor (stw : StwId) (w : Fields)
  /-- ASWP (R306). -/
  | aswp (stw : StwId) (w : Fields)
  /-- ACAS (R306). -/
  | acas (stw : StwId) (w : Fields)
  /-- SIG (R307). -/
  | sig (stw : StwId) (w : Fields)
  /-- WAIT (R289). -/
  | wait (stw : StwId) (w : Fields)
  /-- RSIG (R307). -/
  | rsig (stw : StwId) (w : Fields)
  /-- FENCE (R236). -/
  | fence (stw : StwId) (w : Fields)
  /-- RSC (R325). -/
  | rsc (stw : StwId) (w : Fields)
  /-- AGT (R326). -/
  | agt (stw : StwId) (w : Fields)
  /-- SIPRED (R368). -/
  | sipred (stw : StwId) (w : Fields)
  /-- SIPBAR (R371). -/
  | sipbar (stw : StwId) (w : Fields)
  /-- SCALE (R358). -/
  | scale (stw : StwId) (w : Fields)
  /-- PIN (R263). -/
  | pin (stw : StwId) (w : Fields)
  /-- UNPIN (R263). -/
  | unpin (stw : StwId) (w : Fields)
  /-- MIGR (R263). -/
  | migr (stw : StwId) (w : Fields)
  /-- REPL (R263). -/
  | repl (stw : StwId) (w : Fields)
  /-- UNREPL (R263). -/
  | unrepl (stw : StwId) (w : Fields)
  /-- HINT (R264). -/
  | hint (stw : StwId) (w : Fields)
  /-- TLOAD (R314). -/
  | tload (stw : StwId) (w : Fields)
  /-- TCOMMIT (R315). -/
  | tcommit (stw : StwId) (w : Fields)
  /-- SLIP_INSTR (R316). -/
  | slipInstr (stw : StwId) (w : Fields)
  /-- EQSET (R316). -/
  | eqset (stw : StwId) (w : Fields)
  /-- EYESCAN (R316). -/
  | eyescan (stw : StwId) (w : Fields)
  /-- PRBS (R316). -/
  | prbs (stw : StwId) (w : Fields)
  /-- TRAIN (R316). -/
  | train (stw : StwId) (w : Fields)
  /-- LINKSET (R316). -/
  | linkset (stw : StwId) (w : Fields)
  /-- TASTE (R317). -/
  | taste (stw : StwId) (w : Fields)
  /-- MARK (R317). -/
  | mark (stw : StwId) (w : Fields)
  /-- CL_BRD (R325). -/
  | clBrd (src : SrcId)
  /-- CL_RING (R325). -/
  | clRing (src : SrcId)
  /-- CL_DONE (R333). -/
  | clDone (src : SrcId)
  /-- CL_READY (R331). -/
  | clReady (src : SrcId)
  /-- PARK (R339). -/
  | park (g : GroupId)
  /-- GROUP_PARKED (R339). -/
  | groupParked (g : GroupId)
  /-- RESUME (R339). -/
  | resume (g : GroupId)
  /-- ABORT (R341). -/
  | abort (g : GroupId)
  /-- STALL_DEADLINE (R340). -/
  | stallDeadline (g : GroupId) (dt : Nat)
  /-- SIP_RED (R368). -/
  | sipRed (src : SrcId)
  /-- SIP_BAR (R368). -/
  | sipBar (src : SrcId)
  /-- SIP_SCALE (R369). -/
  | sipScale (src : SrcId)
  /-- SIP_ABORT (R372). -/
  | sipAbort (src : SrcId)
  /-- SIP_SLOW (R372). -/
  | sipSlow (src : SrcId)
  /-- SIP_TIME (R449). -/
  | sipTime (src : SrcId)
  /-- MS_GO (R449). -/
  | msGo
  /-- MS_SAMPLE_TIMEOUT (R449). -/
  | msSampleTimeout (dt : Nat)
  /-- ATTEST (R393). -/
  | attest (link : LinkId)
  /-- KEYX_OPEN (R394). -/
  | keyxOpen (link : LinkId)
  /-- KEYX_EPH (R394). -/
  | keyxEph (link : LinkId)
  /-- KEYX_CONFIRM (R395). -/
  | keyxConfirm (link : LinkId)
  /-- REKEY (R401). -/
  | rekey (link : LinkId)
  /-- ADVANCE (R398). -/
  | advance (link : LinkId)
  /-- PREVIOUS_SLOT_RETIRE (R399). -/
  | previousSlotRetire (link : LinkId) (dt : Nat)
  /-- SEC_PART_CTL_WRITE (R383). -/
  | secPartCtlWrite (p : PartId) (valid : Bool) (bf : Bool) (tasteOk : Bool) (tag : BitVec 16)
  /-- SCRUB_GO (R410). -/
  | scrubGo
  /-- SCRUB_DONE (R410). -/
  | scrubDone
  /-- SPDM_GO (R405). -/
  | spdmGo
  /-- SPDM_RESPONSE_DONE (R407). -/
  | spdmResponseDone
  /-- FAULT_DETECT (R416). -/
  | faultDetect (sources : List (Fin 64 × Nat))
  /-- ERR_PULSE_END (R419). -/
  | errPulseEnd (dt : Nat)
  /-- FC_STATUS_CLEAR (R417). -/
  | fcStatusClear (mask : BitVec 64)
  /-- FC_FIRST_CLEAR (R418). -/
  | fcFirstClear
  /-- ERR_DRIVE_WRITE (R419). -/
  | errDriveWrite (drive : Bool)
  /-- FAULT_INJECT (R430). -/
  | faultInject (source : BitVec 6)
  /-- FAULTB (R427). -/
  | faultb (src : SrcId)
  /-- COUNTER_SELECT_WRITE (R433). -/
  | counterSelectWrite (n : Fin 512) (data : BitVec 64)
  /-- COUNTER_PRESET (R433). -/
  | counterPreset (n : Fin 512) (data : BitVec 64)
  /-- TRACE_ENABLE (R439). -/
  | traceEnable
  /-- TRACE_RECORD_TAKE (R438). -/
  | traceRecordTake
  /-- TRACE_DATA_READ (R440). -/
  | traceDataRead
  /-- FIRE (R441). -/
  | fire (k : Fin 8)
  /-- TRIGGER_TIME (R441). -/
  | triggerTime (dt : Nat)
  /-- COUNTER_EXPORT (R447). -/
  | counterExport (dt : Nat)
  /-- OB_WRITE (R446). -/
  | obWrite (src : SrcId)
  /-- CURFEW_PACKET (R453). -/
  | curfewPacket (src : SrcId)
  /-- ENTER (R452). -/
  | enter
  /-- CURFEW_IN (R452). -/
  | curfewIn
  /-- CURFEW_TIMED (R453). -/
  | curfewTimed (dt : Nat)
  /-- CURFEW_RESUME (R457). -/
  | curfewResume
  /-- RESUME_WAIT_EXPIRY (R457). -/
  | resumeWaitExpiry (link : LinkId) (dt : Nat)
  /-- SCAN_START (R459). -/
  | scanStart
  /-- SEEK (R459). -/
  | seek (sect : BitVec 16) (num : BitVec 16)
  /-- SCAN_DATA_READ (R459). -/
  | scanDataRead
  /-- SCANSEL (R460). -/
  | scansel (w : BitVec 64)
  /-- SCANOUT (R460). -/
  | scanout
  /-- POWER_WINDOW (R388). -/
  | powerWindow (watts : Nat) (dt : Nat)
  /-- COUNTER_VIEW_SNAPSHOT (R387). -/
  | counterViewSnapshot (dt : Nat)
  /-- BENCH_INJECT (R486). -/
  | benchInject
  /-- TRST_N (R52). -/
  | trstN
  deriving DecidableEq, Repr

end Sys2Proof
end

