-- ==== Sys2Proof/Decode.lean ====
section
/-! DEFINITION. The words the opcode table spells. The table of the KL-96 gives none of its 238 rows any bits (a
command reaches the block as an event, a register write or a packet, not as a word of one encoding), so no word spells
a command. -/

namespace Sys2Proof

/-- The command that a word spells by the table's bits: none, since no row of the table gives bits. -/
def decodeTableWord (_nbits _w : Nat) : Option Instr := none

end Sys2Proof
end

