-- ==== Sys2Proof/Machine/Data.lean ====
section
/-! DEFINITION. The pieces of the block's state: clocks, resets and pins, carrier ports, packets and requests, lanes,
links, the Porter, the fault collector and observation. Every piece is plain data; repeated things stand in sparse
tables (`Tab`) whose default is the reset value of one instance. -/

namespace Sys2Proof.Machine

/-! ### Clocks, boot and pins (chapters 2, 3) -/

/-- BOOT_STAGE (Table 2.16). -/
inductive BootStage
  | fuse | sramInit | selftest | mgmtOpen | laneClocks | ready | selftestFail
  deriving DecidableEq, Repr

/-- Elapsed time in units of 0.2 ns. `up` runs always since the last cold reset; `ms` is the unstepped milestone
count, which starts at LANE_CLOCKS (R448); `core` stops in curfew; `act` stops in curfew and in a brown-out hold
(R87); `ofs` is the total step applied to milestone time, in ns (OBS_MS_OFS). -/
structure Clock where
  up : Nat := 0
  ms : Nat := 0
  core : Nat := 0
  act : Nat := 0
  ofs : Int := 0
  deriving DecidableEq, Repr

/-- Boot and reset state (R57 to R61). `lastReset` as GBL_RESET_STAT; `partBusy`, `linkBusy` its bit masks; `released`
is the time the running reset was released; `partHeld` the partition resets written during a hold (R88); `due` of a
BLOCK_RST the responses that still leave before it begins (R59). -/
structure Boot where
  stage : BootStage := .fuse
  lastReset : BitVec 2 := 0
  testmode : Bool := false
  partBusy : BitVec 16 := 0
  linkBusy : BitVec 24 := 0
  partHeld : BitVec 16 := 0
  released : Nat := 0
  due : Option Nat := none
  deriving DecidableEq, Repr

/-- Sideband levels and the speed monitor (R52, R75, R85). `vwarn`: VWARN as recognised; `hold`: the brown-out hold;
`faultOut`: FAULT_OUT as driven, which holds its last value once HCLK is lost (R420). -/
structure Pins where
  vwarn : Bool := false
  hold : Bool := false
  holdNotice : Nat := 0
  hot : BitVec 20 := 0
  hotNotice : Nat := 0
  hclkDead : Bool := false
  faultOut : BitVec 2 := 0
  curfewOut : Bool := false
  period : BitVec 16 := 0
  periodMax : BitVec 16 := 0
  deriving DecidableEq, Repr

/-- The two levels of one side's reset handshake (Table 3.7): its request and the other side's acknowledgement. -/
structure HandLevels where
  req : Bool := false
  ack : Bool := false
  deriving DecidableEq, Repr

/-- An event counter of a crossing (R80): the Gray code the sender shows, and the receiver's last accepted value. -/
structure EventCtr where
  sent : BitVec 8 := 0
  taken : BitVec 8 := 0
  deriving DecidableEq, Repr

/-- A crossing (R80, R82): the handshake of a reset of its core side and of its clocked side, and its event counters, one for
each channel of events. -/
structure Xing where
  core : HandLevels := {}
  clk : HandLevels := {}
  ctrs : Tab EventCtr := []
  deriving DecidableEq, Repr

/-! ### Packets (Table 7.6) -/

/-- A packet: the header fields of Table 7.6 and the data. -/
structure Pkt where
  op : BitVec 8
  hop : BitVec 2 := 0
  colour : BitVec 2 := 0
  ptag : BitVec 16 := 0
  src : BitVec 11 := 0
  dst : BitVec 11 := 0
  tag : BitVec 12 := 0
  len : BitVec 8 := 0
  sqm : BitVec 2 := 0
  addr : BitVec 56 := 0
  data : Bytes := []
  deriving DecidableEq, Repr

/-- A packet in an output queue: `from_` is the link, receive pool and link session whose units it still holds (R173),
none for a packet that originates here; `arrival` is the link a forwarded packet arrived on, and `no` its place in the order of
arrival there. -/
structure OutPkt where
  pkt : Pkt
  from_ : Option (Nat × Nat × Nat) := none
  arrival : Option Nat := none
  no : Nat := 0
  deriving DecidableEq, Repr

/-- A packet in a receive buffer, with the link session it arrived in (R170) and its place in the order of arrival. -/
structure RxPkt where
  pkt : Pkt
  ses : Nat := 0
  no : Nat := 0
  deriving DecidableEq, Repr

/-- What the block has driven outwards: beats on carrier channels (Table 2.2), credits returned, blocks and frames on
the lanes. `State.sent` is the model's own record of it. -/
inductive Emit
  | eCpl (port : Nat) (status : BitVec 32) (data : Bytes)
  | eCredit (port : Nat) (wd : Bool) (n : Nat)
  | rcmd (port : CPort) (w : Word)
  | wcmd (port : CPort) (w : Word)
  | wd (port : CPort) (data : Bytes) (be : BitVec 128)
  | ncmd (port : CPort) (w : Word) (data : Bytes) (be : BitVec 32)
  | cpCredit (port : CPort) (wack : Bool) (n : Nat)
  | mgCredit (n : Nat)
  | mgRsp (data : Word) (status : BitVec 2)
  | control (link : Nat) (w : Word)
  | frame (link : Nat) (bytes : Bytes)
  | rawFrame (link : Nat) (bytes : Bytes) (ctl bad : BitVec 32)
  | idle (link : Nat) (n : Nat)
  | train (lane : Nat) (w : Word)
  | prbs (lane : Nat) (set : PrbsSet) (seed : Word)
  | prbsFlip (lane : Nat)
  | tdo (w : Word)
  deriving DecidableEq, Repr

/-! ### Carrier ports (chapter 2) -/

/-- Where an E-port command stands: its WD beat is still to come, an earlier command of its stream and line has not become a
request yet (R230), it waits for its answer, or its completion is queued (and the TAG is still in flight, R39). -/
inductive EStage
  | needWd | queued | issued | answered
  deriving DecidableEq, Repr

/-- An E-port command in flight (Table 2.3). `wd` is its WD beat; `early` a completion status already decided at the
command beat (R36, R213), given once the WD beat is consumed. -/
structure ECmd where
  beat : BitVec 128
  stage : EStage
  wd : Bytes := []
  early : Option (BitVec 4) := none
  at5 : Nat := 0
  deriving DecidableEq, Repr

/-- An E-port: credits the carrier holds on CMD and WD, credits owed (withheld in a hold, R85), CPL credits the block
holds, commands in flight by TAG in command order, TAGs waiting for WD beats in command order (none: of a command that has
left flight without its beat), WD beats that came first, queued completions. -/
structure EPort where
  cmdCrd : Nat := 0
  wdCrd : Nat := 0
  cmdOwed : Nat := 0
  wdOwed : Nat := 0
  cplCrd : Nat := 0
  flight : List (Nat × ECmd) := []
  wdWait : List (Option Nat) := []
  wdBuf : List Bytes := []
  cplQ : List (Nat × BitVec 4 × Bytes) := []
  deriving DecidableEq, Repr

/-- One M-, N- or S-port command (R41 to R43), waiting or outstanding. `atom`: an atomic's read or write back (R46);
`dead`: timed out, or owed from before a warm reset, its TAG kept until the late response (R48, R62); `obs`: an
observation access; `smv`: a command of the Samovar. -/
structure Acc where
  job : Nat
  port : CPort
  write : Bool
  addr : Nat
  len : Nat
  data : Bytes := []
  atom : Bool := false
  obs : Bool := false
  smv : Bool := false
  tag : Nat := 0
  at5 : Nat := 0
  dead : Bool := false
  deriving DecidableEq, Repr

/-- The operation of an atomic (R305), in the order of ATOM's opcode bits [2:0]. -/
inductive AtomOp
  | aadd | amin | amax | aand | aor | axor | aswp | acas
  deriving DecidableEq, Repr

/-- What a Samovar access is for: a header or record write; the staging of arrived data; the read of a part sent to a row
peer; the reads of a board sum and the write of its result P; the read of a piece sent along the ring; the reads of a
ring addition; the read of a piece or part copied to the destination, and a destination write; the first read of SCALE's
tensor, the second, and its write. -/
inductive SmvJob
  | header | stage | sendBrd | sumRead | sumWrite | sendRing | addRead | copyRead | destWrite | maxRead | reqRead
  | reqWrite
  deriving DecidableEq, Repr

/-- What a request to carrier memory is for, and so what follows when its last command is answered. -/
inductive JobFor
  /-- A request of the fabric performed at this chip: the packet as it arrived, the chip its completion names as lodging,
  where it arrived (24: here), and the local ranges it reads. -/
  | serve (p : Pkt) (loc : Option Nat) (src : Nat) (at_ : List (Nat × Nat))
  /-- An atomic's read, with the format entry in force as it began (R18), and then its write back with the old value. -/
  | atomRead (p : Pkt) (loc : Option Nat) (desc : Word)
  | atomWrite (p : Pkt) (loc : Option Nat) (old : Word)
  /-- A ring line for a steward's instruction cache (R281). -/
  | ringLine (stw : Nat) (q : Nat) (line : Nat)
  /-- A context load or save (R285). -/
  | ctxLoad (stw : Nat) (q : Nat)
  | ctxSave (stw : Nat) (q : Nat)
  /-- The local read of a PUT packet and the local write of a GET packet, by request. -/
  | reqRead (id : Nat)
  | reqWrite (id : Nat)
  /-- TLOAD's read of its source (R314). -/
  | tload (q : Nat) (seq : Nat)
  /-- A placement's copy read, and the write of received copy data (R260). -/
  | plRead (pl : Nat) (line : Nat)
  | plWrite (p : Pkt)
  /-- A taste's or export's data read (R445). -/
  | tasteRead (t : Nat) (ofs : Nat) (len : Nat)
  /-- An OB_WRITE performed in the receive window (R446). -/
  | obWrite (p : Pkt)
  /-- A trace record's spill write (R438). -/
  | spill (idx : Nat)
  /-- A Samovar read or write for a chunk of a group: what it is for, and a sender, receiver, step or piece. -/
  | smv (g : Nat) (chunk : Nat) (what : SmvJob) (a : Nat)
  /-- A scrub write (R410). -/
  | scrub
  /-- A request whose result nothing takes any more. -/
  | void
  deriving DecidableEq, Repr

/-- A request the block carries out as several commands (R491): commands unanswered, bytes read so far by address, and
the statuses seen (`poi` also for a read that timed out, `poiSeen` for a POISON response whose record waits for the end, R265). `key` names the flow and
page whose writes are performed in order (R229), 0 for none. -/
structure Job where
  id : Nat
  what : JobFor
  left : Nat
  key : Nat := 0
  got : List (Nat × Bytes) := []
  tmo : Bool := false
  dec : Bool := false
  poi : Bool := false
  poiSeen : Bool := false
  deriving DecidableEq, Repr

/-! ### Requests to the fabric (chapter 9) -/

/-- Who waits for a request's completion. -/
inductive Requester
  | eport (port : Nat) (tag : Nat)
  | insn (q : Nat) (seq : Nat)
  | placement (pl : Nat) (what : Nat)
  | ask (id : Nat)
  | taste (t : Nat) (last : Bool)
  | none
  deriving DecidableEq, Repr

/-- Where a request stands: held (R187, R217, R230), its data being read from its source, ready with its data, sent,
refused RETRY or RESYNC and waiting to be sent again, waiting for a backoff (R244), or its returned bytes being
written at this chip. -/
inductive ReqStage
  | held | reading | ready | sent | again (sync : Bool) | backoff (until_ : Nat) | landing
  deriving DecidableEq, Repr

/-- What a request's data is read from or goes to at this chip: nothing, the local source of a PUT, the local destination
of a GET, the source of a COPY write, or the write that a COPY read fills, at first or again (R187). -/
inductive Leg
  | plain
  | put (lpa : Nat)
  | get (lpa : Nat)
  | copyWr (src : BitVec 64)
  | copyRe (id : Nat)
  deriving DecidableEq, Repr

/-- A request outstanding from this chip, in issue order of its list. `stream` is the ordered stream (R39; none for the
block's own requests); `cache` the location cache used (R216); `fab` the fabric address and `n` the bytes it names;
`write` a write or atomic; `ordered` one that travels with SQM 0b01 or 0b10; `home` the location cache of the steward that made
it; `reread` a read that fills a refused COPY write again (R187). -/
structure Req where
  id : Nat
  who : Requester
  stream : Option Nat := none
  cache : Option Nat := none
  fab : BitVec 64 := 0
  n : Nat := 0
  pkt : Pkt
  leg : Leg := .plain
  write : Bool := false
  ordered : Bool := false
  stage : ReqStage := .held
  numbered : Bool := false
  firstAt : Option Nat := none
  sentAt : Nat := 0
  leaseFrom : Int := 0
  policed : Nat := 0
  timedOut : Bool := false
  dropped : Bool := false
  home : Nat := 16
  reread : Bool := false
  deriving DecidableEq, Repr

/-- An ordered flow at its origin (R187): next number, whether the next packet synchronises, the pin of R183 as the
member link chosen (R142), its count. -/
structure Flow where
  next : BitVec 12 := 0
  sync : Bool := true
  pin : Option (Nat × Nat) := none
  deriving DecidableEq, Repr

/-- An ordered flow at its destination (R188). -/
structure FlowIn where
  e : BitVec 12 := 0
  synced : Bool := false
  deriving DecidableEq, Repr

/-- A location-cache entry (R216): segment and page, chip, lease end in milestone ns. -/
structure Loc where
  page : Nat
  chip : BitVec 11
  lease : Nat
  deriving DecidableEq, Repr

/-- An entry of the onward table (R219): the request as it arrived, the lodging, the link it arrived on, whether the
onward packet has left (R220) and when; `hold` the placement whose freeze or repair holds it (R260, R265). -/
structure Onward where
  pkt : Pkt
  lodging : BitVec 11
  arrival : Nat
  sent : Bool := false
  hold : Option Nat := none
  at5 : Nat := 0
  deriving DecidableEq, Repr

/-! ### Lanes (chapter 4) -/

/-- The fields of a training block a lane has received last (Table 5.5). `ts` counts consecutive valid blocks outside the rows that
carry frames, `seen` those on them, which count towards TS_SEEN alone (R159). -/
structure TrainRx where
  mark : BitVec 8 := 0
  ack : Bool := false
  locked : BitVec 4 := 0
  grade : BitVec 2 := 0
  fec : BitVec 2 := 0
  link : BitVec 5 := 0
  rank : BitVec 2 := 0
  stepGrade : BitVec 2 := 0
  stepCnt : BitVec 6 := 63
  run : Nat := 0
  inv : Nat := 0
  ts : Nat := 0
  seen : Nat := 0
  deriving DecidableEq, Repr

/-- Coefficients of the transmit equaliser (R103). -/
structure Fir where
  pre : BitVec 6 := 4
  main : BitVec 6 := 52
  post : BitVec 6 := 7
  deriving DecidableEq, Repr

/-- The offset sampler (Tables 4.12 and 4.13): the settings written, the settings of the running scan, the result. `chk` is the
point of the link's eye check this lane is at, `chkRun` says that the running scan is that point's (R127). In the dwell, `ran` says
that adaptation has been free to run and `shift` that it has changed a coefficient (R109). -/
structure Eye where
  dwell : BitVec 4 := 0
  eye : BitVec 2 := 1
  phase : BitVec 6 := 0
  vofs : BitVec 8 := 0
  runEye : BitVec 2 := 1
  runDwell : BitVec 4 := 0
  runPhase : BitVec 6 := 0
  runVofs : BitVec 8 := 0
  busy : Bool := false
  done : Bool := false
  invalid : Bool := false
  moved : Bool := false
  errs : BitVec 32 := 0
  chk : Option Nat := none
  chkRun : Bool := false
  ran : Bool := false
  shift : Bool := false
  deriving DecidableEq, Repr

/-- PRBS generator and checker (Tables 4.15 and 4.16). `since` is the time from which the locked checker compares, less
`part` sixteenths of a bit. -/
structure Prbs where
  lock : Bool := false
  rej : Bool := false
  set : PrbsSet := {}
  inject : Nat := 0
  bits : Nat := 0
  errs : Nat := 0
  since : Nat := 0
  part : Nat := 0
  deriving DecidableEq, Repr

/-- Bit slip and header window (Table 4.17). `queued` is a SLIP behind the pending one, `clearPend` a CLEAR during a
SLIP (Table 4.19), `counting` a window in progress, begun at `since`; `ofs` counts the slips carried out. -/
structure Align where
  pend : Bool := false
  queued : Nat := 0
  clearPend : Bool := false
  counting : Bool := false
  done : Bool := false
  rej : Bool := false
  good : BitVec 11 := 0
  bad : BitVec 11 := 0
  since : Nat := 0
  ofs : Nat := 0
  deriving DecidableEq, Repr

/-- The equaliser request of a lane (Table 5.6): what it sends, the far EQ_TGL last seen and the one last acted on, and the
status of that (R123). `req` is REQ as written, `out` the request in its training blocks since the last SEND. -/
structure EqReq where
  out : BitVec 3 := 0
  tgl : Bool := false
  stat : BitVec 2 := 0
  echo : Bool := false
  req : BitVec 3 := 0
  seen : Bool := false
  acted : Bool := false
  myStat : BitVec 2 := 0
  deriving DecidableEq, Repr

/-- One lane (Tables 4.7 to 4.18, 5.6). `grading` is a change of grade whose adaptation has not completed (R105), `hdrFrom` the
time up to which HDR_ERR counts the headers seen; `noteWin`, `noteEye`: sync objects that an add of 1 goes to when WINDOW_DONE or DONE
next sets (R316). -/
structure Lane where
  cdr : Bool := false
  blk : Bool := false
  adaptDone : Bool := false
  idle : Bool := true
  grade : BitVec 2 := 0
  active : Bool := false
  skew : BitVec 10 := 0
  txPol : Bool := false
  rxPol : Bool := false
  adapt : Bool := true
  firErr : Bool := false
  grading : Bool := false
  hdrFrom : Nat := 0
  cur : Fir := {}
  staged : Fir := {}
  rx : Adapted := {}
  eye : Eye := {}
  prbs : Prbs := {}
  align : Align := {}
  hdrErr : BitVec 32 := 0
  fecFix : BitVec 32 := 0
  eq : EqReq := {}
  train : TrainRx := {}
  noteWin : List Nat := []
  noteEye : List Nat := []
  deriving DecidableEq, Repr

/-! ### Line coding (R90 to R100) -/

/-- The level of a symbol on a lane (R90). -/
inductive Level
  | nrz (high : Bool)
  | pam (level : BitVec 2)
  deriving DecidableEq, Repr

/-- The coding of one lane (R92): the last 58 scrambled bits sent and received, the newest as bit 0, and the model's own record of
the levels driven. -/
structure LaneCode where
  tx : BitVec 58 := 0
  rx : BitVec 58 := 0
  wire : List Level := []
  deriving DecidableEq, Repr

/-- A block as the decoder gives it: its sync header, its descrambled payload, and whether it held bits of an uncorrectable
codeword (R101). -/
structure RxBlock where
  head : BitVec 2
  word : Word
  bad : Bool
  deriving DecidableEq, Repr

/-- The block stream of one link between the link layer and its lanes (R93, R98 to R100), since the class took effect. `lanes` by lane
rank 0 to 3; `txBlocks`, `txSyms`, `rxBlocks`, `rxSyms` the blocks and F2 symbols sent and received; `cw` the blocks of the running F1
codeword; `txBits` the bits that are no F2 symbol yet, `par` the remainder of the running F2 codeword; `rxBits` the bits received that
are no block yet, `rxBad` that some of them are bad; `got` the blocks of the codeword received last. -/
structure Line where
  lanes : Tab LaneCode := []
  txBlocks : Nat := 0
  txSyms : Nat := 0
  cw : List (List Bool) := []
  txBits : List Bool := []
  par : List Nat := []
  rxBlocks : Nat := 0
  rxSyms : Nat := 0
  rxBits : List Bool := []
  rxBad : Bool := false
  got : List RxBlock := []
  deriving DecidableEq, Repr

/-! ### Links: training and discovery (chapter 5) -/

/-- The eye check of a link (R127): the class it runs for, whether a point failed, and the last result. -/
structure EyeCheck where
  running : Bool := false
  failed : Bool := false
  cls : BitVec 2 := 0
  pass : Bool := false
  fail : Bool := false
  deriving DecidableEq, Repr

/-- Training of a link (Tables 5.12, 5.13 and R118). `tbl` is the table it started under (R119), by row; `plan` the
GRADE_MAX and MIN_WIDTH of the plan entry it started under (R131); `entered` the time the lead row was entered; `farFec` the FEC of
the last valid training block received (R124). -/
structure Train where
  enable : Bool := false
  test : Bool := false
  gradeCap : BitVec 2 := 3
  row : BitVec 8 := 0
  state : BitVec 4 := 0
  entered : Nat := 0
  tbl : Tab Word := []
  plan : Option (BitVec 2 × BitVec 2) := none
  cause : BitVec 4 := 0
  grade : BitVec 2 := 0
  lanes : BitVec 4 := 0
  cap : BitVec 2 := 3
  retry : BitVec 2 := 0
  admitRej : Bool := false
  upCount : BitVec 32 := 0
  mark : BitVec 8 := 0
  retrain : Bool := false
  pass : Bool := false
  failp : Bool := false
  loss : Bool := false
  fail : Bool := false
  admitNow : Bool := false
  stepTo : Option (BitVec 2) := none
  stepCnt : BitVec 6 := 63
  stepDone : Bool := false
  farFec : BitVec 2 := 0
  eye : EyeCheck := {}
  deriving DecidableEq, Repr

/-- The FEC class of a link (Tables 4.4 and 4.5) and the run of uncorrectable codewords (R101). -/
structure Fec where
  cur : BitVec 2 := 0
  req : BitVec 2 := 0
  uncorr : BitVec 32 := 0
  corr : BitVec 32 := 0
  run : Nat := 0
  deriving DecidableEq, Repr

/-- VERDICT (Table 5.20). -/
inductive Verdict
  | none | match_ | admitted | absent | qUnexpected | qWrongPeer | qIdentity | qBench | qClass | qHostile
  deriving DecidableEq, Repr

/-- The Guestbook of a link (Table 5.20): the verdict, the last HELLO received, PLAN_SKEW, and the HELLO exchange
since UP (R132): a HELLO heard, one with ACK received, one with ACK sent, and when the next is due. -/
structure Guest where
  verdict : Verdict := .none
  hello : Option Bytes := none
  skew : Bool := false
  dig : List Word := []
  heard : Bool := false
  rxAck : Bool := false
  txAck : Bool := false
  sending : Bool := false
  due : Nat := 0
  deriving DecidableEq, Repr

/-! ### Links: link layer and scheduling (chapters 7, 8) -/

/-- A raw frame of the exerciser (Tables 20.9 and 20.10): its 256 bytes as written, the blocks sent as control blocks and
those sent with a bad sync header, and whether the check field goes out as written. -/
structure RawFrame where
  bytes : Bytes := []
  ctl : BitVec 32 := 1
  bad : BitVec 32 := 0
  chk : Bool := false
  deriving DecidableEq, Repr

/-- A frame in the retry buffer: its SEQ, its packets or the raw frame it is a copy of (R487), when it was last transmitted
(R164, R167) and the key epoch it was last sent under (R398). -/
structure RFrame where
  seq : BitVec 12
  pkts : List OutPkt
  raw : Option RawFrame := none
  at5 : Nat
  epoch : Option Nat := none
  deriving DecidableEq, Repr

/-- One of the 32 credit pools of a link (Table 7.16), with the cumulative counts of R173. -/
structure Pool where
  init : Bool := false
  dedFar : Nat := 0
  out : Nat := 0
  cumRx : BitVec 9 := 0
  occ : Nat := 0
  freed : BitVec 9 := 0
  reported : BitVec 9 := 0
  backlog : Nat := 0
  late : Nat := 0
  deriving DecidableEq, Repr

/-- Saturating counters of a link (Tables 7.13 to 7.15). -/
structure LLCounts where
  chkFail : BitVec 16 := 0
  seqDrop : BitVec 16 := 0
  nakRx : BitVec 16 := 0
  replays : BitVec 16 := 0
  frameMalf : BitVec 16 := 0
  ctlMalf : BitVec 16 := 0
  pktMalf : BitVec 16 := 0
  adapterRef : BitVec 16 := 0
  paceDrop : BitVec 32 := 0
  deriving DecidableEq, Repr

/-- The link layer of a link (R164 to R173). `replay` is the SEQ of the next frame to replay; `runFrom`, `runCount` the
consecutive replays from one SEQ; `arrived` the packets that have come; `stopped` a FATAL block in this session, after which no frame is accepted (R193);
`ackDue` an accepted frame not yet reported; `ses` counts the sessions of the
link, and `carry` the units still held from earlier ones (R170); `resumeWait` the time from which frames
may follow a curfew (R457). -/
structure LL where
  arrived : Nat := 0
  txSeq : BitVec 12 := 0
  acked : BitVec 12 := 4095
  rxSeq : BitVec 12 := 4095
  retry : List RFrame := []
  replay : Option (BitVec 12) := none
  runFrom : BitVec 12 := 0
  runCount : Nat := 0
  nakSent : Bool := false
  nakPend : Bool := false
  ackDue : Bool := false
  stopped : Bool := false
  farFatal : Bool := false
  pools : Tab Pool := []
  sharedFar : Nat := 0
  sharedLocal : Nat := 2560
  ses : Nat := 0
  carry : Nat := 0
  credInit : List Nat := []
  credInitAt : Nat := 0
  crRot : Nat := 0
  paceDue : Bool := false
  paceLocal : BitVec 6 := 0
  paceFar : BitVec 6 := 0
  fall : Nat := 0
  fallTo : BitVec 6 := 0
  resumeWait : Option Nat := none
  cnt : LLCounts := {}
  deriving DecidableEq, Repr

/-- The scheduling state of a link (R195 to R201): buckets by shaper, deficits, rotation positions, SCALE, CAP_NOW,
and the bytes sent on VC2, on VC6 and in OB_WRITE packets in the current interval and the 99 before it, newest
first. -/
structure Sch where
  g : Tab Nat := []
  p : Tab Nat := []
  vdef : Tab Nat := []
  sdef : Tab Nat := []
  rotG : Nat := 0
  rotV : Nat := 0
  rotS : Tab Nat := []
  visited : List Nat := []
  scale : Nat := 65536
  capNow : Nat := 0
  glost : Bool := false
  win2 : List Nat := []
  win6 : List Nat := []
  winOb : List Nat := []
  deriving DecidableEq, Repr

/-! ### Link keys (chapter 16) -/

/-- A receive key slot (R163, R399): the AES key (none: empty) and the counter expected next. -/
structure RxSlot where
  key : Bytes := []
  x : Nat := 0
  deriving DecidableEq, Repr

/-- The running key exchange of a link (R394, R395): `phase` 0 none, 1 OPEN sent, 2 EPH sent, 3 CONFIRM sent; the
payloads of both ends as sent and received, and this end's ephemeral private key. -/
structure Kex where
  phase : Nat := 0
  sid : BitVec 16 := 0
  rekey : Bool := false
  myOpen : Bytes := []
  farOpen : Bytes := []
  myEph : Bytes := []
  farEph : Bytes := []
  ephKey : Nat := 0
  session : Bytes := []
  confSent : Bool := false
  confOk : Bool := false
  deriving DecidableEq, Repr

/-- Keys and hostility of a link (chapter 16). `keyed`: keys are installed; `txOn`: this end protects its frames; `rxOn`:
a frame has verified under a key, so only tags are accepted (R396); `txChain`, `rxChain`: chain of the current epoch
of each direction; `txPend`, `rxPend`: the chain that replaces that of the next epoch after a rekey (R401). -/
structure LSec where
  mode : BitVec 2 := 0
  proven : Bool := false
  revoked : Bool := false
  hostile : BitVec 3 := 0
  keyed : Bool := false
  dir : Bool := false
  txOn : Bool := false
  rxOn : Bool := false
  txEpoch : Nat := 0
  rxEpoch : Nat := 0
  txChain : Bytes := []
  rxChain : Bytes := []
  txPend : Bytes := []
  rxPend : Bytes := []
  txKey : Bytes := []
  txCount : Nat := 0
  txFrames : Nat := 0
  txAcked : Bool := false
  advance : Bool := false
  cur : RxSlot := {}
  prev : RxSlot := {}
  next : RxSlot := {}
  prevAt : Nat := 0
  fails : List Nat := []
  epochs : BitVec 32 := 0
  kexFail : BitVec 16 := 0
  kex : Kex := {}
  sids : BitVec 16 := 0
  deriving DecidableEq, Repr

/-- A message being put together from ATTEST fragments (R393): what has come, TOTAL and MSG; and the number of a message that has
been discarded, whose other fragments are no message of their own. -/
structure Frag where
  got : Bytes := []
  total : Nat := 0
  no : BitVec 8 := 0
  bad : Option (BitVec 8) := none
  deriving DecidableEq, Repr

/-- SPDM messages over ATTEST on a link (R393): a request and a response being put together; of the fetch of the far chain,
whether it is under way, the responses so far and the number of the next message; and the far identity key once its
chain is accepted (R392). -/
structure Att where
  inReq : Frag := {}
  inRsp : Frag := {}
  asking : Bool := false
  got : List Bytes := []
  nextMsg : BitVec 8 := 0
  farKey : Option (Nat × Nat) := none
  deriving DecidableEq, Repr

/-- One link. `inbox` holds the packets of its receive buffer that wait for a consumer in this block, in arrival
order; `outq` its output queues, oldest first. -/
structure Link where
  train : Train := {}
  fec : Fec := {}
  guest : Guest := {}
  ll : LL := {}
  sch : Sch := {}
  sec : LSec := {}
  att : Att := {}
  inbox : List RxPkt := []
  outq : List OutPkt := []
  deriving DecidableEq, Repr

/-! ### Committed tables and the plan (chapters 5, 19) -/

/-- The tables in force, each by byte offset in its bank (Table 19.4): only words that differ from the reset contents
are listed. `schNext` is a scheduling table waiting for its interval boundary (R199); `pdig` the TBL_PDIG of each committed image,
by code (R468). -/
structure Tables where
  train : Tab Word := []
  route : Tab Word := []
  sched : Tab Word := []
  schNext : Option (Tab Word) := none
  inn : Tab Word := []
  smv : Tab Word := []
  fmt : Tab Word := []
  sip : Tab Word := []
  menu : Tab Word := []
  pdig : Tab (BitVec 384) := []
  deriving DecidableEq, Repr

/-- A link's plan entry (Table 5.16) as kept (R131). -/
structure PlanLink where
  farKind : BitVec 2
  farId : BitVec 11
  farPort : BitVec 7
  cls : BitVec 3
  fec : BitVec 2
  gradeMax : BitVec 2
  minWidth : BitVec 2
  enc : Bool
  lport : BitVec 5
  farDig : BitVec 384
  deriving DecidableEq, Repr

/-- The installed plan in force (R131). -/
structure Plan where
  valid : Bool := false
  chip : BitVec 11 := 0
  serial : BitVec 32 := 0
  rack : BitVec 16 := 0
  err : BitVec 4 := 0
  shape : BitVec 8 := 0
  dig : BitVec 384 := 0
  imgDig : BitVec 384 := 0
  ids : List (BitVec 2 × BitVec 11) := []
  links : List (Nat × PlanLink) := []
  deriving DecidableEq, Repr

/-- GBL_TCOMMIT_STAT and the commits under way (R470, R471): `image` is the table accepted and not yet in force; `queue` the
queue and number of the TCOMMIT that waits for the running commit; `waiting` those that have not started, in the order they
executed; `pend` GBL_TBL_PEND; `unc` the bank words that hold an uncorrectable error. -/
structure Commit where
  busy : Bool := false
  rej : Bool := false
  locked : Bool := false
  byInstr : Bool := false
  code : BitVec 8 := 0
  result : BitVec 4 := 0
  detail : BitVec 16 := 0
  image : Tab Word := []
  queue : Option (Nat × Nat) := none
  waiting : List (Nat × Nat × BitVec 8) := []
  pend : BitVec 10 := 0
  unc : List Nat := []
  deriving DecidableEq, Repr

/-! ### Partitions (Table 16.2) -/

/-- SEC_PART_CTL of a partition. -/
structure Part where
  valid : Bool := false
  bf : Bool := false
  tasteOk : Bool := false
  rej : Bool := false
  tag : BitVec 16 := 0
  deriving DecidableEq, Repr

/-- A scrub (Table 16.12): bytes zeroed and the ranges still to zero. -/
structure Scrub where
  busy : Bool := false
  done : Bool := false
  rej : Bool := false
  bytes : Nat := 0
  todo : List (Nat × Nat) := []
  deriving DecidableEq, Repr

/-- What the SPDM responder keeps for one requester: how far its negotiation has come, and the transcripts that signatures
cover, of the negotiation (`a`) and of digests and certificates (`b`). -/
structure SpdmConn where
  step : Nat := 0
  a : Bytes := []
  b : Bytes := []
  deriving DecidableEq, Repr

/-- The SPDM responder (R405, Table 16.14): requests in arrival order, each with its link (none: the mailbox), message
number and bytes; its requesters, the mailbox as 0 and link k as k + 1; the mailbox's status. -/
structure Spdm where
  conns : Tab SpdmConn := []
  queue : List (Option Nat × BitVec 8 × Bytes) := []
  done : Bool := false
  err : Bool := false
  rspLen : Nat := 0
  deriving DecidableEq, Repr

/-- What the security unit keeps beside partitions and links; `opLock` once a plan commit has been accepted (R412);
`rngFail` after a failed health test of the entropy source (Table 17.1, bit 48). -/
structure Sec where
  rngFail : Bool := false
  scrub : Scrub := {}
  spdm : Spdm := {}
  opLock : Bool := false
  deriving DecidableEq, Repr

/-! ### Fault collector (chapter 17) -/

/-- FC_FIRST with its time (R418). -/
structure FirstRec where
  valid : Bool := false
  ovf : Bool := false
  inj : Bool := false
  cls : BitVec 2 := 0
  source : BitVec 6 := 0
  time : Word := 0
  deriving DecidableEq, Repr

/-- The fault collector (Table 17.4). `pulse` is the time at which the running ERR_N pulse was started. -/
structure Fc where
  status : Word := 0
  first : FirstRec := {}
  lastStatus : Word := 0
  lastFirst : Word := 0
  lastTime : Word := 0
  safe : Bool := false
  pulse : Option Nat := none
  drive : Bool := false
  refused : BitVec 32 := 0
  count : BitVec 32 := 0
  log : Tab (List Word) := []
  deriving DecidableEq, Repr

/-! ### Observation (chapter 18) -/

/-- A trace record (Table 18.3), its SEQ given when it is accepted. `act` marks the TRIGGER record of a TRACE action
(R439); `tick` is the moment of capture, in 0.2 ns. -/
structure Rec where
  type_ : BitVec 6
  pv : Bool := false
  part : BitVec 4 := 0
  unit_ : BitVec 5 := 0
  inst : BitVec 16 := 0
  seq : BitVec 16 := 0
  aux : BitVec 16 := 0
  time : Word := 0
  pay : Bytes := []
  act : Bool := false
  tick : Nat := 0
  deriving DecidableEq, Repr

/-- The trace buffer (R437 to R440). `fifo` is the capture FIFO, oldest first; `buf` the on-chip records by index;
`held` the loss for the next DROP record; `count` the number of records held; `post` the records still to follow a
CENTRE trigger; `staged` the records, by index, whose spill write is not yet performed; `tallied` where a counter of the buffer's
own events has moved since the trigger units last looked. -/
structure Trace where
  recording : Bool := false
  triggered : Bool := false
  full : Bool := false
  oldest : Nat := 0
  next : Nat := 0
  trigIdx : Nat := 0
  held : Nat := 0
  count : Nat := 0
  post : Nat := 0
  seq : BitVec 16 := 0
  staged : List (Nat × List Word) := []
  fifo : List Rec := []
  buf : Tab (List Word) := []
  lost : Word := 0
  tallied : Bool := false
  deriving DecidableEq, Repr

/-- A trigger unit (OBS_TRIGk). -/
structure Trig where
  en : Bool := false
  fired : Bool := false
  kind : BitVec 4 := 6
  curfew : Bool := false
  trace : Bool := false
  index : BitVec 12 := 0
  value : Word := 0
  deriving DecidableEq, Repr

/-- A taste or export under way (R444 to R447). `at_` is the next data byte to read, `open_` the writes not yet
completed, `phase` 0 pending, 1 data, 2 header, 3 word 7. -/
structure Taste where
  id : Nat
  exp : Bool := false
  queue : Option (Nat × Nat) := none
  part : BitVec 4 := 0
  fmt : BitVec 4 := 0
  name : BitVec 32 := 0
  step : Word := 0
  shape : Word := 0
  lpa : Nat := 0
  len : Nat := 0
  snap : List Word := []
  entry : Option Nat := none
  base : Nat := 0
  seq : BitVec 32 := 0
  time : Word := 0
  phase : Nat := 0
  at_ : Nat := 0
  open_ : Nat := 0
  bad : Bool := false
  deriving DecidableEq, Repr

/-- Taste outcome counts (OBS_TASTE_CNT). -/
structure TasteCnt where
  done : BitVec 16 := 0
  noEntry : BitVec 8 := 0
  denied : BitVec 8 := 0
  busy : BitVec 8 := 0
  tooBig : BitVec 8 := 0
  aborted : BitVec 8 := 0
  rxRef : BitVec 8 := 0
  deriving DecidableEq, Repr

/-- The offset measurement (R449): the best sample so far and the exchange under way. -/
structure Ms where
  valid : Bool := false
  busy : Bool := false
  fail : Bool := false
  rej : Bool := false
  root : Bool := false
  delay : BitVec 32 := 0
  good : Nat := 0
  tries : Nat := 0
  best : Option (Int × Int) := none
  t1 : Int := 0
  asking : Bool := false
  waitAt : Nat := 0
  deriving DecidableEq, Repr

/-- Curfew (R452 to R457). `hold` is the hold list of writes: address, size, data; `late` the faults detected in curfew, with their
instances, whose reactions wait for the resume. -/
structure Curfew where
  on : Bool := false
  cause : BitVec 3 := 0
  link : BitVec 5 := 0
  origin : BitVec 11 := 0
  serial : BitVec 32 := 0
  time : Word := 0
  entries : BitVec 32 := 0
  holdLost : BitVec 16 := 0
  refused : BitVec 16 := 0
  hold : List (BitVec 26 × Bool × Word) := []
  late : List (Nat × Nat) := []
  deriving DecidableEq, Repr

/-- A scan-out read position (R459): section ID, instance, word within the section's header and body. -/
structure ScanPos where
  sect : Nat := 1
  inst : Nat := 0
  word : Nat := 0
  ended : Bool := false
  deriving DecidableEq, Repr

/-- The exerciser's injection (R486): BUSY and REJ, and the link, RAWSEQ, frame, copies left and GAP of the one in
progress; `first` until its first copy is sent. -/
structure Bench where
  busy : Bool := false
  rej : Bool := false
  link : Nat := 0
  rawSeq : Bool := false
  frame : RawFrame := {}
  left : Nat := 0
  gap : Nat := 0
  first : Bool := false
  deriving DecidableEq, Repr

/-- Observation (Table 18.10). -/
structure Obs where
  csel : Tab Word := []
  cnt : Tab Word := []
  view : Tab Word := []
  trace : Trace := {}
  trig : Tab Trig := []
  tastes : List Taste := []
  tasteId : Nat := 0
  tasteCnt : TasteCnt := {}
  tasteSeq : BitVec 32 := 0
  tasteNext : BitVec 29 := 0
  menuStat : Word := 0
  exportAt : Nat := 0
  watts : BitVec 8 := 0
  viewAt : Nat := 0
  powerAt : Nat := 0
  ms : Ms := {}
  curfew : Curfew := {}
  bench : Bench := {}
  scan : ScanPos := {}
  tap : ScanPos := {}
  tapIr : BitVec 4 := 15
  tapIdle : Bool := false
  tapDr : Word := 0
  tapBypass : Bool := false
  deriving DecidableEq, Repr

end Sys2Proof.Machine
end

