-- ==== Sys2Proof/Machine/DataExec.lean ====
section
/-! DEFINITION. The pieces of the block's state that run programs and place data: queues, stewards and sync objects
(chapter 11), and the Innkeeper (chapter 10). -/

namespace Sys2Proof.Machine

/-! ### Queues (Tables 11.1, 11.2) -/

/-- STATE of a queue (Table 11.2). -/
inductive QSt
  | unbound | idle | ready | active | waiting | halted | faulted
  deriving DecidableEq, Repr

/-- What a WAITING queue waits for: a sync object (R289), the held answer of an instruction that parks (R301), every
earlier request of its queue (FENCE, R236), or every earlier write and atomic of it (SIG and RSIG, R234). -/
inductive Park
  | none
  | sync (obj op : Nat) (value : Word)
  | answer
  | quiet
  | release
  | sending
  deriving DecidableEq, Repr

/-- An instruction that has executed and still has something to do: its number in the queue, its ring index and entry
count, its word, whether it has retired, the operand values captured when it executed, and how far a move has come
(R303). -/
structure Insn where
  seq : Nat
  pc : Nat
  cnt : BitVec 32
  word : BitVec 128
  retired : Bool := false
  dst : Word := 0
  src : Word := 0
  len : Nat := 0
  off : Nat := 0
  deriving DecidableEq, Repr

/-- A queue descriptor (Table 11.1) with what the block keeps for the queue. `cnt` is the entry count of PC in a FIFO
queue; `insns` the instructions not yet complete, in order; `answer` register writes held for a context that is not
resident (R301); `fresh` the registers a load takes in place of the save area (R273, R279); `since` orders the queues
by the time they began to wait; `halt` a HALT not yet carried out; `coll` the fault code of a group abort, taken at the
next boundary, with ring index and entry count of an accepted collective that failed (R341); `hold` the entry
count of the instruction at FAULT_PC, which stays unreleased while the queue is FAULTED (R295); `saved` the PC that the last
save wrote; `bad` a descriptor that QDESC_UNC struck and that is not written again yet (Table 17.1). -/
structure Queue where
  bind : Word := 0x0040000000000000
  ring : Word := 0
  save : Word := 0
  st : QSt := .unbound
  head : BitVec 32 := 0
  tail : BitVec 32 := 0
  cnt : BitVec 32 := 0
  pc : Nat := 0
  pend : Bool := false
  excess : Bool := false
  bindErr : BitVec 4 := 0
  code : BitVec 8 := 0
  info : BitVec 4 := 0
  ovf : Bool := false
  faultPc : BitVec 22 := 0
  dbRej : Bool := false
  park : Park := .none
  since : Nat := 0
  halt : Bool := false
  hold : Option (BitVec 32) := none
  insns : List Insn := []
  nextSeq : Nat := 0
  answer : List (Nat × Word) := []
  fresh : Option (List Word) := none
  coll : Option (Nat × Option (Nat × BitVec 32)) := none
  saved : Option Nat := none
  bad : Bool := false
  deriving DecidableEq, Repr

/-! ### Stewards (Table 11.4) -/

/-- One of the eight contexts of a steward: its queue, g0 to g15, and whether its load is still under way. -/
structure Ctx where
  queue : Nat
  regs : List Word
  loading : Bool := false
  deriving DecidableEq, Repr

/-- A steward: STW_CTL, contexts by number, the queue whose instruction it is running, the last queue served in each PRIO
class, the queue that yielded, its counters, and its instruction cache, most recently used line first. -/
structure Stw where
  ctl : Word := 0x8000000000000000
  ctxs : List (Nat × Ctx) := []
  cur : Option Nat := none
  rot : Tab Nat := []
  yielded : Option Nat := none
  retired : BitVec 32 := 0
  loads : BitVec 32 := 0
  cache : List (Nat × Nat × Bytes) := []
  deriving DecidableEq, Repr

/-- A sync object (Table 11.6) and its waiter list in order; `bad` one whose VALUE SYNC_UNC lost (Table 17.1). -/
structure Sync where
  value : Word := 0
  alloc : Bool := false
  part : BitVec 4 := 0
  rej : Bool := false
  waiters : List Nat := []
  bad : Bool := false
  deriving DecidableEq, Repr

/-! ### The Innkeeper (chapter 10) -/

/-- A lodging table entry (Table 10.4). KIND 1 DIR, 2 GUEST, 3 REPLICA, 4 NOTE; `key` is SEGMENT and PAGE; `frame` the
frame index; `until_` a NOTE's expiry or a DIR's hold end in milestone ns, of which AUX shows some bits; a DIR keeps in
`spad` the pool its page was last sent to, and in `rspad` the replica chips whose frame is in the scratchpad pool (log 34). -/
structure Lodge where
  kind : Nat := 0
  key : Nat := 0
  part : BitVec 4 := 0
  pin : Bool := false
  busy : Bool := false
  spad : Bool := false
  chip : BitVec 11 := 0
  repl : List (BitVec 11) := []
  rspad : List (BitVec 11) := []
  frame : BitVec 20 := 0
  until_ : Nat := 0
  deriving DecidableEq, Repr

/-- A candidate (R255): segment and page, accessor, estimate. -/
structure Cand where
  key : Nat
  acc : Nat
  est : Nat
  deriving DecidableEq, Repr

/-- Steps of a placement this chip leads (R260 to R262, R265). -/
inductive PlPhase
  | opening | copying | final | committing | dropping | directing | cancelling
  deriving DecidableEq, Repr

/-- A placement led by this chip: the page, its placement word, the pass and the next byte of the first pass, the lines
still to send, the dirty map as a list of lines, and when a PL_DIR was last sent with how often it was refused; `base` is where
the page lies while it is copied, `frame` the frame opened here for a move to the other pool of this chip (R249). -/
structure Placement where
  id : Nat
  key : Nat
  word : Word
  phase : PlPhase := .opening
  repl : Bool := false
  pass : Nat := 0
  off : Nat := 0
  todo : List Nat := []
  dirty : List Nat := []
  out : Nat := 0
  tries : Nat := 0
  retryAt : Option Nat := none
  base : Nat := 0
  frame : Option (Bool × Nat) := none
  deriving DecidableEq, Repr

/-- Counters INN_CNT0 to INN_CNT2. -/
structure InnCnt where
  migrated : BitVec 32 := 0
  replicated : BitVec 32 := 0
  abandoned : BitVec 32 := 0
  refused : BitVec 32 := 0
  hintDrop : BitVec 32 := 0
  repaired : BitVec 32 := 0
  deriving DecidableEq, Repr

/-- INN_CTL at reset (Table 10.11). -/
def innCtlReset : Word := 0x4004041000100100

/-- The Innkeeper. `ctl` is INN_CTL in force for the present epoch; `lodge` is keyed 8 x set + way; `grants` counts granted
replications by page (R256); `stat` is INN_COMMIT_STAT, `epoch` the
millisecond of the last epoch taken. -/
structure Inn where
  ctl : Word := innCtlReset
  lodge : Tab Lodge := []
  count : Nat := 0
  skA : Tab Nat := []
  skT : Tab Nat := []
  cands : List Cand := []
  grants : Tab Nat := []
  placements : List Placement := []
  cnt : InnCnt := {}
  epoch : Nat := 0
  stat : Word := 0
  deriving DecidableEq, Repr

/-! ### Samovar (chapter 13) -/

/-- STATE of a group (Table 13.8). -/
inductive GSt
  | idle | waiting | running | parking | parked
  deriving DecidableEq, Repr

/-- What one sender has contributed to a chunk: bytes received, BYTES of its CL_DONE, whether that failed R333, and whether
the contribution is complete. -/
structure Contrib where
  bytes : Nat := 0
  done : Option Nat := none
  mismatch : Bool := false
  complete : Bool := false
  deriving DecidableEq, Repr

/-- A chunk this member has begun, with its open staging slots: number, index in the instruction, fallback area, header
STATE of the board and the rack slot, contributions by sender's column and by step less 1, sends by column and by step (1
under way, 2 sent), the stage of P (0 none, 1 being summed, 2 being written, 3 in place), ring additions done or under
way, staging writes under way, and destination pieces and parts (1 under way, 2 performed). -/
structure SChunk where
  num : Nat
  idx : Nat
  alt : Bool := false
  bst : Nat := 0
  rst : Nat := 0
  brd : Tab Contrib := []
  ring : Tab Contrib := []
  sentB : Tab Nat := []
  sentR : Tab Nat := []
  pst : Nat := 0
  added : List Nat := []
  wr : Nat := 0
  placed : Tab Nat := []
  deriving DecidableEq, Repr

/-- An RSC or AGT: its queue and number there, operands, and from its start the format entry (R360), the scale digest
(R359), its chunks in all, the next to begin and those finished. -/
structure Coll where
  queue : Nat
  seq : Nat
  pc : Nat := 0
  cnt : BitVec 32 := 0
  agt : Bool
  fmt : Nat
  sgn : Bool
  src : Nat
  dst : Nat
  count : Nat
  obj : Nat
  priv : Bool
  started : Bool := false
  desc : Word := 0
  dig : BitVec 16 := 0
  chunks : Nat := 0
  next : Nat := 0
  done : Nat := 0
  deriving DecidableEq, Repr

/-- An up packet that has arrived from a child: opcode, control word, SEQ and data. -/
structure SipArr where
  op : BitVec 8
  ctl : Word
  seq : Nat
  data : Bytes
  deriving DecidableEq, Repr

/-- The sip operation in progress of a group at this member (R368): opcode, control word, SEQ, the data so far, whether this
member's own contribution is taken, whether the up packet has gone; for SCALE the tensor, its count, the present scale and
the format entry, and the common scale once it is known. -/
structure SipOp where
  op : BitVec 8
  ctl : Word
  seq : Nat
  data : Bytes
  own : Bool
  sent : Bool := false
  queue : Nat
  insn : Nat
  base : Nat := 0
  count : Nat := 0
  scale : BitVec 32 := 0
  desc : Word := 0
  common : Option (BitVec 32) := none
  deriving DecidableEq, Repr

/-- A collective group (Tables 13.8 and 15.7): `next` is the next chunk number, `insns` the accepted instructions, `wait`
an RSC or AGT that parks until it is accepted (R329), `since` the order in which groups began to wait, `readys` the READYs
received (level, column, chunk), `out` packets for the Porter with `deficit` (R336), `limit` the stall deadline on the
core's clock; `sipSeq`, `sipOp`, `arr` the sip operations with arrivals by child, `relayGen` a relay's GEN (R366), `relayUp` the SEQ of the operation whose up packet a relay has sent and whose
down packet it has not passed on yet. -/
structure Grp where
  st : GSt := .idle
  gen : BitVec 4 := 0
  cause : BitVec 4 := 0
  next : Nat := 0
  scale : BitVec 32 := 0x3F800000
  myRow : Nat := 0
  myCol : Nat := 0
  otDig : BitVec 16 := 0
  chunks : BitVec 32 := 0
  aborts : BitVec 16 := 0
  insns : List Coll := []
  wait : Option Coll := none
  since : Nat := 0
  slots : List SChunk := []
  readys : List (Nat × Nat × Nat) := []
  out : Tab (List Pkt) := []
  deficit : Tab Nat := []
  limit : Option Nat := none
  sipSeq : Nat := 0
  sipOp : Option SipOp := none
  arr : Tab SipArr := []
  relayGen : BitVec 4 := 0
  relayUp : Option Nat := none
  deriving DecidableEq, Repr

/-- SMV_DROP, SMV_SIP_DROP and the commit statuses (Tables 13.8, 15.7); `rot` is the group served last at each logical port, `adder` the
one whose sum took the adders last (R336). -/
structure SmvStat where
  noGroup : BitVec 16 := 0
  genOld : BitVec 16 := 0
  role : BitVec 16 := 0
  noSlot : BitVec 16 := 0
  sipNotMine : BitVec 16 := 0
  sipNoTree : BitVec 16 := 0
  sipGenOld : BitVec 16 := 0
  sipRole : BitVec 16 := 0
  commit : Word := 0
  sipCommit : Word := 0
  rot : Tab Nat := []
  adder : Nat := 0
  deriving DecidableEq, Repr

end Sys2Proof.Machine
end

