-- ==== Sys2Proof/Machine/State.lean ====
section
/-! DEFINITION. The whole state of the block, the reasons a step can stop, and the state right after reset. -/

namespace Sys2Proof.Machine

/-- No command of the block ends the machine: a fault of the block is a bit of FC_STATUS and a reaction in State
(R416, R421), so no constructor is needed here. -/
inductive Fault
  deriving DecidableEq, Repr

/-- Why a step has no meaning. -/
inductive Refusal
  /-- Raised by the dispatch for a command the model gives no meaning yet, by its mnemonic. Safe: nothing follows. -/
  | notModelled (mnemonic : String)
  deriving DecidableEq, Repr

/-- The fuse shadow (R57, R391): passport class (true for bench), test fuse, serial, private key, manufacture date and the
product CA's signature over the certificate. -/
structure Fuses where
  bench : Bool
  test : Bool
  serial : BitVec 128
  key : BitVec 384
  made : BitVec 32
  caSig : BitVec 768
  deriving DecidableEq, Repr

/-- Saturating 16-bit counters of PTR_UNDELIV and PTR_ONWARD (Tables 7.18, 9.2). -/
structure PtrCnt where
  noRoute : BitVec 16 := 0
  hopLimit : BitVec 16 := 0
  upUp : BitVec 16 := 0
  behind : BitVec 16 := 0
  sent : BitVec 16 := 0
  stale : BitVec 16 := 0
  full : BitVec 16 := 0
  hop : BitVec 16 := 0
  deriving DecidableEq, Repr

/-- A toll gate (R205, Table 8.7): buckets in bytes and counters. -/
structure Gate where
  tc : Nat := 0
  tp : Nat := 0
  yellow : BitVec 32 := 0
  red : BitVec 32 := 0
  deriving DecidableEq, Repr

/-- The state of the block. -/
structure State where
  /-- Commands waiting, first in first out. -/
  pending : List Instr := []
  /-- The model's own record of what the block has driven outwards. -/
  sent : List Emit := []
  /-- The model's own counter of free values used. -/
  freeCtr : Nat := 0
  clk : Clock := {}
  boot : Boot := {}
  fuses : Fuses
  pins : Pins := {}
  /-- Plain registers and shadow banks of the management window, by byte address of the 8-byte word. -/
  win : Tab Word := []
  xings : Tab Xing := []
  eports : Tab EPort := []
  /-- Credits held on the channels of M-, N- and S-ports, keyed 4 x port + channel. -/
  cpCrd : Tab Nat := []
  /-- Credits the carrier holds on the RD or RSP and the WACK channel of M-, S- and N-ports, keyed 2 x port + channel. -/
  cpRx : Tab Nat := []
  cpq : List Acc := []
  cpOut : List Acc := []
  jobs : List Job := []
  nextId : Nat := 0
  mgCrd : Nat := 0
  /-- Credits the carrier holds on the management port's CMD channel. -/
  mgCmd : Nat := 16
  mgQ : List (Word × BitVec 2) := []
  lanes : Tab Lane := []
  links : Tab Link := []
  /-- The block streams of the links, between the link layer and the lanes. -/
  lines : Tab Line := []
  /-- Packets of the block to itself (R215). -/
  own : List Pkt := []
  /-- Packets of this block's own that wait for the end of a brown-out hold (R85). -/
  admitQ : List Pkt := []
  tables : Tables := {}
  plan : Plan := {}
  commit : Commit := {}
  /-- SEC_PART_CTL by partition; P0 is always listed, since its VALID and BF are 1 (Table 16.2). -/
  parts : Tab Part := [(0, { valid := true, bf := true })]
  flows : Tab Flow := []
  flowsIn : Tab FlowIn := []
  reqs : List Req := []
  caches : Tab (List Loc) := []
  onward : List (Nat × Onward) := []
  ptr : PtrCnt := {}
  gates : Tab Gate := []
  /-- The 1 us interval of milestone time in which the shapers and toll gates were last refilled. -/
  schedUs : Nat := 0
  schStat : Word := 0
  queues : Tab Queue := []
  stws : Tab Stw := []
  syncs : Tab Sync := []
  inn : Inn := {}
  groups : Tab Grp := []
  smv : SmvStat := {}
  /-- The link chosen for each tree neighbour (R364); 24 is none. -/
  sipLinks : Tab Nat := []
  /-- GBL_FMT_STAT and GBL_FMT_FLAGS (Table 14.5). -/
  fmtStat : Word := 0
  fmtFlags : Word := 0
  sec : Sec := {}
  fc : Fc := {}
  obs : Obs := {}
  deriving DecidableEq, Repr

/-- The state right after a cold reset. -/
def State.reset : State where
  fuses :=
    { bench := Config.benchClass, test := Config.testFuse, serial := Config.serial, key := Config.identityKey
      made := Config.made, caSig := Config.caSignature }

end Sys2Proof.Machine
end

