-- ==== Sys2Proof/Machine/Defaults.lean ====
section
/-! DEFINITION. Reset contents: of the plain registers, of the committed tables and so of their shadow banks (R469),
and the shipped default training table (R126). -/

namespace Sys2Proof.Machine

/-- A row of Table 5.7: NEXT, TMO_NEXT, STATE, COND, ACTION, ARG, TMO_UNIT, TMO_COUNT, ALT. -/
structure TrainRow where
  next : Nat
  tmoNext : Nat
  state : Nat
  cond : Nat
  action : Nat
  arg : Nat
  unit_ : Nat
  count : Nat
  alt : Bool
  deriving DecidableEq, Repr

/-- The row's 64 bits (Table 5.2). -/
def rowWord (r : TrainRow) : Word :=
  BitVec.ofNat 64 (r.next <<< 56 ||| r.tmoNext <<< 48 ||| r.state <<< 44 ||| r.cond <<< 38 ||| r.action <<< 32 |||
    r.arg <<< 16 ||| r.unit_ <<< 14 ||| r.count <<< 4 ||| b2n r.alt <<< 3)

/-- Rows 0 to 18 of Table 5.7. -/
def trainDefault0 : List TrainRow :=
  [ ⟨1, 0, 1, 0, 1, 0x1, 0, 0, false⟩
  , ⟨2, 67, 1, 1, 0, 0x0, 3, 20, false⟩
  , ⟨3, 0, 1, 0, 2, 0x1FC0, 0, 0, false⟩
  , ⟨5, 62, 1, 2, 0, 0x0, 3, 2, false⟩
  , ⟨62, 0, 0, 3, 0, 0x0, 0, 0, true⟩
  , ⟨8, 62, 1, 4, 0, 0x0, 3, 1, false⟩
  , ⟨2, 0, 0, 5, 3, 0x0, 0, 0, true⟩
  , ⟨69, 0, 0, 6, 11, 0x2, 0, 0, true⟩
  , ⟨9, 0, 1, 0, 1, 0x2, 0, 0, false⟩
  , ⟨10, 62, 1, 7, 0, 0x0, 3, 1, false⟩
  , ⟨12, 0, 1, 9, 4, 0x0, 0, 0, false⟩
  , ⟨69, 0, 0, 0, 11, 0x3, 0, 0, true⟩
  , ⟨14, 0, 1, 10, 5, 0x101, 0, 0, false⟩
  , ⟨30, 0, 0, 0, 0, 0x0, 0, 0, true⟩
  , ⟨15, 62, 1, 11, 2, 0x1FC0, 3, 15, false⟩
  , ⟨17, 62, 1, 2, 1, 0x3, 3, 2, false⟩
  , ⟨62, 0, 0, 3, 0, 0x0, 0, 0, true⟩
  , ⟨18, 62, 1, 7, 0, 0x0, 3, 1, false⟩
  , ⟨20, 0, 1, 10, 5, 0x202, 0, 0, false⟩ ]

/-- Rows 19 to 37 of Table 5.7. -/
def trainDefault1 : List TrainRow :=
  [ ⟨30, 0, 0, 0, 0, 0x0, 0, 0, true⟩
  , ⟨21, 62, 1, 11, 2, 0x1FC0, 3, 15, false⟩
  , ⟨23, 62, 1, 2, 1, 0x4, 3, 2, false⟩
  , ⟨62, 0, 0, 3, 0, 0x0, 0, 0, true⟩
  , ⟨24, 62, 1, 7, 0, 0x0, 3, 1, false⟩
  , ⟨26, 0, 1, 10, 5, 0x303, 0, 0, false⟩
  , ⟨30, 0, 0, 0, 0, 0x0, 0, 0, true⟩
  , ⟨27, 62, 1, 11, 2, 0x1FC0, 3, 20, false⟩
  , ⟨29, 62, 1, 2, 1, 0x5, 3, 2, false⟩
  , ⟨62, 0, 0, 3, 0, 0x0, 0, 0, true⟩
  , ⟨30, 62, 1, 7, 0, 0x0, 3, 1, false⟩
  , ⟨31, 0, 1, 0, 2, 0x1FE0, 0, 0, false⟩
  , ⟨33, 62, 1, 2, 8, 0x0, 3, 150, false⟩
  , ⟨62, 0, 0, 3, 0, 0x0, 0, 0, true⟩
  , ⟨35, 62, 1, 12, 1, 0x6, 3, 20, false⟩
  , ⟨64, 0, 0, 13, 0, 0x0, 0, 0, true⟩
  , ⟨36, 62, 1, 7, 9, 0x0, 3, 200, false⟩
  , ⟨38, 67, 3, 15, 0, 0x0, 3, 10, false⟩
  , ⟨44, 0, 0, 16, 0, 0x0, 0, 0, true⟩ ]

/-- Rows 38 to 56 of Table 5.7. -/
def trainDefault2 : List TrainRow :=
  [ ⟨39, 0, 4, 0, 7, 0x0, 0, 0, false⟩
  , ⟨53, 0, 4, 17, 0, 0x0, 0, 0, false⟩
  , ⟨55, 0, 0, 18, 0, 0x0, 0, 0, true⟩
  , ⟨55, 0, 0, 20, 0, 0x0, 0, 0, true⟩
  , ⟨49, 0, 0, 19, 0, 0x0, 0, 0, true⟩
  , ⟨73, 0, 0, 21, 0, 0x0, 0, 0, true⟩
  , ⟨38, 0, 5, 22, 0, 0x0, 0, 0, false⟩
  , ⟨53, 0, 0, 17, 0, 0x0, 0, 0, true⟩
  , ⟨55, 0, 0, 18, 0, 0x0, 0, 0, true⟩
  , ⟨55, 0, 0, 20, 0, 0x0, 0, 0, true⟩
  , ⟨49, 0, 0, 19, 0, 0x0, 0, 0, true⟩
  , ⟨53, 0, 1, 8, 0, 0x2000, 0, 0, false⟩
  , ⟨55, 0, 0, 8, 0, 0x3000, 0, 0, true⟩
  , ⟨73, 0, 0, 8, 0, 0x7E00, 0, 0, true⟩
  , ⟨0, 0, 0, 0, 0, 0x0, 0, 0, true⟩
  , ⟨54, 0, 1, 0, 1, 0x20, 0, 0, false⟩
  , ⟨70, 55, 1, 7, 0, 0x0, 2, 1, false⟩
  , ⟨56, 0, 1, 0, 1, 0x30, 0, 0, false⟩
  , ⟨57, 62, 1, 1, 0, 0x0, 1, 5, false⟩ ]

/-- Rows 57 to 75 of Table 5.7. -/
def trainDefault3 : List TrainRow :=
  [ ⟨58, 0, 1, 0, 2, 0x1FC0, 0, 0, false⟩
  , ⟨60, 62, 1, 2, 0, 0x0, 2, 1, false⟩
  , ⟨62, 0, 0, 3, 0, 0x0, 0, 0, true⟩
  , ⟨61, 62, 1, 4, 0, 0x0, 1, 2, false⟩
  , ⟨70, 62, 1, 7, 0, 0x0, 1, 2, false⟩
  , ⟨0, 0, 1, 14, 6, 0x300, 0, 0, false⟩
  , ⟨69, 0, 0, 0, 11, 0x1, 0, 0, true⟩
  , ⟨30, 0, 1, 14, 6, 0x100, 0, 0, false⟩
  , ⟨0, 0, 0, 10, 10, 0x302, 0, 0, true⟩
  , ⟨69, 0, 0, 0, 11, 0x4, 0, 0, true⟩
  , ⟨68, 0, 6, 0, 1, 0x1, 0, 0, false⟩
  , ⟨0, 0, 6, 1, 0, 0x0, 0, 0, false⟩
  , ⟨0, 0, 7, 20, 0, 0x0, 0, 0, false⟩
  , ⟨72, 0, 1, 9, 4, 0x0, 0, 0, false⟩
  , ⟨69, 0, 0, 0, 11, 0x3, 0, 0, true⟩
  , ⟨36, 0, 1, 0, 9, 0x0, 0, 0, false⟩
  , ⟨74, 0, 1, 0, 1, 0x7E, 0, 0, false⟩
  , ⟨75, 62, 1, 7, 0, 0x0, 3, 1, false⟩
  , ⟨0, 0, 2, 20, 0, 0x0, 0, 0, false⟩ ]

/-- The shipped default table (R126): rows 76 to 255 are zero. DESIGN CHOICE (log 12): a timeout is coded in the
largest unit that divides it, and an ALT row's STATE, TMO_NEXT and TMO fields, which R118 ignores, are zero. -/
def trainDefault : List TrainRow := trainDefault0 ++ trainDefault1 ++ trainDefault2 ++ trainDefault3

/-- Row `r` of the reset contents of the training table. -/
def trainReset (r : Nat) : Word :=
  match trainDefault[r]? with
  | some w => rowWord w
  | none => 0

/-! ### Scheduling table (Tables 8.3, 8.5, 8.7) -/

/-- SCH_VCW at reset: VC6_CAP_PCT 10 and weights 4, 1, 4, 2, 4 for VC7 down to VC3. -/
def schVcwReset : Word := 0x0A0401040204

/-- SCH_SHP word 0 of shaper `i` at reset: EN for slots 0 and 16, WEIGHT 1, MAX_RATE 131,071, MIN_RATE 0. -/
def schShp0Reset (i : Nat) : Word :=
  BitVec.ofNat 64 ((if i / 5 = 0 ∨ i / 5 = 16 then 1 <<< 63 else 0) ||| 1 <<< 48 ||| 131071 <<< 24)

/-- The word at byte offset `o` of the scheduling table at reset. -/
def schedReset (o : Nat) : Word :=
  if o / 0x4000 < 24 then
    let k := o % 0x4000
    if k = 0 then schVcwReset
    else if 0x100 ≤ k ∧ k < 0x100 + 16 * 85 then
      (if k % 16 = 0 then schShp0Reset ((k - 0x100) / 16) else if k % 16 = 8 then 256 else 0)
    else 0
  else 0

/-! ### Samovar table (R321) -/

/-- The word at byte offset `o` of the Samovar table at reset: CHUNK_256K 8 and WEIGHT 1 in word 0 of every
descriptor. -/
def smvReset (o : Nat) : Word := if o < 0x8000 ∧ o % 64 = 0 then 0x2040000 else 0

/-! ### Innkeeper table (Tables 10.5, 10.6) -/

/-- MCURVE[1][0] to MCURVE[2][16] at reset. -/
def mcurveReset : List Nat :=
  List.replicate 9 0xFFFF ++ [1024, 1024, 512, 512, 256, 256, 192, 192] ++
    List.replicate 9 0xFFFF ++ [384, 384, 192, 192, 96, 96, 64, 64]

/-- The word at byte offset `o` of the Innkeeper table at reset: the default curves. -/
def innReset (o : Nat) : Word :=
  if 0x100 ≤ o ∧ o < 0x148 then
    let i := (o - 0x100) / 2
    BitVec.ofNat 64 (mcurveReset.getD i 0 + mcurveReset.getD (i + 1) 0 <<< 16 + mcurveReset.getD (i + 2) 0 <<< 32 +
      mcurveReset.getD (i + 3) 0 <<< 48)
  else if o = 0x200 then 0x0100008000400020
  else 0

/-! ### Format table (Table 14.4) -/

/-- The word at byte offset `o` of the format table at reset. -/
def fmtReset (o : Nat) : Word :=
  match o with
  | 0 => 0xB008BBF800000000
  | 16 => 0xA0083BF800000000
  | 32 => 0xA005507800000000
  | 48 => 0x9404183800000000
  | 64 => 0x9005107800000000
  | 80 => 0x8902080800000000
  | 128 => 0xF000000000000000
  | 144 => 0xE000000000000000
  | 160 => 0xD000000000000000
  | _ => 0

/-! ### Banks (Table 19.4) -/

/-- Base of the shadow bank of a table code. -/
def bankBase : Nat → Nat
  | 1 => 0x0C00000
  | 2 => 0x0C80000
  | 3 => 0x0D80000
  | 4 => 0x0E00000
  | 5 => 0x0F00000
  | 6 => 0x0E80000
  | 7 => 0x0FC0000
  | 8 => 0x0F80000
  | 9 => 0x0C40000
  | _ => 0

/-- Extent of the shadow bank of a table code. -/
def bankExtent : Nat → Nat
  | 1 => 0x10000
  | 2 => 0x100000
  | 3 => 0x80000
  | 4 => 0x80000
  | 5 => 0x80000
  | 6 => 0x80000
  | 7 => 0x10000
  | 8 => 0x40000
  | 9 => 0x10000
  | _ => 0

/-- The code of the bank that holds address `a`, 0 for none. -/
def bankOf (a : Nat) : Nat :=
  ((List.range 10).find? fun c => decide (bankBase c ≤ a ∧ a < bankBase c + bankExtent c)).getD 0

/-- The word at byte offset `o` of a table at reset. -/
def tableReset (code o : Nat) : Word :=
  match code with
  | 1 => if o < 0x800 then trainReset (o / 8) else 0
  | 4 => schedReset o
  | 5 => innReset o
  | 6 => smvReset o
  | 7 => fmtReset o
  | _ => 0

/-- The reset value of the plain register or bank word at window address `a` (R469 and the owning chapters). -/
def winReset (a : Nat) : Word :=
  if 0x0C00000 ≤ a ∧ a < 0x1000000 then
    let c := bankOf a
    tableReset c (a - bankBase c)
  else if 0x100000 ≤ a ∧ a < 0x1C0000 then
    if a % 0x8000 = 0x400 then 0x500000007D0 else 0
  else match a with
  | 0x118 => 0x7D0000003E8
  | 0x30048 => 24
  | 0x30058 => 0x1680000000000000
  | 0x31008 => 0x8002000020100000
  | 0x780000 => 50
  | 0x800000 => innCtlReset
  | 0x10038 => 1000
  | 0x20000 => 2
  | 0x20010 => 0x00C8000300000000
  | 0x20048 => 100
  | 0x20108 => 16
  | 0x24000 => 1
  | _ => 0

end Sys2Proof.Machine
end

