-- ==== Sys2Proof/Machine/Bytes.lean ====
section
/-! DEFINITION. Words made of fields, byte strings (R4: little-endian), and the control blocks of the lanes as words with their
CHECK (R159). -/

namespace Sys2Proof.Machine

/-- A word made of fields, each `(lo, width, value)`. -/
def fields (l : List (Nat × Nat × Nat)) : Word :=
  l.foldl (fun w f => w ||| BitVec.ofNat 64 ((f.2.2 % 2 ^ f.2.1) <<< f.1)) 0

/-! ### Byte strings (R4: little-endian) -/

/-- The number a byte string spells, byte 0 lowest. -/
def leNat : Bytes → Nat
  | [] => 0
  | b :: t => b.toNat + 256 * leNat t

/-- `n` bytes of a number, lowest first. -/
def leBytes : Nat → Nat → Bytes
  | 0, _ => []
  | n + 1, v => BitVec.ofNat 8 v :: leBytes n (v / 256)

/-- `n` bytes of a number, highest first. -/
def beBytes (n v : Nat) : Bytes := (leBytes n v).reverse
/-- The number a byte string spells, byte 0 highest. -/
def beNat (b : Bytes) : Nat := leNat b.reverse

/-- `n` zero bytes. -/
def zeros (n : Nat) : Bytes := List.replicate n 0

/-- Bytes `[o, o + n)` of a string, zero where it ends. -/
def slice (b : Bytes) (o n : Nat) : Bytes :=
  let t := (b.drop o).take n
  t ++ zeros (n - t.length)

/-- The 8-byte word at byte `o`. -/
def word64 (b : Bytes) (o : Nat) : Word := BitVec.ofNat 64 (leNat (slice b o 8))

/-- The bytes of a list of words. -/
def wordsBytes (l : List Word) : Bytes := l.flatMap fun w => leBytes 8 w.toNat

/-- A byte string cut into words, the last one padded with zeros. -/
def bytesWords (b : Bytes) : List Word := (List.range ((b.length + 7) / 8)).map fun i => word64 b (8 * i)

/-- `b` padded with zeros to a multiple of `n`. -/
def padTo (n : Nat) (b : Bytes) : Bytes := b ++ zeros ((n - b.length % n) % n)

/-- A string with bytes from `o` on replaced by `d`. -/
def overlay (b : Bytes) (o : Nat) (d : Bytes) : Bytes := b.take o ++ d ++ b.drop (o + d.length)

/-! ### Control blocks (R159) -/

/-- Bits `[55:0]` with the CRC-8 of Table 5.5 above them: polynomial x^8 + x^2 + x + 1, initial value zero, bit 55
first. -/
def crc8Go : Nat → Nat → BitVec 8 → BitVec 64 → BitVec 8
  | 0, _, c, _ => c
  | n + 1, i, c, w =>
    let top := c.getLsbD 7 != w.getLsbD i
    let c := c <<< 1
    crc8Go n (i - 1) (if top then c ^^^ 0x07 else c) w

/-- The CHECK of a standalone control block (R159). -/
def crc8 (w : BitVec 64) : BitVec 8 := crc8Go 56 55 0 w

/-- A control block with its CHECK. -/
def sealBlock (w : BitVec 64) : BitVec 64 := ((crc8 w).zeroExtend 64 <<< 56) ||| (w &&& 0x00FFFFFFFFFFFFFF)

/-- An IDLE block. -/
def idleBlock : BitVec 64 := sealBlock (fields [(0, 8, 0x1E)])

end Sys2Proof.Machine
end

