-- ==== Sys2Proof/Machine/LineCode.lean ====
section
/-! DEFINITION. The line coding of the lanes: the levels of bits (R90), 64b/66b blocks and the scrambler (R92), striping (R93), the F1
light code (R99) and the F2 Reed-Solomon code (R100). Bits stand in lists in transmission order. -/

namespace Sys2Proof.Machine

/-! ### Levels (R90) -/

/-- The level of a pair of bits under PAM4, the first bit the more significant. -/
def pamLevel (a b : Bool) : BitVec 2 :=
  match a, b with
  | false, false => 0
  | false, true => 1
  | true, true => 2
  | true, false => 3

/-- The levels of bits taken in pairs. -/
def pamLevels : List Bool → List Level
  | a :: b :: t => .pam (pamLevel a b) :: pamLevels t
  | _ => []

/-- The levels of a lane's bits: NRZ at G1, PAM4 at the other grades (Table 4.2). -/
def levels (grade : BitVec 2) (l : List Bool) : List Level := if grade = 0 then l.map .nrz else pamLevels l

/-- A level of the other polarity (R107). -/
def Level.turned : Level → Level
  | .nrz h => .nrz !h
  | .pam l => .pam (3 - l)

/-! ### 64b/66b (R92) -/

/-- The scrambler, from the last 58 bits it sent: each bit sent is the sum of the bit given and of those sent 39 and 58 bits
earlier. -/
def scramble : BitVec 58 → List Bool → List Bool × BitVec 58
  | s, [] => ([], s)
  | s, d :: t =>
    let o := d ^^ s.getLsbD 38 ^^ s.getLsbD 57
    let r := scramble ((s <<< 1) ||| BitVec.ofNat 58 (b2n o)) t
    (o :: r.1, r.2)

/-- The descrambler, from the last 58 bits received. -/
def descramble : BitVec 58 → List Bool → List Bool × BitVec 58
  | s, [] => ([], s)
  | s, o :: t =>
    let r := descramble ((s <<< 1) ||| BitVec.ofNat 58 (b2n o)) t
    ((o ^^ s.getLsbD 38 ^^ s.getLsbD 57) :: r.1, r.2)

/-- The bits of a word, least significant first, and the number bits spell so. -/
def bitList {w : Nat} (x : BitVec w) : List Bool := (List.range w).map x.getLsbD
def bitNat : List Bool → Nat
  | [] => 0
  | b :: t => b2n b + 2 * bitNat t

/-- The sync header of a data block, of a control block, and a valid one. -/
def headData : BitVec 2 := 1
def headControl : BitVec 2 := 2
def headOk (h : BitVec 2) : Bool := decide (h = headData ∨ h = headControl)

/-- The blocks of what a link sends: headers and payloads (R157; BADSYNC and CTLMASK of a raw frame, Table 20.9). -/
def Emit.blocks : Emit → Option (Nat × List (BitVec 2 × Word))
  | .control k w => some (k, [(headControl, w)])
  | .frame k b => some (k, (List.range 32).map fun i => (if i = 0 then headControl else headData, word64 b (8 * i)))
  | .rawFrame k b ctl bad =>
    some (k, (List.range 32).map fun i =>
      (if bit bad i then 0 else if bit ctl i then headControl else headData, word64 b (8 * i)))
  | .idle k n => some (k, List.replicate n (headControl, idleBlock))
  | _ => none

/-! ### Striping (R93) -/

/-- The lanes of a link's set in ascending order: the one of rank `r` at place `r`. -/
def laneRanks (set : BitVec 4) : List Nat := (List.range 4).filter fun j => bit set j

/-- The lane of block, or of F2 symbol, `n` of a link's stream. -/
def stripeLane (ranks : List Nat) (n : Nat) : Nat := ranks.getD (n % ranks.length) 0

/-- A lane of a line, and a change of it. -/
def Line.lane (l : Line) (j : Nat) : LaneCode := l.lanes.get {} j
def Line.modLane (l : Line) (j : Nat) (f : LaneCode → LaneCode) : Line := { l with lanes := l.lanes.put {} j (f (l.lane j)) }

/-- Bits go onto the wire of a lane (R90), in its polarity. -/
def Line.drive (l : Line) (lane : Lane) (j : Nat) (b : List Bool) : Line :=
  l.modLane j fun c => { c with wire := c.wire ++ (levels lane.grade b).map fun x => if lane.txPol then x.turned else x }

/-- A block is coded on a lane (R92): its 66 bits, sync header first. -/
def Line.code (l : Line) (j : Nat) (head : BitVec 2) (w : Word) : List Bool × Line :=
  let r := scramble (l.lane j).tx (bitList w)
  (bitList head ++ r.1, l.modLane j fun c => { c with tx := r.2 })

/-- 66 received bits are a block of a lane. -/
def Line.uncode (l : Line) (j : Nat) (b : List Bool) : (BitVec 2 × Word) × Line :=
  let r := descramble (l.lane j).rx (b.drop 2)
  ((BitVec.ofNat 2 (bitNat (b.take 2)), BitVec.ofNat 64 (bitNat r.1)), l.modLane j fun c => { c with rx := r.2 })

/-! ### F1 (R99) -/

/-- g(x) = (x^41 + 1)(x^23 + x^5 + 1). -/
def f1Gen : Nat := 2 ^ 64 + 2 ^ 46 + 2 ^ 41 + 2 ^ 23 + 2 ^ 5 + 1

/-- The remainder modulo g of the polynomial whose coefficients are `b`, the highest degree first. -/
def f1Rem (b : List Bool) : Nat :=
  b.foldl (fun r c => let r := 2 * r + b2n c; if r.testBit 64 then r ^^^ f1Gen else r) 0

/-- The first 32 blocks of a codeword lane by lane in ascending rank, on each lane in time order; `base` blocks of the stream came
before the codeword. -/
def f1Order (w base : Nat) : List Nat :=
  (List.range w).flatMap fun r => (List.range 32).filter fun i => decide ((base + i) % w = r)

/-- The message of a codeword. -/
def f1Message (w base : Nat) (blocks : List (List Bool)) : List Bool := (f1Order w base).flatMap fun i => blocks.getD i []

/-- The parity block: sync header 0b10, then the remainder of m(x) x^64 with the coefficient of x^63 first. -/
def f1Parity (w base : Nat) (blocks : List (List Bool)) : List Bool :=
  let r := f1Rem (f1Message w base blocks ++ List.replicate 64 false)
  bitList headControl ++ (List.range 64).map fun i => r.testBit (63 - i)

/-- The burst of at most 21 bits that a syndrome stands for, among the first `n` degrees from `e` on: its lowest degree and its
bits. -/
def f1Burst : Nat → Nat → Nat → Option (Nat × Nat)
  | 0, _, _ => none
  | n + 1, e, s =>
    if s.testBit 0 then if s < 2 ^ 21 then some (e, s) else f1Burst n (e + 1) ((s ^^^ f1Gen) / 2) else f1Burst n (e + 1) (s / 2)

/-- Where the coefficient of a degree stands: its block and its bit there. -/
def f1Place (w base d : Nat) : Nat × Nat :=
  if d < 64 then (32, 65 - d) else ((f1Order w base).getD ((2175 - d) / 66) 0, (2175 - d) % 66)

/-- Bit `p.2` of block `p.1` is inverted. -/
def flipBit (blocks : List (List Bool)) (p : Nat × Nat) : List (List Bool) :=
  blocks.modify p.1 fun b => b.modify p.2 not

/-- What a received codeword of 33 blocks leaves when it is divided by g. -/
def f1Syndrome (w base : Nat) (blocks : List (List Bool)) : Nat :=
  f1Rem (f1Message w base blocks ++ (blocks.getD 32 []).drop 2)

/-- A codeword with syndrome `s` is corrected: its blocks and, for each bit corrected, the rank of its lane; none where it is
uncorrectable. A burst lies on one lane; DEDUCED (log 158): its length is measured in the codeword's order of bits. -/
def f1Correct (w base : Nat) (blocks : List (List Bool)) (s : Nat) : Option (List (List Bool) × List Nat) :=
  if s = 0 then some (blocks, [])
  else
    match f1Burst 2176 0 s with
    | none => none
    | some (e, b) =>
      let at_ := ((List.range 21).filter b.testBit).map fun j => e + j
      let ranks := at_.map fun d => (base + (f1Place w base d).1) % w
      if at_.all (fun d => decide (d < 2176)) && ranks.all fun r => decide (some r = ranks.head?) then
        some (at_.foldl (fun l d => flipBit l (f1Place w base d)) blocks, ranks)
      else none

/-- A codeword of 33 received blocks is decoded. -/
def f1Decode (w base : Nat) (blocks : List (List Bool)) : Option (List (List Bool) × List Nat) :=
  f1Correct w base blocks (f1Syndrome w base blocks)

/-! ### F2 (R100): GF(2^10) and RS(544, 514) of IEEE 802.3 clause 91 -/

/-- Multiplication by alpha, the root of x^10 + x^3 + 1. -/
def gfDouble (a : Nat) : Nat := if a < 512 then 2 * a else (2 * a) ^^^ 1033

/-- The product in GF(2^10). -/
def gfMul (a b : Nat) : Nat :=
  if a = 0 ∨ b = 0 then 0
  else (List.range 10).foldl (fun r i => gfDouble r ^^^ if b.testBit (9 - i) then a else 0) 0

/-- alpha^n. -/
def gfExp : Nat → Nat
  | 0 => 1
  | n + 1 => gfDouble (gfExp n)

/-- The inverse: a^1022, the product of a^2, a^4, ..., a^512. -/
def gfInv (a : Nat) : Nat := ((List.range 9).foldl (fun p _ => let q := gfMul p.1 p.1; (q, gfMul p.2 q)) (a, 1)).2

/-- Polynomials over GF(2^10), the constant first: their sum, a multiple, and their value. -/
def gfAdd : List Nat → List Nat → List Nat
  | [], q => q
  | p, [] => p
  | a :: p, b :: q => (a ^^^ b) :: gfAdd p q
def gfScale (c : Nat) (p : List Nat) : List Nat := p.map (gfMul c)
def gfEval (p : List Nat) (x : Nat) : Nat := p.foldr (fun c r => gfMul r x ^^^ c) 0

/-- The generator: the product of x - alpha^j for j from 0 to 29. -/
def rsGen : List Nat := (List.range 30).foldl (fun g j => gfAdd (0 :: g) (gfScale (gfExp j) g)) [1]

/-- One symbol enters the division by the generator; `par` is the remainder so far, the constant first. -/
def rsStep (par : List Nat) (m : Nat) : List Nat :=
  gfAdd (0 :: par.take 29) (gfScale (m ^^^ par.getD 29 0) (rsGen.take 30))

/-- The remainder before the first symbol. -/
def rsZero : List Nat := List.replicate 30 0

/-- The syndromes of a received codeword, its first symbol the highest degree. -/
def rsSyndromes (c : List Nat) : List Nat :=
  (List.range 30).map fun j => let x := gfExp j; c.foldl (fun r s => gfMul r x ^^^ s) 0

/-- A step of the Berlekamp-Massey algorithm: the locator, the one before its last change of length, the length, the discrepancy then,
and the steps since. -/
structure BmState where
  c : List Nat
  b : List Nat
  len : Nat
  d : Nat
  m : Nat

def bmStep (syn : List Nat) (x : BmState) (n : Nat) : BmState :=
  let d := (List.range (x.len + 1)).foldl (fun r i => r ^^^ gfMul (x.c.getD i 0) (syn.getD (n - i) 0)) 0
  if d = 0 then { x with m := x.m + 1 }
  else
    let c := gfAdd x.c (gfScale (gfMul d (gfInv x.d)) (List.replicate x.m 0 ++ x.b))
    if 2 * x.len ≤ n then { c := c, b := x.c, len := n + 1 - x.len, d := d, m := 1 } else { x with c := c, m := x.m + 1 }

/-- The value of the error at the degree whose power of alpha is the inverse of `y` (Forney). -/
def rsValue (syn loc : List Nat) (y : Nat) : Nat :=
  let om := (List.range 30).map fun i => (List.range (i + 1)).foldl (fun r j => r ^^^ gfMul (loc.getD j 0) (syn.getD (i - j) 0)) 0
  let der := (List.range loc.length).map fun i => if i % 2 = 0 then loc.getD (i + 1) 0 else 0
  gfMul (gfInv y) (gfMul (gfEval om y) (gfInv (gfEval der y)))

/-- The places of a codeword, from `i` on, whose power of alpha is the inverse of a root of the locator, each with that root; `y` is
the one to try at `i`. -/
def rsPlaces (loc : List Nat) : Nat → Nat → Nat → List (Nat × Nat)
  | 0, _, _ => []
  | n + 1, i, y => if gfEval loc y = 0 then (i, y) :: rsPlaces loc n (i + 1) (gfDouble y) else rsPlaces loc n (i + 1) (gfDouble y)

/-- A received codeword of 544 symbols is decoded: up to 15 symbols are corrected; its symbols and the places corrected, or none where
it is uncorrectable. -/
def rsDecode (c : List Nat) : Option (List Nat × List Nat) :=
  let syn := rsSyndromes c
  if syn.all (fun s => decide (s = 0)) then some (c, [])
  else
    let x := (List.range 30).foldl (bmStep syn) { c := [1], b := [1], len := 0, d := 1, m := 1 }
    let at_ := rsPlaces x.c 544 0 (gfExp 480)
    if 15 < x.len ∨ at_.length ≠ x.len then none
    else some (at_.foldl (fun l p => l.modify p.1 fun s => s ^^^ rsValue syn x.c p.2) c, at_.map (·.1))

/-- The bits of a symbol. PRESUMED (log 158): as in IEEE 802.3 clause 91, the coefficient of alpha^0 is the first bit on the wire. -/
def symBits (s : Nat) : List Bool := (List.range 10).map s.testBit

/-! ### The stream of a link (R93, R98, R101) -/

/-- One F2 symbol goes to its lane. -/
def Line.sendSym (l : Line) (lane : Nat → Lane) (ranks : List Nat) (m : Nat) : Line :=
  let j := stripeLane ranks l.txSyms
  { l.drive (lane j) j (symBits m) with txSyms := l.txSyms + 1 }

/-- A message symbol of F2 is sent; the 514th of a codeword is followed by its 30 parity symbols, the highest degree first. -/
def Line.sendMsg (l : Line) (lane : Nat → Lane) (ranks : List Nat) (m : Nat) : Line :=
  let par := rsStep (if l.par = [] then rsZero else l.par) m
  let n := l.txSyms % 544
  let l := l.sendSym lane ranks m
  if n = 513 then { par.reverse.foldl (fun l s => l.sendSym lane ranks s) l with par := [] } else { l with par := par }

/-- The whole symbols among the bits that wait are sent, at most `n`. -/
def Line.sendBits (lane : Nat → Lane) (ranks : List Nat) : Nat → Line → Line
  | 0, l => l
  | n + 1, l =>
    if l.txBits.length < 10 then l
    else Line.sendBits lane ranks n (({ l with txBits := l.txBits.drop 10 } : Line).sendMsg lane ranks (bitNat (l.txBits.take 10)))

/-- A block of the link's stream is sent (R93): coded on the lane of its rank, and put on the wire as the class says. -/
def Line.sendBlock (l : Line) (lane : Nat → Lane) (ranks : List Nat) (fec : BitVec 2) (head : BitVec 2) (w : Word) : Line :=
  let j := stripeLane ranks l.txBlocks
  let r := l.code j head w
  let l := { r.2 with txBlocks := l.txBlocks + 1 }
  match fec.toNat with
  | 1 =>
    let l := { l.drive (lane j) j r.1 with cw := l.cw ++ [r.1] }
    if l.cw.length < 32 then l
    else
      let p := stripeLane ranks l.txBlocks
      { l.drive (lane p) p (f1Parity ranks.length (l.txBlocks - 32) l.cw) with cw := [], txBlocks := l.txBlocks + 1 }
  | 2 => Line.sendBits lane ranks 7 { l with txBits := l.txBits ++ r.1 }
  | _ => l.drive (lane j) j r.1

/-- A block of a lane's own (a training block) is sent, coded like any other. -/
def Line.sendOwn (l : Line) (lane : Lane) (j : Nat) (w : Word) : Line :=
  let r := l.code j headControl w
  r.2.drive lane j r.1

/-- What is sent goes through the line coding of its link. -/
def lineSend (links : Tab Link) (lanes : Tab Lane) (t : Tab Line) (e : Emit) : Tab Line :=
  match e with
  | .train n w => t.put {} (n / 4) ((t.get {} (n / 4)).sendOwn (lanes.get {} n) (n % 4) w)
  | e =>
    match e.blocks with
    | none => t
    | some (k, b) =>
      let link := links.get {} k
      let ranks := laneRanks link.train.lanes
      if ranks = [] then t
      else t.put {} k (b.foldl (fun l x => l.sendBlock (fun j => lanes.get {} (4 * k + j)) ranks link.fec.cur x.1 x.2) (t.get {} k))

/-! ### What is received (R99 to R101) -/

/-- Received bits are blocks of the stream, `bad` in an uncorrectable codeword. -/
def Line.takeBlocks (l : Line) (ranks : List Nat) (bad : Bool) : List (List Bool) → Line
  | [] => l
  | b :: t =>
    let r := l.uncode (stripeLane ranks l.rxBlocks) b
    ({ r.2 with rxBlocks := l.rxBlocks + 1, got := l.got ++ [{ head := r.1.1, word := r.1.2, bad := bad }] } : Line).takeBlocks
      ranks bad t

/-- An F1 codeword is received: its 32 blocks, and its parity block, which is none of the stream's. -/
def Line.takeF1 (l : Line) (ranks : List Nat) (blocks : List (List Bool)) (bad : Bool) : Line :=
  let l := ({ l with got := [] } : Line).takeBlocks ranks bad (blocks.take 32)
  { l with rxBlocks := l.rxBlocks + 1 }

/-- Whole blocks among the bits received. -/
def cutBlocks66 : Nat → List Bool → List (List Bool)
  | 0, _ => []
  | n + 1, b => b.take 66 :: cutBlocks66 n (b.drop 66)

/-- The message of an F2 codeword is received; blocks straddle codewords. -/
def Line.takeF2 (l : Line) (ranks : List Nat) (message : List Nat) (bad : Bool) : Line :=
  let b := l.rxBits ++ message.flatMap symBits
  let n := b.length / 66
  let blocks := cutBlocks66 n b
  let first := if l.rxBits = [] then 0 else 1
  let t := (({ l with got := [] } : Line).takeBlocks ranks (bad || l.rxBad) (blocks.take first)).takeBlocks ranks bad (blocks.drop first)
  { t with rxBits := b.drop (66 * n), rxBad := bad, rxSyms := l.rxSyms + 544 }

end Sys2Proof.Machine
end

