-- ==== Sys2Proof/Machine/Ops.lean ====
section
/-! DEFINITION. The named operations over State that every family uses: instances of the sparse tables, time, what is
driven outwards, free values, plain registers, packets and saturating counts. -/

namespace Sys2Proof.Machine

/-- An outcome of the block. -/
abbrev Res := Host.Outcome State Fault Refusal

/-! ### Instances -/

/-- Link L`n`. -/
def State.link (s : State) (n : Nat) : Link := s.links.get {} n
/-- Replaces link L`n`. -/
def State.setLink (s : State) (n : Nat) (l : Link) : State := { s with links := s.links.put {} n l }
/-- Changes link L`n`. -/
def State.modLink (s : State) (n : Nat) (f : Link → Link) : State := s.setLink n (f (s.link n))
/-- Changes the link layer of link L`n`. -/
def State.modLL (s : State) (n : Nat) (f : LL → LL) : State := s.modLink n fun l => { l with ll := f l.ll }
/-- Changes the training state of link L`n`. -/
def State.modTrain (s : State) (n : Nat) (f : Train → Train) : State :=
  s.modLink n fun l => { l with train := f l.train }
/-- Changes the counters of link L`n`. -/
def State.modCnt (s : State) (n : Nat) (f : LLCounts → LLCounts) : State :=
  s.modLL n fun l => { l with cnt := f l.cnt }

/-- Lane `n`. -/
def State.lane (s : State) (n : Nat) : Lane := s.lanes.get {} n
/-- Replaces lane `n`. -/
def State.setLane (s : State) (n : Nat) (l : Lane) : State := { s with lanes := s.lanes.put {} n l }
/-- Changes lane `n`. -/
def State.modLane (s : State) (n : Nat) (f : Lane → Lane) : State := s.setLane n (f (s.lane n))

/-- E-port `n`. -/
def State.eport (s : State) (n : Nat) : EPort := s.eports.get {} n
/-- Replaces E-port `n`. -/
def State.setEPort (s : State) (n : Nat) (p : EPort) : State := { s with eports := s.eports.put {} n p }
/-- Changes E-port `n`. -/
def State.modEPort (s : State) (n : Nat) (f : EPort → EPort) : State := s.setEPort n (f (s.eport n))

/-- SEC_PART_CTL of partition `p`. -/
def State.part (s : State) (p : Nat) : Part := s.parts.get {} p

/-- Applies `f` for every element of a list, in order. -/
def forEach {α : Type} (l : List α) (f : α → State → State) (s : State) : State := l.foldl (fun s a => f a s) s

/-! ### Time -/

/-- Milestone time in ns: the whole nanoseconds of the count, with the steps applied (R448). -/
def State.nowInt (s : State) : Int := (s.clk.ms / 5 : Nat) + s.clk.ofs
/-- Milestone time as OBS_MS_TIME shows it. -/
def State.now (s : State) : Word := BitVec.ofInt 64 s.nowInt

/-- SEC_OPKEY ignores writes: a plan commit has been accepted since the last warm or cold reset (R412). -/
def State.opLocked (s : State) : Bool := s.sec.opLock || s.plan.valid

/-- 1 us intervals of milestone time that have passed, on the count that no step moves (R448). -/
def State.usIndex (s : State) : Nat := s.clk.ms / 5000

/-- Milliseconds of milestone time that have passed. -/
def State.msIndex (s : State) : Nat := (s.nowInt / 1000000).toNat

/-- `d` units of 0.2 ns pass. Milestone time runs once it is valid (R448); the count of the port timers and of the core stops in
curfew (R454), and the count of activity also in a brown-out hold (R87) and in the safe state (R421). -/
def State.pass (s : State) (d : Nat) : State :=
  { s with
    clk :=
      { s.clk with
        up := s.clk.up + d
        ms := if s.boot.stage = .laneClocks ∨ s.boot.stage = .ready ∨ s.clk.ms ≠ 0 then s.clk.ms + d else s.clk.ms
        core := if !s.obs.curfew.on then s.clk.core + d else s.clk.core
        act := if !s.obs.curfew.on && !s.fc.safe && !s.pins.hold then s.clk.act + d else s.clk.act } }

/-- `dt` nanoseconds pass. -/
def State.passNs (s : State) (dt : Nat) : State := s.pass (5 * dt)

/-- Microseconds in units of 0.2 ns. -/
def us5 (n : Nat) : Nat := 5000 * n

/-! ### What is driven, free values -/

/-- What the block drives outwards is recorded, and what it sends on a link goes through the line coding (R90 to R100). -/
def State.emit (s : State) (e : Emit) : State :=
  { s with sent := s.sent ++ [e], lines := lineSend s.links s.lanes s.lines e }
/-- Records several things driven outwards, in order. -/
def State.emits (s : State) (es : List Emit) : State :=
  { s with sent := s.sent ++ es, lines := es.foldl (lineSend s.links s.lanes) s.lines }

/-- A free value: a value the spec leaves open, different for each use. -/
def State.free (s : State) : Word := Config.freeWord s.freeCtr
/-- Marks a free value as used. -/
def State.drew (s : State) : State := { s with freeCtr := s.freeCtr + 1 }

/-- A fresh identifier for a job or a request. -/
def State.fresh (s : State) : State := { s with nextId := s.nextId + 1 }

/-! ### Saturating counts -/

/-- `x + n`, saturating at all ones. -/
def satAdd {w : Nat} (x : BitVec w) (n : Nat) : BitVec w :=
  if x.toNat + n < 2 ^ w then BitVec.ofNat w (x.toNat + n) else BitVec.allOnes w

/-! ### Plain registers -/

/-- The plain register at window address `a`. -/
def State.reg (s : State) (a : Nat) : Word := s.win.get (winReset a) a
/-- Writes the plain register at window address `a`. -/
def State.setReg (s : State) (a : Nat) (v : Word) : State := { s with win := s.win.put (winReset a) a v }

/-- A word with its bits `[lo + n - 1 : lo]` replaced by `v`. -/
def setBits (x : Word) (lo n v : Nat) : Word :=
  let m := BitVec.ofNat 64 ((2 ^ n - 1) <<< lo)
  (x &&& ~~~m) ||| (BitVec.ofNat 64 (v <<< lo) &&& m)

/-! ### Packets (Table 7.6, R174) -/

/-- The virtual channel: bits [127:125] of the header. -/
def Pkt.vc (p : Pkt) : Nat := p.op.toNat / 32
/-- Units of 16 bytes a packet occupies. -/
def Pkt.units (p : Pkt) : Nat := 1 + (p.len.toNat + 15) / 16
/-- The size of a packet in bytes (R194). -/
def Pkt.size (p : Pkt) : Nat := 16 * p.units
/-- The receive pool (R168). -/
def Pkt.pool (p : Pkt) : Nat := 4 * p.vc + p.hop.toNat

/-- The 128-bit header. -/
def Pkt.header (p : Pkt) : BitVec 128 :=
  p.op ++ p.hop ++ p.colour ++ p.ptag ++ p.src ++ p.dst ++ p.tag ++ p.len ++ p.sqm ++ p.addr

/-- The packet a header spells, without data. -/
def Pkt.ofHeader (h : BitVec 128) : Pkt :=
  { op := h.extractLsb' 120 8, hop := h.extractLsb' 118 2, colour := h.extractLsb' 116 2, ptag := h.extractLsb' 100 16,
    src := h.extractLsb' 89 11, dst := h.extractLsb' 78 11, tag := h.extractLsb' 66 12, len := h.extractLsb' 58 8,
    sqm := h.extractLsb' 56 2, addr := h.extractLsb' 0 56 }

/-- A packet's bytes: header, data, and pad to a unit (R174). -/
def Pkt.bytes (p : Pkt) : Bytes := leBytes 16 p.header.toNat ++ padTo 16 p.data

/-- An ATOM or ATOM_BF opcode (Table 7.7). -/
def Pkt.isAtom (p : Pkt) : Bool := decide (p.op.toNat / 8 = 0x11 ∨ p.op.toNat / 8 = 0x13)
/-- A request of Table 9.3. -/
def Pkt.isReq (p : Pkt) : Bool :=
  p.isAtom || decide (p.op.toNat ∈ [0x80, 0x81, 0x82, 0x90, 0x91, 0xE0, 0xE1, 0xF0, 0xF1, 0xCC])
/-- A request for which an undeliverable packet is answered: the requests, and the placement and observation
operations that a completion answers (R189). -/
def Pkt.answered (p : Pkt) : Bool := p.isReq || decide (0xC0 ≤ p.op.toNat ∧ p.op.toNat ≤ 0xC8)
/-- A board-flat request. -/
def Pkt.isBf (p : Pkt) : Bool :=
  decide (p.op.toNat / 8 = 0x13 ∨ p.op.toNat ∈ [0x90, 0x91, 0xF0, 0xF1])

/-- RVC of a completion (Table 7.8): 0 VC4, 1 VC7, 2 VC6. -/
def rvcOf (vc : Nat) : Nat := if vc = 4 then 0 else if vc = 7 then 1 else 2

/-- Statuses of Table 2.5. -/
def stOk : Nat := 0
def stBusy : Nat := 1
def stDenied : Nat := 2
def stBadaddr : Nat := 3
def stPoison : Nat := 4
def stUnreach : Nat := 5
def stTimeout : Nat := 6
def stMalformed : Nat := 7

/-- The ADDR field of a completion (Table 7.8). -/
structure CplAddr where
  rdst : Nat := 0
  loc : Option Nat := none
  retry : Bool := false
  resync : Bool := false
  policed : Bool := false
  rvc : Nat := 0
  status : Nat := 0
  deriving DecidableEq, Repr

/-- The 56 bits of a completion's ADDR. LOC_CHIP is zero without LOC_VALID. -/
def CplAddr.word (c : CplAddr) : BitVec 56 :=
  BitVec.ofNat 56 (c.rdst <<< 45 ||| (c.loc.getD 0) <<< 34 ||| b2n c.loc.isSome <<< 33 ||| b2n c.retry <<< 32 |||
    b2n c.resync <<< 31 ||| b2n c.policed <<< 30 ||| c.rvc <<< 28 ||| c.status)

/-- A completion's ADDR read back. -/
def CplAddr.of (a : BitVec 56) : CplAddr :=
  { rdst := bits a 45 11, loc := if bit a 33 then some (bits a 34 11) else none, retry := bit a 32,
    resync := bit a 31, policed := bit a 30, rvc := bits a 28 2, status := bits a 0 4 }

/-! ### Parts of the configuration many rules read -/

/-- GBL_CHIP.CHIP (0 before any plan). -/
def State.chip (s : State) : BitVec 11 := s.plan.chip

/-- The local partition that holds a tenancy tag, if a valid one does (R197, R214). -/
def State.tagPart (s : State) (tag : BitVec 16) : Option Nat :=
  (List.range 16).find? fun p => (s.part p).valid && decide ((s.part p).tag = tag)

/-- The tenancy tag of P0. -/
def State.p0Tag (s : State) : BitVec 16 := (s.part 0).tag

/-- BOOT_STAGE is at least MGMT_OPEN: the management port performs commands (R50, R58). -/
def State.mgmtOpen (s : State) : Bool :=
  match s.boot.stage with
  | .mgmtOpen | .laneClocks | .ready | .selftestFail => true
  | _ => false

/-- The plan entry of a link of any class (R131). -/
def State.planEntry (s : State) (n : Nat) : Option PlanLink := (s.plan.links.find? fun e => e.1 = n).map (·.2)

/-- The plan entry of a link, none for UNUSED (R131). -/
def State.planLink (s : State) (n : Nat) : Option PlanLink := (s.planEntry n).filter fun e => decide (e.cls ≠ 0)

/-- The plan in force has an UNUSED entry for a link: the link is not enabled (Table 6.4). -/
def State.barred (s : State) (n : Nat) : Bool := (s.planEntry n).any fun e => decide (e.cls = 0)

/-- A link is UNUSED under the plan in force, by its entry or for want of one (R131): it never enters DATA (Table 6.4). -/
def State.unused (s : State) (n : Nat) : Bool := s.plan.valid && (s.planLink n).isNone

/-- The link stands on a DATA row (Table 5.1) and is not hostile: from the handshake of Q_HOSTILE on, whatever its row,
it carries only what a QUARANTINE row allows (R403). -/
def State.inData (s : State) (n : Nat) : Bool :=
  decide ((s.link n).train.state = 4) && decide ((s.link n).guest.verdict ≠ .qHostile) && !s.unused n

/-- The part runs: no curfew, no safe state, past READY or earlier stages alike (R421, R454). -/
def State.running (s : State) : Bool := !s.obs.curfew.on && !s.fc.safe

/-- New transactions are admitted: the part runs and no brown-out hold is in force (R85). -/
def State.admits (s : State) : Bool := s.running && !s.pins.hold

end Sys2Proof.Machine
end

