-- ==== Sys2Proof/Machine/Events.lean ====
section
/-! DEFINITION. What crosses between the core and the clocked domains (chapter 3): the event counters of each crossing (R78,
R80), and whether a crossing is in reset (R30, R82). -/

namespace Sys2Proof.Machine

/-! ### Event counters (R80) -/

/-- The events of Table 3.5 that cross in the model. At a carrier or management port: the credits of each channel, a protocol
error of the port and a doorbell. At a lane's receive crossing: the loss of its lock, an invalid sync header and a corrected
FEC symbol. DESIGN CHOICE (log 128): each has a counter of its own. -/
inductive EvCh
  | cmd | wd | rd | wack | cpl | rcmd | wcmd | wdata | rsp | proto | doorbell | lockLoss | header | fecFix
  deriving DecidableEq, Repr

/-- Its key in a crossing's table of counters. -/
def EvCh.num : EvCh → Nat
  | .cmd => 0 | .wd => 1 | .rd => 2 | .wack => 3 | .cpl => 4 | .rcmd => 5 | .wcmd => 6 | .wdata => 7 | .rsp => 8
  | .proto => 9 | .doorbell => 10 | .lockLoss => 11 | .header => 12 | .fecFix => 13

/-- The channels whose events the core sends: the credits of the receivers that stand in the core. -/
def coreEvents : List EvCh := [.cmd, .wd, .rd, .wack]
/-- The channels whose events the clocked side sends. -/
def clkEvents : List EvCh := [.cpl, .rcmd, .wcmd, .wdata, .rsp, .proto, .doorbell, .lockLoss, .header, .fecFix]

/-- The number a Gray code of 8 bits stands for. -/
def unGray (g : BitVec 8) : BitVec 8 :=
  let g := g ^^^ (g >>> 1)
  let g := g ^^^ (g >>> 2)
  g ^^^ (g >>> 4)

/-- A Gray-coded counter advanced by `n`. -/
def grayAdd (g : BitVec 8) (n : Nat) : BitVec 8 :=
  let k := unGray g + BitVec.ofNat 8 n
  k ^^^ (k >>> 1)

/-- The events the receiver takes from a counter: the difference from its last accepted value. -/
def EventCtr.due (c : EventCtr) : Nat := (unGray c.sent - unGray c.taken).toNat

/-- The sender advances its counter by `n` events, and the receiver samples it. -/
def EventCtr.burst (c : EventCtr) (n : Nat) : EventCtr := { sent := grayAdd c.sent n, taken := grayAdd c.sent n }

/-- `n` events are sent, at most 64 of them between two samples. -/
def EventCtr.send (c : EventCtr) (n : Nat) : EventCtr :=
  ((List.replicate (n / 64) 64) ++ [n % 64]).foldl EventCtr.burst c

/-! ### Crossings -/

/-- The HCLK crossing of a carrier port: E0 to E15, M0 to M23, N0 to N3, S0 to S7, and 52 of the management port. -/
def cportXing : CPort → Nat
  | .m i => 16 + i.val
  | .n i => 40 + i.val
  | .s i => 44 + i.val
/-- The management port's HCLK crossing. -/
def mgXing : Nat := 52
/-- The key of an HCLK crossing in the table of crossings; a lane's receive crossing has the lane's number as its key, and its
transmit crossing 96 more. -/
def hclkKey (n : Nat) : Nat := 192 + n

/-- A port is in reset while either side of its crossing is (R30). -/
def Xing.inReset (x : Xing) : Bool := decide (x.core ≠ {} ∨ x.clk ≠ {})
def State.portReset (s : State) (n : Nat) : Bool := (s.xings.get {} (hclkKey n)).inReset

/-- A crossing of a lane is in reset: nothing passes it. -/
def State.laneCut (s : State) (tx : Bool) (lane : Nat) : Bool := (s.xings.get {} (if tx then 96 + lane else lane)).inReset

/-- Sync headers of a lane are counted: its clock recovery holds lock, and its receive crossing is out of reset (R82). -/
def State.laneHears (s : State) (n : Nat) : Bool := (s.lane n).cdr && !s.laneCut false n

/-- The crossing of an active lane of the link is in reset, or those of all its lanes while none is active: nothing of the link's
passes (R82). -/
def State.linkCut (s : State) (tx : Bool) (k : Nat) : Bool :=
  if (s.link k).train.lanes = 0 then (List.range 4).all fun j => s.laneCut tx (4 * k + j)
  else (List.range 4).any fun j => bit (s.link k).train.lanes j && s.laneCut tx (4 * k + j)

/-- The lane clocks run: before BOOT_STAGE LANE_CLOCKS every lane is at electrical idle (R422). -/
def State.laneClocks (s : State) : Bool := decide (s.boot.stage = .laneClocks ∨ s.boot.stage = .ready)

/-- Control blocks of link `k` leave the block. -/
def State.linkSends (s : State) (k : Nat) : Bool := s.laneClocks && !s.linkCut true k

/-- `n` events of a channel cross the crossing with key `k` (R80); none while it is in reset. -/
def State.crossKey (s : State) (k : Nat) (ch : EvCh) (n : Nat) : State :=
  let x := s.xings.get {} k
  if x.inReset then s
  else { s with xings := s.xings.put {} k { x with ctrs := x.ctrs.put {} ch.num ((x.ctrs.get {} ch.num).send n) } }

/-- `n` events cross an HCLK crossing. -/
def State.crossEvents (s : State) (x : Nat) (ch : EvCh) (n : Nat) : State := s.crossKey (hclkKey x) ch n

end Sys2Proof.Machine
end

