-- ==== Sys2Proof/Machine/Watch.lean ====
section
/-! DEFINITION. What every part does to observation as it acts: offering trace records (R437, R438), firing trigger
units (R441), entering curfew (R452 to R455) and counting events (R433, R434). -/

namespace Sys2Proof.Machine

/-! ### Trace records -/

/-- OBS_TRACE_CTL. -/
def State.traceCtl (s : State) : Word := s.reg 0x20010

/-- OBS_TRACE_CTL.SRC bit `i`: 0 MARK, 1 EVENT, 2 PKT, 3 TASTE, 4 CURFEW, 5 FRAME_CAP. -/
def State.traceSrc (s : State) (i : Nat) : Bool := bit s.traceCtl (32 + i)

/-- A DROP record (Table 18.4) for `n` records lost. -/
def dropRec (n : Nat) (seq : BitVec 16) (time : Word) : Rec :=
  { type_ := 4, unit_ := 0xD, inst := 0, seq := seq, aux := BitVec.ofNat 16 n, time := time, pay := leBytes 8 n }

/-- Where records stand that one handshake captures: by UNIT, then INST (R438). -/
def Rec.rank (r : Rec) : Nat := r.unit_.toNat * 65536 + r.inst.toNat

/-- A record joins the FIFO, before the records of the same moment that follow it in rank; these move up by one in SEQ. The
model takes what is captured while no time passes as captured in one handshake (DESIGN CHOICE, log 146). -/
def Rec.join (r : Rec) (l : List Rec) : List Rec :=
  let after := (l.reverse.takeWhile fun e => decide (e.tick = r.tick ∧ e.type_ ≠ 4 ∧ r.rank < e.rank)).reverse
  l.take (l.length - after.length) ++ { r with seq := (after.head?.map (·.seq)).getD r.seq } ::
    after.map fun e => { e with seq := e.seq + 1 }

/-- A record enters the capture FIFO, where there is room for it. -/
def Trace.put (t : Trace) (now : Word) (r : Rec) : Trace :=
  { t with fifo := { r with seq := t.seq, time := now : Rec }.join t.fifo, seq := t.seq + 1 }

/-- Offers a record to the capture FIFO of 64 (R438). One slot is kept for a DROP record, which is written before the
next record once a loss is held. A record lost adds to the loss held and to OBS_LOST. The second part says that the
record was lost. -/
def Trace.offer (t : Trace) (now : Word) (r : Rec) : Trace × Bool :=
  if !t.recording then (t, false)
  else if 63 ≤ t.fifo.length then
    ({ t with held := t.held + 1, lost := satAdd t.lost 1
              fifo := if r.act then
                  match t.fifo.reverse with
                  | [] => []
                  | e :: l => ({ e with act := true } :: l).reverse
                else t.fifo }, true)
  else if t.held = 0 then (t.put now r, false)
  else
    ({ t with fifo := t.fifo ++ [dropRec t.held t.seq now, { r with seq := t.seq + 1, time := now }], seq := t.seq + 2,
              held := 0 }, false)

/-- Replaces the trace buffer. -/
def State.setTrace (s : State) (t : Trace) : State := { s with obs := { s.obs with trace := t } }

/-- Adds `n` to counter `i`, modulo 2^64 (R433). -/
def State.bumpCnt (s : State) (i n : Nat) : State :=
  { s with obs := { s.obs with cnt := s.obs.cnt.put 0 i (s.obs.cnt.get 0 i + BitVec.ofNat 64 n) } }

/-- Events whose INST Table 18.2 ignores, or whose unit has none. -/
def noInst (unit_ event : Nat) : Bool := decide (unit_ = 0xA ∨ unit_ = 0xD ∨ unit_ = 5 ∧ event = 3)

/-- A selector counts an event (R433, R434): EN, the UNIT and EVENT, the instance or 0xFFFF, and under PF 1 the
partition the event is attributed to. `inst` 0xFFFF is an event with no instance, which a selector of one instance does not
count. -/
def selCounts (w : Word) (unit_ event inst : Nat) (part : Option Nat) : Bool :=
  bit w 63 && decide (bits w 48 5 = unit_) && decide (bits w 0 8 = event) &&
    (noInst unit_ event || decide (bits w 32 16 = inst) || decide (bits w 32 16 = 0xFFFF)) &&
    (!bit w 62 || decide (part = some (bits w 58 4)))

/-- The counters that count an event, in ascending order. -/
def State.counters (s : State) (unit_ event inst : Nat) (part : Option Nat) : List Nat :=
  (s.obs.csel.filter fun e => selCounts e.2 unit_ event inst part).map (·.1)

/-- The EVENT record of counter `i`, which has counted (Table 18.4). -/
def State.eventRec (s : State) (i inst : Nat) (part : Option Nat) : Rec :=
  let w := s.obs.csel.get 0 i
  { type_ := 2, pv := part.isSome, part := BitVec.ofNat 4 (part.getD 0), unit_ := BitVec.ofNat 5 (bits w 48 5)
    inst := BitVec.ofNat 16 (if noInst (bits w 48 5) (bits w 0 8) then 0 else inst), aux := BitVec.ofNat 16 i
    pay := leBytes 8 (s.obs.cnt.get 0 i).toNat }

/-- Counter `i` writes EVENT records. -/
def State.traced (s : State) (i : Nat) : Bool := bit (s.obs.csel.get 0 i) 57 && s.traceSrc 1

/-- Counters of the trace buffer's own events count one (unit 0x0D, EVENT 0 written and 1 lost); their trigger units look when
the command ends. Counters stop in curfew (R454). -/
def State.tallyCnt (s : State) (event : Nat) : State :=
  if s.obs.curfew.on then s
  else
    let l := s.counters 0xD event 0xFFFF none
    if l = [] then s
    else forEach l (fun i s => s.bumpCnt i 1) (s.setTrace { s.obs.trace with tallied := true })

/-- The FIFO takes a record or loses it; the loss is counted. -/
def State.capture (s : State) (r : Rec) : State × Bool :=
  let (t, lost) := s.obs.trace.offer s.now { r with tick := s.clk.up }
  let s := s.setTrace t
  (if lost then s.tallyCnt 1 else s, lost)

/-- The trace buffer has written or lost a record: the counters of that event count it, and those with TRACE offer their EVENT
records. The loss of such a record is counted, and no record is offered for it: the spec would have each make the next
(DESIGN CHOICE, log 146). -/
def State.tally (s : State) (event : Nat) : State :=
  if s.obs.curfew.on then s
  else
    let l := s.counters 0xD event 0xFFFF none
    forEach l (fun i s => if s.traced i then (s.capture (s.eventRec i 0xFFFF none)).1 else s) (s.tallyCnt event)

/-- A further record of a frame enters the FIFO (R488). -/
def State.putRec (s : State) (r : Rec) : State := s.setTrace (s.obs.trace.put s.now { r with tick := s.clk.up })

/-- Offers a record; a lost record is an event of unit 0x0D (Table 18.2). -/
def State.offer (s : State) (r : Rec) : State :=
  if s.obs.curfew.on then s
  else
    let (t, lost) := s.obs.trace.offer s.now { r with tick := s.clk.up }
    let s := s.setTrace t
    if lost then s.tally 1 else s

/-! ### Curfew entry (R452 to R455) -/

/-- A CURFEW block (Table 7.2): KIND 0 entry, 1 resume. -/
def curfewBlock (kind : Nat) (origin : BitVec 11) (serial : BitVec 32) : BitVec 64 :=
  sealBlock (fields [(54, 2, kind), (43, 11, origin.toNat), (11, 32, serial.toNat), (0, 8, 0x87)])

/-- A FATAL block (Table 7.2). -/
def fatalBlock (chip : BitVec 11) : BitVec 64 := sealBlock (fields [(45, 11, chip.toNat), (0, 8, 0x99)])

/-- The links that are not DOWN (Table 5.1). -/
def State.upLinks (s : State) : List Nat := (List.range 24).filter fun n => decide ((s.link n).train.state ≠ 0)

/-- A control block is sent on every link that is not DOWN and whose blocks leave, `n` times. -/
def State.onLinks (s : State) (n : Nat) (b : BitVec 64) : State :=
  s.emits ((s.upLinks.filter s.linkSends).flatMap fun k => List.replicate n (.control k b))

/-- A CURFEW record: AUX 0 entry, 1 resume (Table 18.4). -/
def State.curfewRec (s : State) (aux : Nat) : State :=
  let c := s.obs.curfew
  if s.traceSrc 4 then
    s.offer { type_ := 6, unit_ := 0xD, inst := 0, aux := BitVec.ofNat 16 aux,
              pay := leBytes 4 c.serial.toNat ++ leBytes 2 c.origin.toNat ++ leBytes 1 c.cause.toNat }
  else s

/-- Entry to curfew (R452, R454, R455): records cause, link, origin, serial and time, offers the CURFEW record, stops
every stage, drives CURFEW_OUT and sends four entry blocks on every link that is not DOWN. A block already in curfew
enters nothing again; in the safe state the links send FATAL and IDLE blocks only (R422). -/
def State.enterCurfew (s : State) (cause link : Nat) (origin : BitVec 11) (serial : BitVec 32) : State :=
  if s.obs.curfew.on then s
  else
    let c := { s.obs.curfew with
      cause := BitVec.ofNat 3 cause, link := BitVec.ofNat 5 link, origin := origin, serial := serial, time := s.now
      entries := satAdd s.obs.curfew.entries 1 }
    let s := { s with obs := { s.obs with curfew := c } }
    let s := s.curfewRec 0
    let s := { s with obs := { s.obs with curfew := { s.obs.curfew with on := true } }
                      pins := { s.pins with curfewOut := true } }
    if s.fc.safe then s
    else s.onLinks 4 (curfewBlock 0 origin serial)

/-- Entry for a cause of this block's own: SERIAL + 1 and its own chip number as ORIGIN (R452). -/
def State.enterCurfewOwn (s : State) (cause : Nat) : State :=
  s.enterCurfew cause 0 s.chip (s.obs.curfew.serial + 1)

/-! ### Trigger units (R441) -/

/-- Trigger unit `k`. -/
def State.trigger (s : State) (k : Nat) : Trig := s.obs.trig.get {} k
/-- Replaces trigger unit `k`. -/
def State.setTrigger (s : State) (k : Nat) (t : Trig) : State :=
  { s with obs := { s.obs with trig := s.obs.trig.put {} k t } }

/-- A unit fires: FIRED is set and EN cleared, a TRIGGER record is offered, then its actions: TRACE is carried out when
the record is taken (R439), CURFEW enters curfew. -/
def State.fireUnit (s : State) (k : Nat) : State :=
  let t := s.trigger k
  let s := s.setTrigger k { t with fired := true, en := false }
  let s := s.offer { type_ := 5, unit_ := 0xD, inst := 0, aux := BitVec.ofNat 16 k, pay := leBytes 8 t.value.toNat,
                     act := t.trace }
  if t.curfew then s.enterCurfewOwn 3 else s

/-- Fires every armed unit whose condition holds, in ascending order; triggers stop in curfew (R454). -/
def State.fireWhere (s : State) (holds : Trig → Bool) : State :=
  forEach (List.range 8) (fun k s =>
    if !s.obs.curfew.on && (s.trigger k).en && holds (s.trigger k) then s.fireUnit k else s) s

/-! ### Counting (R433 to R435) -/

/-- Events whose count is one of bytes: a packet is one event, and adds its bytes. -/
def byteEvent (unit_ event : Nat) : Bool :=
  decide (unit_ = 1 ∧ (event = 4 ∨ event = 5) ∨ unit_ = 4 ∧ event ≤ 1 ∨ unit_ = 0xD ∧ event = 3)

/-- Counter `i` adds `n` for one event: the EVENT record of a counter with TRACE, then the trigger of KIND 0x0. -/
def State.countStep (s : State) (i n inst : Nat) (part : Option Nat) : State :=
  let s := s.bumpCnt i n
  let v := s.obs.cnt.get 0 i
  let s := if s.traced i then s.offer (s.eventRec i inst part) else s
  s.fireWhere fun t => decide (t.kind = 0) && decide (t.index.toNat = i) && decide (t.value.toNat ≤ v.toNat)

/-- Counter `i` counts `n` events, each with its own EVENT record. -/
def State.countOne (s : State) (i n inst : Nat) (part : Option Nat) : State :=
  let w := s.obs.csel.get 0 i
  if s.traced i && !byteEvent (bits w 48 5) (bits w 0 8) then forEach (List.range n) (fun _ s => s.countStep i 1 inst part) s
  else s.countStep i n inst part

/-- The trigger units of KIND 0x0 look at the counters of the trace buffer's own events, where these have moved. -/
def State.fireTallied (s : State) : State :=
  if !s.obs.trace.tallied then s
  else
    (s.setTrace { s.obs.trace with tallied := false }).fireWhere fun t =>
      let w := s.obs.csel.get 0 t.index.toNat
      decide (t.kind = 0 ∧ bits w 48 5 = 0xD ∧ bits w 0 8 ≤ 1 ∧ t.value.toNat ≤ (s.obs.cnt.get 0 t.index.toNat).toNat) && bit w 63

/-- `n` events of a unit's instance, attributed to a partition or to none (Table 18.2). Counters stop in curfew
(R454). -/
def State.count (s : State) (unit_ event inst : Nat) (part : Option Nat) (n : Nat := 1) : State :=
  if s.obs.curfew.on then s
  else forEach (s.counters unit_ event inst part) (fun i s => s.countOne i n inst part) s

/-- A packet passes a link: `tx` for sent. The packet filter (R437) offers a PKT record and fires KIND 0x3. -/
def State.watchPkt (s : State) (link : Nat) (tx : Bool) (p : Pkt) : State :=
  let f := s.reg 0x20040
  let hit := bit f (40 + link) && bit f (32 + p.vc) && bit f (if tx then 0 else 1) &&
    decide (p.op.toNat &&& bits f 16 8 = bits f 24 8 &&& bits f 16 8)
  if !hit then s
  else
    let part := s.tagPart p.ptag
    let s :=
      if s.traceSrc 2 then
        s.offer { type_ := 3, pv := part.isSome, part := BitVec.ofNat 4 (part.getD 0), unit_ := 1
                  inst := BitVec.ofNat 16 link, aux := if tx then 1 else 0, pay := leBytes 16 p.header.toNat }
      else s
    s.fireWhere fun t => decide (t.kind = 3)

end Sys2Proof.Machine
end

