-- ==== Sys2Proof/Machine/Porter.lean ====
section
/-! DEFINITION. The Porter: logical ports (R141, R142), candidates (R179 to R184), undeliverable packets (R189),
completions (R177), and the release of receive units (R173). -/

namespace Sys2Proof.Machine

/-! ### Logical ports -/

/-- The members of logical port `n` in the plan in force (R141). -/
def State.lportMembers (s : State) (n : Nat) : List Nat :=
  (s.plan.links.filter fun e => decide (e.2.cls ≠ 0 ∧ e.2.lport.toNat = n)).map (·.1)

/-- The plan entry of logical port `n`'s members, which agree in kind, far end and class (R141). -/
def State.lportEntry (s : State) (n : Nat) : Option PlanLink :=
  (s.plan.links.find? fun e => decide (e.2.cls ≠ 0 ∧ e.2.lport.toNat = n)).map (·.2)

/-- Units queued on a link across all VCs. -/
def Link.queued (l : Link) : Nat := (l.outq.map fun o => o.pkt.units).sum

/-- Units queued for a logical port across all VCs (R182). -/
def State.lportQueued (s : State) (n : Nat) : Nat := ((s.lportMembers n).map fun k => (s.link k).queued).sum

/-- The member in DATA with the fewest units queued, the lowest-numbered of equals (R142). -/
def State.lportMember (s : State) (n : Nat) : Option Nat :=
  ((s.lportMembers n).filter s.inData).foldl (fun best k =>
    match best with
    | none => some k
    | some b =>
      if (s.link k).queued < (s.link b).queued ∨ ((s.link k).queued = (s.link b).queued ∧ k < b) then some k
      else some b) none

/-! ### Candidates -/

/-- Candidate `i` of the routing entry for chip `d` (Table 7.9). -/
def State.candidate (s : State) (d i : Nat) : BitVec 32 :=
  (s.tables.route.get 0 (64 * d + 8 * (i / 2))).extractLsb' (32 * (i % 2)) 32

/-- LPORT of a candidate. -/
def candPort (c : BitVec 32) : Nat := bits c 26 5
/-- WEIGHT of a candidate. -/
def candWeight (c : BitVec 32) : Nat := bits c 22 4

/-- The VCs an ADAPTER link carries (Table 6.4). -/
def adapterVc (vc : Nat) : Bool := decide (vc = 1 ∨ vc = 3 ∨ vc = 4 ∨ vc = 7)

/-- Chip number `d` is an adapter's in the plan in force (Table 5.17, R149). -/
def State.isAdapter (s : State) (d : Nat) : Bool := s.plan.ids.contains (3, BitVec.ofNat 11 d)

/-- What the class of a link lets it carry (Table 6.4). -/
def State.classCarries (s : State) (n : Nat) (p : Pkt) : Bool :=
  match s.planLink n with
  | some e => decide (e.cls ≠ 3) || adapterVc p.vc
  | none => true

/-- What the class of a logical port lets leave on it (R139, R140): on an ADAPTER port only packets that originate here, on
the VCs its class carries, for the adapter at its far end; a packet for an adapter leaves on no other port. -/
def State.portTakes (s : State) (e : PlanLink) (vc d : Nat) (forwarded : Bool) : Bool :=
  if e.cls = 3 then decide (e.farId.toNat = d) && adapterVc vc && !forwarded else !s.isAdapter d

/-- A candidate is eligible for a packet on VC `vc` to chip `d` at outgoing hop class `hop` (R181). `arrival` is the
link the packet arrived on. -/
def State.eligible (s : State) (vc d hop : Nat) (arrival : Option Nat) (c : BitVec 32) : Bool :=
  bit c 31 && bit c (8 + vc) && decide (hop ≤ bits c 20 2) &&
    ((s.lportMembers (candPort c)).any s.inData) &&
    (match arrival with
      | none => true
      | some a => !(s.lportMembers (candPort c)).contains a) &&
    (s.lportEntry (candPort c)).all fun e => s.portTakes e vc d arrival.isSome

/-- The eligible candidates in index order. -/
def State.candidates (s : State) (vc d hop : Nat) (arrival : Option Nat) : List (BitVec 32) :=
  ((List.range 16).map fun i => s.candidate d i).filter fun c => s.eligible vc d hop arrival c

/-- The least-queued choice (R182): least (Q + 16) / WEIGHT, then the larger WEIGHT, then the lower index. -/
def State.leastQueued (s : State) (cs : List (BitVec 32)) : Option (BitVec 32) :=
  cs.foldl (fun best c =>
    match best with
    | none => some c
    | some b =>
      let qc := (s.lportQueued (candPort c) + 16) * candWeight b
      let qb := (s.lportQueued (candPort b) + 16) * candWeight c
      if qc < qb ∨ (qc = qb ∧ candWeight b < candWeight c) then some c else some b) none

/-- The first candidate whose running sum of weights exceeds `n`. -/
def byRunningSum : List (BitVec 32) → Nat → Nat → Option (BitVec 32)
  | [], _, _ => none
  | c :: cs, acc, n => if n < acc + candWeight c then some c else byRunningSum cs (acc + candWeight c) n

/-- The deterministic choice for an ordered packet at a forwarding chip (R184). -/
def hashChoice (p : Pkt) (cs : List (BitVec 32)) : Option (BitVec 32) :=
  let h := (40503 * p.src.toNat + 31153 * p.dst.toNat + 25013 * p.vc) % 65536
  let t := (cs.map candWeight).sum
  byRunningSum cs 0 (h * t / 65536)

/-- A packet is ordered (R186). -/
def Pkt.ordered (p : Pkt) : Bool := decide ((p.vc = 4 ∨ p.vc = 7) ∧ (p.sqm = 1 ∨ p.sqm = 2))

/-- Puts a packet at the end of a link's output queues. -/
def State.enqueue (s : State) (n : Nat) (o : OutPkt) : State := s.modLink n fun l => { l with outq := l.outq ++ [o] }

/-- Two ordered packets of one flow, numbered modulo 4,096, `a` the earlier (R187). -/
def Pkt.precedes (a b : Pkt) : Bool :=
  a.ordered && b.ordered && decide (a.src = b.src ∧ a.dst = b.dst ∧ a.vc = b.vc) &&
    decide (0 < (b.tag - a.tag).toNat ∧ (b.tag - a.tag).toNat < 2048)

/-- Puts a packet that is sent again into a queue: before the first later packet of its flow (R22), else at the end. -/
def insertFlow (o : OutPkt) : List OutPkt → List OutPkt
  | [] => [o]
  | x :: t => if o.pkt.precedes x.pkt then o :: x :: t else x :: insertFlow o t

/-! ### Completions -/

/-- A completion of request `p` (R177): its TAG, SQM and VC, back to its SRC under its PTAG; CPL_D with data. -/
def State.completion (s : State) (p : Pkt) (c : CplAddr) (data : Bytes) : Pkt :=
  { op := if data = [] then 0x60 else 0x61, ptag := p.ptag, src := s.chip, dst := p.src, tag := p.tag,
    len := BitVec.ofNat 8 data.length, sqm := p.sqm,
    addr := { c with rvc := rvcOf p.vc }.word, data := data }

/-! ### Placing packets -/

/-- Where a flow's pin is kept: destination chip and VC4 or VC7 (R183). -/
def flowKey (chip vc : Nat) : Nat := 2 * chip + (if vc = 7 then 1 else 0)

/-- The pin of a flow is set. -/
def State.setPin (s : State) (key : Nat) (pin : Option (Nat × Nat)) : State :=
  { s with flows := s.flows.put {} key { s.flows.get {} key with pin := pin } }

/-- Pins are released whose logical port has no member in DATA any more, or no longer has the member they took (R183). -/
def State.dropPins (s : State) : State :=
  forEach (s.flows.map (·.1)) (fun key s =>
    match (s.flows.get {} key).pin with
    | some (port, k) => if (s.lportMembers port).any s.inData && (s.lportMembers port).contains k then s else s.setPin key none
    | none => s) s

/-- The logical port and member link for a packet sent from this chip (R182, R183), at the hop class it goes out with: 0 for
one that originates here. -/
def State.routeOrigin (s : State) (p : Pkt) : Option (Nat × Nat) :=
  let cs := s.candidates p.vc p.dst.toNat p.hop.toNat none
  let fresh := (s.leastQueued cs).bind fun c => (s.lportMember (candPort c)).map fun k => (candPort c, k)
  if p.ordered then
    match (s.flows.get {} (flowKey p.dst.toNat p.vc)).pin with
    | some (port, k) =>
      if cs.any fun c => candPort c = port then
        if s.inData k && (s.lportMembers port).contains k then some (port, k) else (s.lportMember port).map fun k => (port, k)
      else fresh
    | none => fresh
  else fresh

/-- The choice for a packet forwarded here with outgoing hop class `hop` (R182, R184). -/
def State.routeForward (s : State) (p : Pkt) (hop : Nat) (arrival : Nat) : Option (Nat × Nat) :=
  let cs := s.candidates p.vc p.dst.toNat hop (some arrival)
  (if p.ordered then hashChoice p cs else s.leastQueued cs).bind fun c =>
    (s.lportMember (candPort c)).map fun k => (candPort c, k)

/-- Saturating change of the Porter's counters. -/
def State.modPtr (s : State) (f : PtrCnt → PtrCnt) : State := { s with ptr := f s.ptr }

/-- Sends a packet that originates at this chip, without regard to holds: to this chip's own consumers (R215), or to
an output queue; with no candidate it is undeliverable (R189), and a request is answered UNREACH. -/
def State.place (s : State) (p : Pkt) : State :=
  if p.dst = s.chip then { s with own := s.own ++ [p] }
  else
    match s.routeOrigin p with
    | some (port, k) =>
      let s := s.enqueue k { pkt := p }
      if p.ordered then s.setPin (flowKey p.dst.toNat p.vc) (some (port, k)) else s
    | none =>
      let s := (s.modPtr fun c => { c with noRoute := satAdd c.noRoute 1 }).count 3 1 0xFFFF none
      if p.answered then
        { s with own := s.own ++ [s.completion p { rdst := p.dst.toNat, status := stUnreach } []] }
      else s

/-- Sends a packet that originates at this chip. During a brown-out hold it waits (R85); in curfew and in the safe state
nothing is sent. -/
def State.send (s : State) (p : Pkt) : State :=
  if !s.running then s else if s.pins.hold then { s with admitQ := s.admitQ ++ [p] } else s.place p

/-- Units of a pool are free again and are to be reported; those freed in a brown-out hold wait for its end (R85). -/
def Pool.release (q : Pool) (units : Nat) (hold : Bool) : Pool :=
  { q with occ := q.occ - units, freed := q.freed + BitVec.ofNat 9 units
           backlog := if hold then q.backlog else q.backlog + units, late := if hold then q.late + units else q.late }

/-- The units freed in a hold may be reported. -/
def Pool.due (q : Pool) : Pool := { q with backlog := q.backlog + q.late, late := 0 }

/-- Frees the receive units of a packet that arrived on link `n` in session `ses` (R173). Units of an earlier session
only leave the units carried over (R170). -/
def State.freeUnits (s : State) (n pool units ses : Nat) : State :=
  let hold := s.pins.hold
  s.modLL n fun l =>
    if ses = l.ses then { l with pools := l.pools.put {} pool ((l.pools.get {} pool).release units hold) }
    else { l with carry := l.carry - units }

/-- Every link may report the units freed in the hold that ends. -/
def State.reportLate (s : State) : State :=
  forEach (List.range 24) (fun n s => s.modLL n fun l =>
    { l with pools := (List.range 32).foldl (fun t p => t.put {} p (t.get {} p).due) l.pools }) s

/-- The block takes a packet received from `src` (24: its own): it leaves the receive buffer and its units are freed. -/
def State.consume (s : State) (src : Nat) (p : Pkt) : State :=
  if src < 24 then
    match (s.link src).inbox.find? fun r => r.pkt = p with
    | some r => (s.modLink src fun l => { l with inbox := l.inbox.erase r }).freeUnits src p.pool p.units r.ses
    | none => s
  else { s with own := s.own.erase p }

/-- The packets received from `src` that wait for a consumer. -/
def State.inboxOf (s : State) (src : Nat) : List Pkt :=
  if src < 24 then (s.link src).inbox.map fun r => r.pkt else s.own

/-- A forwarded packet cannot be delivered (R189): it is counted, its units are freed, and a request is answered
UNREACH with RDST the request's DST. -/
def State.undeliverable (s : State) (arrival ses : Nat) (p : Pkt) (f : PtrCnt → PtrCnt) : State :=
  let s := ((s.modPtr f).count 3 1 arrival none).freeUnits arrival p.pool p.units ses
  if p.answered then s.place (s.completion p { rdst := p.dst.toNat, status := stUnreach } []) else s

/-- Forwards a packet received on link `arrival` whose DST is another chip (R140, R146, R168, R178, R189). Its receive
units stay held until it is placed in an outgoing frame (R173). DESIGN CHOICE (log 131): a packet that meets HOP_LIMIT and
UP_UP alike counts in HOP_LIMIT, and ADAPTER_REF counts the packets that R140 drops, not the requests it answers. -/
def State.forward (s : State) (arrival ses : Nat) (p : Pkt) (no : Nat := 0) : State :=
  let e := s.planLink arrival
  if e.any fun e => e.cls = 3 then
    if p.answered then
      (s.freeUnits arrival p.pool p.units ses).place (s.completion p { rdst := p.dst.toNat, status := stUnreach } [])
    else
      (s.freeUnits arrival p.pool p.units ses).modCnt arrival fun c => { c with adapterRef := satAdd c.adapterRef 1 }
  else if p.hop = 3 then s.undeliverable arrival ses p fun c => { c with hopLimit := satAdd c.hopLimit 1 }
  else if (e.any fun e => e.cls = 2) && decide (p.dst.toNat / 16 ≠ s.chip.toNat / 16) then
    s.undeliverable arrival ses p fun c => { c with upUp := satAdd c.upUp 1 }
  else
    match s.routeForward p (p.hop.toNat + 1) arrival with
    | some (_, k) =>
      (s.enqueue k { pkt := { p with hop := p.hop + 1 }, from_ := some (arrival, p.pool, ses)
                     arrival := some arrival, no := no }).count 3 0 arrival
        (s.tagPart p.ptag)
    | none => s.undeliverable arrival ses p fun c => { c with noRoute := satAdd c.noRoute 1 }

/-! ### Sip packets (R364) -/

/-- The first link in DATA for a tree neighbour: one whose far end it is on this board, an UPLINK otherwise. An ADAPTER link carries no
VC0 (Table 6.4). -/
def State.sipFind (s : State) (chip : Nat) : Option Nat :=
  (List.range 24).find? fun n => s.inData n && match s.planLink n with
    | some e => if chip / 16 = s.chip.toNat / 16 then decide (e.farKind = 1 ∧ e.farId.toNat = chip ∧ e.cls ≠ 3) else decide (e.cls = 2)
    | none => false

/-- The link for a tree neighbour: the one chosen before while it is in DATA, otherwise a new choice. -/
def State.sipLink (s : State) (chip : Nat) : Option Nat × State :=
  let k := s.sipLinks.get 24 chip
  if k < 24 ∧ s.inData k then (some k, s)
  else
    let r := s.sipFind chip
    (r, { s with sipLinks := s.sipLinks.put 24 chip (r.getD 24) })

/-- Two sip packets of this chip have one outgoing record: kind, group and neighbour (R375). -/
def Pkt.sameRecord (p o : Pkt) : Bool := decide (p.vc = 0 ∧ o.vc = 0 ∧ p.op = o.op ∧ bits p.addr 47 9 = bits o.addr 47 9 ∧ p.dst = o.dst)

/-- Sends a VC0 packet to a tree neighbour (R364). The sip unit holds one outgoing record for each group, kind and neighbour (R375): a
second SIP_SLOW merges with the one that waits, whose ORIGIN stays, and any other packet takes the record of the one that waits, at
the end of the queue (DESIGN CHOICE, log 147). -/
def State.sipSend (s : State) (p : Pkt) : State :=
  let r := s.sipLink p.dst.toNat
  match r.1 with
  | some k =>
    if !(r.2.link k).outq.any fun o => p.sameRecord o.pkt then r.2.enqueue k { pkt := p }
    else if p.op = 5 then r.2
    else (r.2.modLink k fun l => { l with outq := l.outq.filter fun o => !p.sameRecord o.pkt }).enqueue k { pkt := p }
  | none => r.2

end Sys2Proof.Machine
end

