-- ==== Sys2Proof/Machine/Collect.lean ====
section
/-! DEFINITION. The fault collector as every part drives it (chapter 17): recording sources, ERR_N, FAULT_OUT, FAULTB
reports and entry to the safe state. -/

namespace Sys2Proof.Machine

/-! ### Sources (Table 17.1) -/

def srcLaneLoss : Nat := 0
def srcLinkFail : Nat := 1
def srcLinkFailed : Nat := 2
def srcAbsent : Nat := 3
def srcQuar : Nat := 4
def srcHostile : Nat := 5
def srcFarFatal : Nat := 6
def srcPlanSkew : Nat := 7
def srcGlost : Nat := 13
def srcCpProto : Nat := 16
def srcCpTmo : Nat := 17
def srcHclkLost : Nat := 18
def srcCpPoison : Nat := 19
def srcCpDecerr : Nat := 20
def srcLocPar : Nat := 21
def srcStwCor : Nat := 24
def srcStwHw : Nat := 25
def srcQdescUnc : Nat := 26
def srcSyncUnc : Nat := 27
def srcShadowUnc : Nat := 29
def srcConfig : Nat := 30
def srcStagePoison : Nat := 34
def srcSipUnc : Nat := 35
def srcCollAbort : Nat := 36
def srcScaleMismatch : Nat := 37
def srcRepair : Nat := 42
def srcHot : Nat := 44
def srcCrypto : Nat := 47
def srcRng : Nat := 48
def srcUndervolt : Nat := 50
def srcBrownout : Nat := 51
def srcSelftest : Nat := 55
def srcRefclkLost : Nat := 56

/-- The class of a source, coded as FC_FIRST.CLASS: 0 reserved, 1 C, 2 U, 3 F (Table 17.1). -/
def srcClass (n : Nat) : Nat :=
  if n ∈ [0, 1, 3, 6, 7, 8, 10, 13, 21, 24, 29, 30, 32, 40, 42, 44, 51, 53, 57, 58] then 1
  else if n ∈ [2, 4, 5, 17, 19, 20, 25, 26, 27, 34, 35, 36, 37, 48] then 2
  else if n ∈ [9, 11, 12, 16, 18, 22, 28, 33, 41, 43, 46, 47, 50, 52, 54, 55, 56, 59] then 3
  else 0

/-- The sources of a class as a mask over FC_STATUS. -/
def classMask (c : Nat) : Word :=
  ((List.range 64).filter fun n => srcClass n = c).foldl (fun w n => w ||| BitVec.ofNat 64 (1 <<< n)) 0

/-- A U or F bit is set. -/
def anyUF (w : Word) : Bool := decide (w &&& (classMask 2 ||| classMask 3) ≠ 0)

/-- FAULT_OUT for a status word: [0] any U bit, [1] any F bit (Table 2.11). -/
def faultOutOf (w : Word) : BitVec 2 :=
  BitVec.ofNat 2 (b2n (decide (w &&& classMask 2 ≠ 0)) + 2 * b2n (decide (w &&& classMask 3 ≠ 0)))

/-- FAULT_OUT follows FC_STATUS; once HCLK is lost it holds its last value (R420). -/
def State.driveFaultOut (s : State) : State :=
  if s.pins.hclkDead then s else { s with pins := { s.pins with faultOut := faultOutOf s.fc.status } }

/-- ERR_N is driven low: during a pulse, and otherwise while DRIVE is 1 (R419). -/
def State.errN (s : State) : Bool := s.fc.pulse.isSome || s.fc.drive

/-! ### FAULTB (R427) -/

/-- The FAULTB packet for a source. -/
def State.faultbPkt (s : State) (src : Nat) (inj : Bool) : Pkt :=
  { op := 0x23, ptag := s.p0Tag, src := s.chip, dst := (s.reg 0x10048).extractLsb' 0 11, len := 32,
    data := leBytes 8 (src + srcClass src <<< 6 + b2n inj <<< 8 + s.chip.toNat <<< 9) ++ leBytes 8 s.now.toNat ++
      leBytes 8 s.fc.status.toNat ++ zeros 8 }

/-- A report is due when a source's bit has risen: U sources, C sources with WITH_C, FAR_FATAL always (R427);
none in the safe state (Table 17.5). -/
def State.reports (s : State) (src : Nat) : Bool :=
  let r := s.reg 0x10048
  bit r 63 && !s.fc.safe && (decide (srcClass src = 2) || (decide (srcClass src = 1) && bit r 62) || decide (src = srcFarFatal))

/-- Sends a FAULTB; in curfew it waits for the resume with what else waits to be admitted. -/
def State.report (s : State) (p : Pkt) : State :=
  if s.obs.curfew.on && !s.fc.safe then { s with admitQ := s.admitQ ++ [p] } else s.send p

/-! ### Safe state (R421 to R423) -/

/-- Every E-port command accepted and still in flight completes with POISON, one whose completion waits too; the owed WD beats are still consumed (R423). -/
def EPort.poison (p : EPort) : EPort :=
  let open_ := p.flight.filter fun c => decide (c.2.stage ≠ .answered)
  { p with
    flight := p.flight.map fun c => (c.1, { c.2 with stage := .answered })
    cplQ := (p.cplQ.map fun c => (c.1, BitVec.ofNat 4 stPoison, [])) ++ open_.map fun c => (c.1, BitVec.ofNat 4 stPoison, []) }

/-- Entry to the safe state (Table 17.2): the core stops, a brown-out hold ends (R88), a commit that is BUSY ends
refused with RESULT SAFE (R477; the detection records CONFIG), onward entries are discarded (R245), every link that is not DOWN sends eight FATAL
blocks, and the E-ports answer POISON. -/
def State.enterSafe (s : State) : State :=
  if s.fc.safe then s
  else
    let s := { s with
      fc := { s.fc with safe := true }
      pins := { s.pins with hold := false }
      onward := []
      commit := if s.commit.busy then { s.commit with busy := false, result := 4, detail := 0, waiting := [] }
        else { s.commit with waiting := [] } }
    let s := forEach (List.range 16) (fun n s => s.modEPort n EPort.poison) s
    s.onLinks 8 (fatalBlock s.chip)

/-! ### Detection (R417 to R421, R428) -/

/-- The source FC_FIRST takes of those detected in one handshake: the highest class, then the lowest bit (R418). -/
def firstOf (l : List Nat) : Option Nat :=
  l.foldl (fun b n =>
    match b with
    | none => some n
    | some m =>
      if srcClass m < srcClass n ∨ (srcClass m = srcClass n ∧ n < m) then some n else some m) none

/-- Sources are detected in one handshake: bits set, FC_FIRST captured or OVF set, a pulse of ERR_N started when the
first U or F bit rises (R417 to R419). -/
def State.record (s : State) (l : List Nat) (inj : Bool) : State :=
  let mask := l.foldl (fun w n => w ||| BitVec.ofNat 64 (1 <<< n)) 0
  let f := s.fc.first
  let first :=
    if f.valid then { f with ovf := true }
    else
      match firstOf l with
      | some n => { valid := true, ovf := decide (1 < l.length), inj := inj, cls := BitVec.ofNat 2 (srcClass n)
                    source := BitVec.ofNat 6 n, time := s.now }
      | none => f
  let start := anyUF mask && !anyUF s.fc.status && s.fc.pulse.isNone
  { s with fc := { s.fc with status := s.fc.status ||| mask, first := first
                             pulse := if start then some s.clk.up else s.fc.pulse } }.driveFaultOut

/-- The sources of one handshake put the block into the safe state: an F source, or an escalated one (R421, R428). -/
def State.fatal (s : State) (l : List Nat) : Bool :=
  let esc := s.reg 0x10058
  !s.fc.safe && l.any fun n => decide (srcClass n = 3) || bit esc n

/-- Sources `l` are detected in one handshake, with every reaction the collector itself gives (R416 to R421, R427,
R428): the record, the safe state for F and escalated sources, event counters, trigger units and FAULTB reports.
Reserved bits record nothing. A commit that the safe state ends is a source of that handshake, CONFIG (R470, R477). A report that
falls due in curfew goes out at resume (R454). -/
def State.raiseAll (s : State) (l : List Nat) (inj : Bool := false) : State :=
  let l := l.filter fun n => decide (srcClass n ≠ 0)
  if l = [] then s
  else
    let old := s.fc.status
    let stop := s.fatal l
    let l := if stop && s.commit.busy && !l.contains srcConfig then l ++ [srcConfig] else l
    let s := s.record l inj
    let s := if stop then s.enterSafe else s
    let s := forEach l (fun n s => s.count 0xC 0 n none) s
    let s := s.fireWhere fun t => decide (t.kind = 2) && bit s.fc.status t.index.toNat &&
      l.contains t.index.toNat
    forEach l (fun n s => if !bit old n && s.reports n then s.report (s.faultbPkt n inj) else s) s

/-- Source `n` is detected. -/
def State.raise (s : State) (n : Nat) : State := s.raiseAll [n]

/-- A protocol error of the port with HCLK crossing `x` (R33): its fault line is an event of the crossing (Table 3.5). -/
def State.portProto (s : State) (x : Nat) : State := (s.crossEvents x .proto 1).raise srcCpProto

end Sys2Proof.Machine
end

