-- ==== Sys2Proof/Machine/Carrier.lean ====
section
/-! DEFINITION. Access to carrier memory and scratchpad: how a request is cut into commands (R41), when a command is
issued (R43, R46, R85), and how answers are taken (R44, R48, R491). What follows an answered request stands with the
family that started it. -/

namespace Sys2Proof.Machine

/-! ### The scratchpad window (R42) -/

/-- First byte of the scratchpad window. -/
def State.spadBase (s : State) : Nat := bits (s.reg 0x110) 20 29 * 4096
/-- Bytes of the scratchpad window. -/
def State.spadSize (s : State) : Nat := bits (s.reg 0x110) 0 20 * 4096
/-- A local physical address lies inside the scratchpad window. -/
def State.inSpad (s : State) (a : Nat) : Bool := decide (s.spadBase ≤ a ∧ a < s.spadBase + s.spadSize)

/-! ### Cutting (R41) -/

/-- `[a, a + n)` cut at every 64-byte line, inside the scratchpad window at every 128 bytes. -/
def cutRange (inSpad : Nat → Bool) : Nat → Nat → Nat → List (Nat × Nat)
  | 0, _, _ => []
  | fuel + 1, a, n =>
    if n = 0 then []
    else
      let step := min n (if inSpad a then 128 - a % 128 else 64 - a % 64)
      (a, step) :: cutRange inSpad fuel (a + step) (n - step)

/-- An access under 64 bytes, one piece for each 32-byte block it touches. -/
def cutBlocks (a n : Nat) : List (Nat × Nat) :=
  if n = 0 then []
  else if a / 32 = (a + n - 1) / 32 then [(a, n)]
  else let k := 32 - a % 32; [(a, k), (a + k, n - k)]

/-- The port of an access inside one line (R41). -/
def State.portFor (s : State) (a n : Nat) : CPort :=
  if s.inSpad a then .s (Fin.ofNat 8 ((a - s.spadBase) / 128))
  else if n = 64 then .m (Fin.ofNat 24 (a / 64))
  else .n (Fin.ofNat 4 (a / 32))

/-- The commands for `[a, a + n)`: port, address, length. -/
def State.pieces (s : State) (a n : Nat) : List (CPort × Nat × Nat) :=
  (cutRange s.inSpad (n + 1) a n).flatMap fun r =>
    match s.portFor r.1 r.2 with
    | .n _ => (cutBlocks r.1 r.2).map fun b => (s.portFor b.1 b.2, b.1, b.2)
    | p => [(p, r.1, r.2)]

/-! ### Words and credits (Tables 2.2, 2.8) -/

/-- A port's number in the credit table: M0 to M23, S0 to S7, N0 to N3. -/
def portNum : CPort → Nat
  | .m i => i.val
  | .s i => 24 + i.val
  | .n i => 32 + i.val

/-- An N-port. -/
def isNPort : CPort → Bool
  | .n _ => true
  | _ => false

/-- Credits the block holds on channel `ch` (0 RCMD or N CMD, 1 WCMD, 2 WD) of a port. -/
def State.crd (s : State) (p : CPort) (ch : Nat) : Nat := s.cpCrd.get 0 (4 * portNum p + ch)
/-- Changes the credits on a channel. -/
def State.modCrd (s : State) (p : CPort) (ch : Nat) (f : Nat → Nat) : State :=
  { s with cpCrd := s.cpCrd.put 0 (4 * portNum p + ch) (f (s.crd p ch)) }

/-! ### The carrier's credits (R30, R31) -/

/-- Credits the carrier holds on RD, RSP or WACK of a port. -/
def State.rxCrd (s : State) (p : CPort) (wack : Bool) : Nat := s.cpRx.get 0 (2 * portNum p + b2n wack)

/-- `n` credits of a response channel are returned to the carrier. -/
def State.giveRx (s : State) (p : CPort) (wack : Bool) (n : Nat) : State :=
  let s : State := { s with cpRx := s.cpRx.put 0 (2 * portNum p + b2n wack) (s.rxCrd p wack + n) }
  (s.emit (.cpCredit p wack n)).crossEvents (cportXing p) (if wack then .wack else .rd) n

/-- A response beat takes its credit and leaves the receiver at once, so that the credit goes back. -/
def State.returnCredit (s : State) (p : CPort) (wack : Bool) : State :=
  State.giveRx { s with cpRx := s.cpRx.put 0 (2 * portNum p + b2n wack) (s.rxCrd p wack - 1) } p wack 1

/-- The channels a command takes a beat on. -/
def Acc.channels (a : Acc) : List Nat :=
  match a.port with
  | .n _ => [0]
  | _ => if a.write then [1, 2] else [0]

/-- Tags of a port's channel kind: 512, and 128 for an N-port (R43). -/
def tagLimit : CPort → Nat
  | .n _ => 128
  | _ => 512

/-- Two commands share a tag space: the same port, and on M and S ports the same kind (R43). -/
def Acc.sameTags (a b : Acc) : Bool :=
  decide (a.port = b.port) && (isNPort a.port || a.write == b.write)

/-- The tag of a command: one of its tag space that is free (R43). DESIGN CHOICE (log 160): the smallest. -/
def State.freeTag (s : State) (a : Acc) : Option Nat :=
  let used := (s.cpOut.filter fun b => b.sameTags a).map fun b => b.tag
  (List.range (tagLimit a.port)).find? fun t => !used.contains t

/-- `n` byte enables from byte `o`. -/
def enables (o n : Nat) : Nat := (2 ^ n - 1) <<< o

/-- The beats of a command (Table 2.8). -/
def State.beats (s : State) (a : Acc) : List Emit :=
  match a.port with
  | .m _ =>
    let w := BitVec.ofNat 64 (a.tag <<< 55 ||| (a.addr / 64) <<< 6)
    if a.write then [.wcmd a.port w, .wd a.port a.data (BitVec.ofNat 128 (enables 0 64))] else [.rcmd a.port w]
  | .s _ =>
    let o := a.addr - s.spadBase
    let w := BitVec.ofNat 64 (a.tag <<< 55 ||| (o / 128 % 2 ^ 25) <<< 7)
    if a.write then
      [.wcmd a.port w, .wd a.port (overlay (zeros 128) (o % 128) a.data) (BitVec.ofNat 128 (enables (o % 128) a.len))]
    else [.rcmd a.port w]
  | .n _ =>
    let w := BitVec.ofNat 64 (b2n a.write <<< 63 ||| a.tag <<< 56 ||| (a.addr / 32) <<< 5)
    if a.write then
      [.ncmd a.port w (overlay (zeros 32) (a.addr % 32) a.data) (BitVec.ofNat 32 (enables (a.addr % 32) a.len))]
    else [.ncmd a.port w (zeros 32) 0]

/-! ### Order and interlock (R45, R46, R229, R232) -/

/-- Two ranges touch one 8-byte word. -/
def touch (a n b m : Nat) : Bool := decide (a / 8 ≤ (b + m - 1) / 8 ∧ b / 8 ≤ (a + n - 1) / 8)
/-- Two commands touch one 8-byte word. -/
def Acc.meets (a b : Acc) : Bool := touch a.addr a.len b.addr b.len

/-- An atomic whose read is answered and whose write back is not queued yet. -/
def Job.between (j : Job) : Bool :=
  match j.what with
  | .atomRead _ _ _ => decide (j.left = 0)
  | _ => false

/-- An atomic between its read and its write back holds the interlock over `a` (R46). -/
def State.locked (s : State) (a : Acc) : Bool :=
  (s.cpOut.any fun b => b.atom && !b.write && !b.dead && decide (b.job ≠ a.job) && b.meets a) ||
    (s.jobs.any fun j => j.between && decide (j.id ≠ a.job) && j.got.any fun e => touch e.1 e.2.length a.addr a.len) ||
    (s.cpq.any fun b => b.atom && b.write && decide (b.job ≠ a.job) && b.meets a)

/-- An earlier write of the same flow and page is not yet performed (R229). -/
def State.behind (s : State) (a : Acc) : Bool :=
  match s.jobs.find? fun j => j.id = a.job with
  | some j => decide (j.key ≠ 0) && s.jobs.any fun k => decide (k.key = j.key ∧ k.id < j.id)
  | none => false

/-- A command may be issued: new commands are allowed (R63, R85), a beat's credit is held on each channel, a tag is
free, no earlier waiting command with a write among the two touches its words, no interlock covers it, and an atomic's
read finds every earlier access to its word answered. -/
def State.mayIssue (s : State) (before : List Acc) (a : Acc) : Bool :=
  s.admits && (a.channels.all fun c => decide (0 < s.crd a.port c)) && (s.freeTag a).isSome &&
    (before.all fun b => !(b.meets a) || (!b.write && !a.write && !a.atom && !b.atom)) &&
    !s.locked a && !s.behind a &&
    (!(a.atom && !a.write) || !(s.cpOut.any fun b => b.meets a))

/-- Issues a command. -/
def State.issueAcc (s : State) (a : Acc) : State :=
  let a := { a with tag := (s.freeTag a).getD 0, at5 := s.clk.core }
  let s := a.channels.foldl (fun s c => s.modCrd a.port c (· - 1)) s
  let s := { s with cpOut := s.cpOut ++ [a] }
  let s := if a.write then match a.port with
      | .m _ => s.count 5 3 0xFFFF none
      | _ => s
    else s
  s.emits (s.beats a)

/-- A waiting command is issued if it may be. -/
def State.tryIssue (s : State) (a : Acc) : Option State :=
  if s.mayIssue (s.cpq.takeWhile (· ≠ a)) a then some (State.issueAcc { s with cpq := s.cpq.erase a } a) else none

/-- Several waiting commands are issued if all of them may be. -/
def issueAll : List Acc → State → Option State
  | [], s => some s
  | a :: l, s => (s.tryIssue a).bind (issueAll l)

/-- The commands that leave with a waiting one. The writes of one store leave together, so that nothing that stops the ports finds it
half written (R23, R65, R456); DESIGN CHOICE (log 164): up to 16 commands, which every store and copy of one packet keeps within. -/
def State.together (s : State) (a : Acc) : List Acc :=
  let l := s.cpq.filter fun b => b.write && decide (b.job = a.job)
  if a.write ∧ l.length ≤ 16 then l else [a]

/-- Issues what may be issued of the waiting commands, in order. -/
def pumpGo : List Acc → State → State
  | [], s => s
  | a :: l, s => pumpGo l (if s.cpq.contains a then (issueAll (s.together a) s).getD s else s)

/-- Issues what may be issued at the carrier ports. -/
def State.pumpPorts (s : State) : State := pumpGo s.cpq s

/-! ### Jobs -/

/-- An access of the Samovar: its reads are those of source and staging areas. -/
def JobFor.isSmv : JobFor → Bool
  | .smv _ _ _ _ => true
  | _ => false

/-- Starts a request to carrier memory: its reads `[a, a + n)` and its writes of data at addresses. -/
def State.startJob (s : State) (what : JobFor) (reads : List (Nat × Nat)) (writes : List (Nat × Bytes))
    (key : Nat := 0) (atom obs : Bool := false) : State :=
  let id := s.nextId
  let rd := (reads.flatMap fun r => s.pieces r.1 r.2).map fun p =>
    ({ job := id, port := p.1, write := false, addr := p.2.1, len := p.2.2, atom := atom, obs := obs, smv := what.isSmv } : Acc)
  let wr := writes.flatMap fun w => (s.pieces w.1 w.2.length).map fun p =>
    ({ job := id, port := p.1, write := true, addr := p.2.1, len := p.2.2, data := slice w.2 (p.2.1 - w.1) p.2.2
       atom := atom, obs := obs } : Acc)
  let l := rd ++ wr
  let s : State := { s.fresh with jobs := s.jobs ++ [{ id := id, what := what, left := l.length, key := key }] }
  let s : State := { s with cpq := if atom && !writes.isEmpty then l ++ s.cpq else s.cpq ++ l }
  s.pumpPorts

/-- A job goes on with writes of its own, ahead of what waits: an atomic's write back (R46). -/
def State.moreJob (s : State) (j : Job) (what : JobFor) (writes : List (Nat × Bytes)) : State :=
  let l := writes.flatMap fun w => (s.pieces w.1 w.2.length).map fun p =>
    ({ job := j.id, port := p.1, write := true, addr := p.2.1, len := p.2.2, data := slice w.2 (p.2.1 - w.1) p.2.2
       atom := true } : Acc)
  let s : State := { s with jobs := s.jobs.map (fun k => if k.id = j.id then { k with what := what, left := l.length } else k)
                            cpq := l ++ s.cpq }
  s.pumpPorts

/-- The status a request completes with (R491). -/
def Job.status (j : Job) : Nat :=
  if j.tmo then stTimeout else if j.dec then stBadaddr else if j.poi then stPoison else stOk

/-- Bytes `[a, a + n)` of what a job has read. -/
def Job.bytes (j : Job) (a n : Nat) : Bytes :=
  j.got.foldl (fun b e =>
    if e.1 + e.2.length ≤ a ∨ a + n ≤ e.1 then b
    else if a ≤ e.1 then (overlay b (e.1 - a) e.2).take n
    else (overlay b 0 (e.2.drop (a - e.1))).take n) (zeros n)

/-- Changes the job with a number. -/
def State.modJob (s : State) (id : Nat) (f : Job → Job) : State :=
  { s with jobs := s.jobs.map fun j => if j.id = id then f j else j }

end Sys2Proof.Machine
end

