-- ==== Sys2Proof/Machine/Flags.lean ====
section
/-! DEFINITION. Number formats (chapter 14): decoding, exact arithmetic with one rounding, integers with saturation, the
OVF and NAN flags, and the result of an atomic (R306). -/

namespace Sys2Proof.Machine

/-! ### Descriptors (Table 14.3, R355) -/

/-- A format in use. `special` 0 IEEE, 1 FN, 2 NONE; `width` in bits. -/
structure Fmt where
  int : Bool
  width : Nat
  special : Nat
  nonsat : Bool
  keepsub : Bool
  ew : Nat
  mw : Nat
  bias : Nat
  deriving DecidableEq, Repr

/-- The word of the active entry of a format code. -/
def State.fmtWord (s : State) (code : Nat) : Word := s.tables.fmt.get (fmtReset (16 * code)) (16 * code)
/-- The entry has VALID 1. -/
def State.fmtValid (s : State) (code : Nat) : Bool := bit (s.fmtWord code) 63

/-- The format an entry describes. -/
def Fmt.of (w : Word) : Fmt :=
  { int := bit w 62, width := 4 * 2 ^ bits w 60 2, special := bits w 58 2, nonsat := bit w 57, keepsub := bit w 56
    ew := bits w 48 4, mw := bits w 43 5, bias := bits w 35 8 }

/-- The format of a code in the table in force. -/
def State.fmt (s : State) (code : Nat) : Fmt := Fmt.of (s.fmtWord code)

/-- FP32 as fixed: no subnormals kept, saturating. -/
def fp32 : Fmt := Fmt.of (fmtReset 0)

/-- E and M of the largest finite code, together (R355). -/
def Fmt.maxEM (f : Fmt) : Nat :=
  if f.special = 0 then (2 ^ f.ew - 1) * 2 ^ f.mw - 1
  else if f.special = 1 then 2 ^ (f.ew + f.mw) - 2
  else 2 ^ (f.ew + f.mw) - 1

/-- E all ones and M zero: infinity under IEEE. -/
def Fmt.infEM (f : Fmt) : Nat := (2 ^ f.ew - 1) * 2 ^ f.mw
/-- The canonical NaN (R355), positive. -/
def Fmt.nanEM (f : Fmt) : Nat := if f.special = 0 then f.infEM + 2 ^ (f.mw - 1) else 2 ^ (f.ew + f.mw) - 1
/-- A code from its sign and its E and M together. -/
def Fmt.code (f : Fmt) (neg : Bool) (em : Nat) : Nat := b2n neg * 2 ^ (f.ew + f.mw) + em

/-! ### Values (R344, R345, R348) -/

/-- A decoded value: finite is (-1)^neg x m x 2^e. -/
inductive Val
  | nan
  | inf (neg : Bool)
  | fin (neg : Bool) (m : Nat) (e : Int)
  deriving DecidableEq, Repr

/-- Decodes a code: a subnormal of a format with KEEPSUB 0 is zero of its sign. -/
def Fmt.decode (f : Fmt) (c : Nat) : Val :=
  let neg := decide (c / 2 ^ (f.ew + f.mw) % 2 = 1)
  let em := c % 2 ^ (f.ew + f.mw)
  let e := em / 2 ^ f.mw
  let m := em % 2 ^ f.mw
  if f.special = 0 ∧ e = 2 ^ f.ew - 1 then if m = 0 then .inf neg else .nan
  else if f.special = 1 ∧ em = 2 ^ (f.ew + f.mw) - 1 then .nan
  else if e = 0 then if f.keepsub then .fin neg m (1 - f.bias - f.mw) else .fin neg 0 0
  else .fin neg (2 ^ f.mw + m) (e - f.bias - f.mw)

/-- The code of a number's own input: a flushed subnormal is zero of its sign (R351). -/
def Fmt.flush (f : Fmt) (c : Nat) : Nat :=
  match f.decode c with
  | .fin neg 0 _ => f.code neg 0
  | _ => c % 2 ^ f.width

/-- A result with the flags it sets. -/
structure Out where
  code : Nat
  ovf : Bool := false
  nan : Bool := false
  deriving DecidableEq, Repr

/-! ### Rounding (R349) -/

/-- a / b rounded to nearest, ties to even. -/
def roundDiv (a b : Nat) : Nat :=
  let q := a / b
  let r := a % b
  if b < 2 * r ∨ (2 * r = b ∧ q % 2 = 1) then q + 1 else q

/-- a / b x 2^k as a fraction of naturals. -/
def shiftFrac (a b : Nat) (k : Int) : Nat × Nat := if 0 ≤ k then (a * 2 ^ k.toNat, b) else (a, b * 2 ^ (-k).toNat)

/-- The exponent k with 2^k ≤ a / b < 2^(k + 1), for a above 0. -/
def expOf (a b : Nat) : Int :=
  let k : Int := (Nat.log2 a : Int) - Nat.log2 b
  let p := shiftFrac a b (-k)
  if p.1 < p.2 then k - 1 else k

/-- The overflow result (R349, step 2). -/
def Fmt.overflow (f : Fmt) (neg : Bool) : Out :=
  if !f.nonsat || decide (f.special = 2) then { code := f.code neg f.maxEM, ovf := true }
  else if f.special = 0 then { code := f.code neg f.infEM, ovf := true }
  else { code := f.code false f.nanEM, ovf := true, nan := true }

/-- Rounds (-1)^neg x num / den x 2^e, num above 0. -/
def Fmt.round (f : Fmt) (neg : Bool) (num den : Nat) (e : Int) : Out :=
  let k := expOf num den
  let p := shiftFrac num den (f.mw - k)
  let q := roundDiv p.1 p.2
  let up := decide (q = 2 ^ (f.mw + 1))
  let m := if up then 2 ^ f.mw else q
  let ex : Int := k + e + (if up then 1 else 0) + f.bias
  if ex ≤ 0 then
    if f.keepsub then
      let p := shiftFrac num den (e + f.bias + f.mw - 1)
      { code := f.code neg (roundDiv p.1 p.2) }
    else { code := f.code neg 0 }
  else
    let em := ex.toNat * 2 ^ f.mw + (m - 2 ^ f.mw)
    if f.maxEM < em then f.overflow neg else { code := f.code neg em }

/-! ### Operations (R350 to R352) -/

/-- The canonical NaN as a result. -/
def Fmt.nanOut (f : Fmt) : Out := { code := f.code false f.nanEM, nan := true }

/-- A finite value as an integer at scale 2^e. -/
def atScale (neg : Bool) (m : Nat) (k e : Int) : Int :=
  let v : Int := (m * 2 ^ (k - e).toNat : Nat)
  if neg then -v else v

/-- a + b. -/
def Fmt.add (f : Fmt) (a b : Nat) : Out :=
  match f.decode a, f.decode b with
  | .nan, _ | _, .nan => f.nanOut
  | .inf x, .inf y => if x = y then { code := f.code x f.infEM } else f.nanOut
  | .inf x, _ | _, .inf x => { code := f.code x f.infEM }
  | .fin x m e, .fin y n k =>
    let lo := min e k
    let v := atScale x m e lo + atScale y n k lo
    if v = 0 then { code := f.code (x && y && decide (m = 0) && decide (n = 0)) 0 }
    else f.round (decide (v < 0)) v.natAbs 1 lo

/-- The magnitude m x 2^e is below n x 2^k. -/
def magLt (m : Nat) (e : Int) (n : Nat) (k : Int) : Bool :=
  let lo := min e k
  decide (m * 2 ^ (e - lo).toNat < n * 2 ^ (k - lo).toNat)

/-- Magnitude order of decoded values. -/
def Val.magLt : Val → Val → Bool
  | .fin _ m e, .fin _ n k => Machine.magLt m e n k
  | .fin _ _ _, .inf _ => true
  | _, _ => false

/-- The sign of a value. -/
def Val.neg : Val → Bool
  | .fin x _ _ => x
  | .inf x => x
  | .nan => false

/-- a is below b, with -0 below +0. -/
def Val.lt (a b : Val) : Bool :=
  if a.neg && !b.neg then true
  else if !a.neg && b.neg then false
  else if a.neg then b.magLt a else a.magLt b

/-- The smaller (`max` false) or larger of two codes (R351). -/
def Fmt.pick (f : Fmt) (max : Bool) (a b : Nat) : Out :=
  match f.decode a, f.decode b with
  | .nan, _ | _, .nan => f.nanOut
  | x, y => { code := f.flush (if x.lt y = max then b else a) }

/-- The value of an integer of `w` bits. -/
def intVal (w : Nat) (sgn : Bool) (c : Nat) : Int :=
  let c := c % 2 ^ w
  if sgn && decide (2 ^ (w - 1) ≤ c) then (c : Int) - 2 ^ w else c

/-- Saturates to `w` bits (R352). -/
def intSat (w : Nat) (sgn : Bool) (v : Int) : Out :=
  let lo : Int := if sgn then -(2 ^ (w - 1)) else 0
  let hi : Int := if sgn then 2 ^ (w - 1) - 1 else 2 ^ w - 1
  let c := if v < lo then lo else if hi < v then hi else v
  { code := (c % 2 ^ w).toNat, ovf := decide (v < lo ∨ hi < v) }

/-- a + b of integers. -/
def intAdd (w : Nat) (sgn : Bool) (a b : Nat) : Out := intSat w sgn (intVal w sgn a + intVal w sgn b)
/-- The smaller or larger of two integers. -/
def intPick (w : Nat) (sgn max : Bool) (a b : Nat) : Out :=
  { code := (if decide (intVal w sgn a < intVal w sgn b) = max then b else a) % 2 ^ w }

/-- One addition in a format, for elements of `w` bits (R348 to R352). -/
def Fmt.sum (f : Fmt) (sgn : Bool) (a b : Nat) : Out := if f.int then intAdd f.width sgn a b else f.add a b

/-! ### Flags (R353) -/

/-- Sets the flags an operation gives, for a partition. -/
def State.setFlags (s : State) (part : Nat) (o : Out) : State :=
  { s with fmtFlags := s.fmtFlags ||| (if o.ovf then BitVec.ofNat 64 (1 <<< part) else 0) |||
      (if o.nan then BitVec.ofNat 64 (1 <<< (32 + part)) else 0) }

/-! ### Atomics (R305, R306) -/

/-- The operation of an opcode's low bits. -/
def AtomOp.of (n : Nat) : AtomOp :=
  match n % 8 with
  | 0 => .aadd | 1 => .amin | 2 => .amax | 3 => .aand | 4 => .aor | 5 => .axor | 6 => .aswp | _ => .acas

/-- The operation's number. -/
def AtomOp.num : AtomOp → Nat
  | .aadd => 0 | .amin => 1 | .amax => 2 | .aand => 3 | .aor => 4 | .axor => 5 | .aswp => 6 | .acas => 7

/-- AADD, AMIN and AMAX compute in a format. -/
def AtomOp.arith : AtomOp → Bool
  | .aadd | .amin | .amax => true
  | _ => false

/-- A combination that Table 12.8 accepts: SIZE 0 to 3 for 1, 2, 4 and 8 bytes. -/
def atomAccepts (op : AtomOp) (fmt size : Nat) (sgn : Bool) : Bool :=
  if !op.arith then decide (fmt = 0 ∧ size ≤ 3) && !sgn
  else
    match fmt with
    | 0 => decide (size = 2) && !sgn
    | 1 | 2 => decide (size = 1) && !sgn
    | 3 | 4 => decide (size = 0) && !sgn
    | 8 => decide (size = 2 ∨ size = 3)
    | 9 => decide (size = 1)
    | 10 => decide (size = 0)
    | _ => false

/-- The new value of an atomic over operands of SIZE bytes; `desc` is the format entry of a FMT below 8. -/
def atomNew (op : AtomOp) (desc : Word) (fmt size : Nat) (sgn : Bool) (old a b : Nat) : Out :=
  let w := 8 * 2 ^ size
  let old := old % 2 ^ w
  let a := a % 2 ^ w
  let b := b % 2 ^ w
  match op with
  | .aadd => if 8 ≤ fmt then intAdd w sgn old a else (Fmt.of desc).add old a
  | .amin => if 8 ≤ fmt then intPick w sgn false old a else (Fmt.of desc).pick false old a
  | .amax => if 8 ≤ fmt then intPick w sgn true old a else (Fmt.of desc).pick true old a
  | .aand => { code := old &&& a }
  | .aor => { code := old ||| a }
  | .axor => { code := old ^^^ a }
  | .aswp => { code := a }
  | .acas => { code := if old = a then b else old }

end Sys2Proof.Machine
end

