-- ==== Sys2Proof/Machine/Exec.lean ====
section
/-! DEFINITION. Queues, stewards and sync objects as every instruction uses them (chapter 11): updates and waiter lists
(R287 to R289), contexts (R283, R285), the instruction cache (R281), retiring and parking (R284, R298, R301), faults of
a queue (R293, R294), and the steward's choice (R284, R286). Tastes are accepted here too, since an update may start one
(R444). -/

namespace Sys2Proof.Machine

/-! ### Instances and fields -/

/-- Queue `q`. -/
def State.queue (s : State) (q : Nat) : Queue := s.queues.get {} q
/-- Replaces queue `q`. -/
def State.setQueue (s : State) (q : Nat) (d : Queue) : State := { s with queues := s.queues.put {} q d }
/-- Changes queue `q`. -/
def State.modQueue (s : State) (q : Nat) (f : Queue → Queue) : State := s.setQueue q (f (s.queue q))
/-- Steward `n`. -/
def State.stw (s : State) (n : Nat) : Stw := s.stws.get {} n
/-- Replaces steward `n`. -/
def State.setStw (s : State) (n : Nat) (w : Stw) : State := { s with stws := s.stws.put {} n w }
/-- Changes steward `n`. -/
def State.modStw (s : State) (n : Nat) (f : Stw → Stw) : State := s.setStw n (f (s.stw n))
/-- Sync object `n`. -/
def State.sync (s : State) (n : Nat) : Sync := s.syncs.get {} n
/-- Replaces sync object `n`. -/
def State.setSync (s : State) (n : Nat) (o : Sync) : State := { s with syncs := s.syncs.put {} n o }

def Queue.valid (d : Queue) : Bool := bit d.bind 63
def Queue.part (d : Queue) : Nat := bits d.bind 59 4
def Queue.pool (d : Queue) : Nat := bits d.bind 55 4
def Queue.prio (d : Queue) : Nat := bits d.bind 53 2
/-- KIND is PROGRAM. -/
def Queue.program (d : Queue) : Bool := bit d.bind 52
def Queue.comm (d : Queue) : Bool := bit d.bind 51
def Queue.group (d : Queue) : Nat := bits d.bind 42 9
def Queue.fsyncEn (d : Queue) : Bool := bit d.bind 41
def Queue.fsync (d : Queue) : Nat := bits d.bind 29 12
def Queue.lines (d : Queue) : Nat := bits d.ring 40 20
/-- Instructions in the ring (R272). -/
def Queue.size (d : Queue) : Nat := 4 * d.lines
def Queue.base (d : Queue) : Nat := 64 * bits d.ring 0 35
def Queue.saveAt (d : Queue) : Nat := 64 * bits d.save 0 35

def Stw.en (w : Stw) : Bool := bit w.ctl 63
def Stw.pool (w : Stw) : Nat := bits w.ctl 0 4

/-- The numbers of the stewards. -/
def stewardIds : List Nat := List.range 64

/-- The context a queue holds: steward, slot, context. -/
def State.ctxOf (s : State) (q : Nat) : Option (Nat × Nat × Ctx) :=
  stewardIds.findSome? fun n => ((s.stw n).ctxs.find? fun c => c.2.queue = q).map fun c => (n, c.1, c.2)

/-- The request is one of queue `q`'s. -/
def Req.ofQueue (r : Req) (q : Nat) : Bool :=
  match r.who with
  | .insn p _ => decide (p = q)
  | _ => false

/-- Requests of a queue that are issued and not completed (Q_STAT.OUTSTANDING). A refused COPY write counts on while its data is read
again, and that read counts with it. -/
def State.outstanding (s : State) (q : Nat) : Nat :=
  (s.reqs.filter fun r => r.ofQueue q && !r.dropped && !r.timedOut && !r.reread && r.firstAt.isSome).length

/-- The sync object is allocated to the partition (R290). -/
def State.syncOwned (s : State) (n part : Nat) : Bool := (s.sync n).alloc && decide ((s.sync n).part.toNat = part)

/-! ### Tastes are accepted (R444, R445) -/

/-- Word `w` of menu entry `i` in the table in force. -/
def State.menuWord (s : State) (i w : Nat) : Word := s.tables.menu.get 0 (32 * i + 8 * w)

/-- A TASTE record (Table 18.4). -/
def State.tasteRec (s : State) (outcome part name : Nat) (step : Word) (len : Nat) : State :=
  if s.traceSrc 3 then
    s.offer { type_ := 7, pv := true, part := BitVec.ofNat 4 part, unit_ := 0xD, inst := 0, aux := BitVec.ofNat 16 outcome,
              pay := leBytes 4 name ++ zeros 4 ++ leBytes 8 step.toNat ++ leBytes 8 len }
  else s

/-- Changes OBS_TASTE_CNT. -/
def State.modTaste (s : State) (f : TasteCnt → TasteCnt) : State :=
  { s with obs := { s.obs with tasteCnt := f s.obs.tasteCnt } }

/-- Element bytes of a menu entry: ceil(count x w / 8). -/
def State.menuLen (s : State) (i : Nat) : Nat :=
  let d := s.menuWord i 2
  (bits d 48 16 * bits d 32 16 * bits d 16 16 * bits d 0 16 * (s.fmt (bits (s.menuWord i 0) 54 4)).width + 7) / 8

/-- A pending taste or export is taken by the taste unit, unless four are pending (R444), the entry is larger than the
ring (TOO_BIG), or the operator area is not enabled (ABORTED). -/
def State.takeTaste (s : State) (t : Taste) : State :=
  let part := t.part.toNat
  let recd := fun (s : State) (o : Nat) => s.tasteRec o part t.name.toNat t.step t.len
  let total := 64 + (t.len + 63) / 64 * 64
  if 4 ≤ s.obs.tastes.length then recd (s.modTaste fun c => { c with busy := satAdd c.busy 1 }) 3
  else if !bit (s.reg 0x20400) 63 then recd (s.modTaste fun c => { c with aborted := satAdd c.aborted 1 }) 5
  else if bits (s.reg 0x20408) 0 29 * 4096 < total then
    recd (s.modTaste fun c => { c with tooBig := satAdd c.tooBig 1 }) 4
  else
    { s with obs := { s.obs with tastes := s.obs.tastes ++ [{ t with id := s.obs.tasteId }]
                                 tasteId := s.obs.tasteId + 1 } }

/-- The taste of menu entry `i` with a step. -/
def State.tasteEntry (s : State) (i : Nat) (step : Word) (queue : Option (Nat × Nat)) : State :=
  let w := s.menuWord i 0
  s.takeTaste { id := 0, queue := queue, part := w.extractLsb' 58 4, fmt := w.extractLsb' 54 4, name := w.extractLsb' 0 32
                step := step, shape := s.menuWord i 2, lpa := bits (s.menuWord i 1) 0 41, len := s.menuLen i
                entry := some i }

/-! ### Sync objects -/

/-- The condition of a WAIT: op 0 is unsigned ≥, 1 is =, 2 is ≠ (R289). -/
def waitHolds (op : Nat) (value operand : Word) : Bool :=
  if op = 0 then decide (operand ≤ value) else if op = 1 then decide (value = operand) else decide (value ≠ operand)

/-- A waiting queue's condition holds for a value. -/
def Queue.satisfied (d : Queue) (v : Word) : Bool :=
  match d.park with
  | .sync _ op x => waitHolds op v x
  | _ => false

/-! ### Contexts (R283, R285) -/

/-- The bytes of a save: g0 to g15, then PC and the progress of the instruction. Where in bytes 128 to 255 these stand the
spec does not say (DESIGN CHOICE, log 30). -/
def Queue.saveBytes (d : Queue) (regs : List Word) : Bytes :=
  slice (wordsBytes regs) 0 128 ++ leBytes 8 d.pc ++ leBytes 8 ((d.insns.find? fun i => !i.retired).map (·.off) |>.getD 0) ++
    zeros 112

/-- A queue's registers, its PC and its progress go to its save area (R285). -/
def State.saveCtx (s : State) (n q : Nat) (regs : List Word) : State :=
  (s.modQueue q fun d => { d with saved := some d.pc, fresh := none }).startJob (.ctxSave n q) []
    [((s.queue q).saveAt, (s.queue q).saveBytes regs)]

/-- A queue leaves its context, which is saved (R285). One that is stopped before its first load is saved with the registers
that its start gave it. -/
def State.leave (s : State) (q : Nat) : State :=
  match s.ctxOf q with
  | none =>
    match (s.queue q).fresh with
    | some regs =>
      if (s.queue q).valid && decide ((s.queue q).st = .halted ∨ (s.queue q).st = .faulted) then s.saveCtx 0 q regs else s
    | none => s
  | some (n, _, c) =>
    let s := s.modStw n fun w => { w with ctxs := w.ctxs.filter fun e => decide (e.2.queue ≠ q) }
    if c.loading then
      { s with jobs := s.jobs.map fun j => if j.what = .ctxLoad n q then { j with what := .void } else j }
    else if (s.queue q).fresh.isSome ∨ !(s.queue q).valid then s
    else s.saveCtx n q c.regs

/-- The next instruction's ring line. -/
def Queue.line (d : Queue) : Nat := d.pc / 4

/-- Cached lines of a queue that `bad` names are invalidated, and lines on their way are dropped (R281). -/
def State.dropLines (s : State) (q : Nat) (bad : Nat → Bool) : State :=
  let s : State := { s with jobs := s.jobs.map fun j =>
    match j.what with
    | .ringLine _ p l => if p = q ∧ bad l = true then { j with what := .void } else j
    | _ => j }
  forEach stewardIds (fun n s =>
    if (s.stw n).cache.any fun e => decide (e.1 = q) && bad e.2.1 then
      s.modStw n fun w => { w with cache := w.cache.filter fun e => !(decide (e.1 = q) && bad e.2.1) }
    else s) s

/-- Writes registers of a queue: in its context, or held with its descriptor until the next load (R301). -/
def State.writeRegs (s : State) (q : Nat) (l : List (Nat × Word)) : State :=
  if l = [] then s
  else
    match s.ctxOf q with
    | some (n, slot, c) =>
      if c.loading then s.modQueue q fun d => { d with answer := d.answer ++ l }
      else
        let regs := l.foldl (fun r e => r.set e.1 e.2) c.regs
        s.modStw n fun w => { w with ctxs := w.ctxs.map fun e => if e.1 = slot then (slot, { c with regs := regs }) else e }
    | none => s.modQueue q fun d => { d with answer := d.answer ++ l }

/-- A load has ended with registers `regs`: held answers are applied (R285, R301). -/
def State.loaded (s : State) (n q : Nat) (regs : List Word) : State :=
  let d := s.queue q
  let regs := d.answer.foldl (fun r e => r.set e.1 e.2) regs
  (s.modStw n fun w =>
      { w with ctxs := w.ctxs.map fun e => if e.2.queue = q then (e.1, { e.2 with regs := regs, loading := false }) else e }
    ).setQueue q { d with answer := [], fresh := none }

/-- PC and the progress of the present instruction come from the save area with a load (R285), unless the block has moved PC
since the save. A PC that the driver wrote moves the entry count of a FIFO queue forward with it (DESIGN CHOICE, log 30). -/
def Queue.withSaved (d : Queue) (pc : Nat) (off : Nat) : Queue :=
  if d.saved ≠ some d.pc then d
  else
    let pc := pc % max d.size 1
    { d with pc := pc, cnt := d.cnt + BitVec.ofNat 32 ((pc + max d.size 1 - d.pc) % max d.size 1)
             insns := d.insns.map fun i => if i.retired ∨ i.off = 0 then i else { i with off := min off i.len } }

/-- A load has ended with the bytes of the save area (R285). -/
def State.loadedFrom (s : State) (n q : Nat) (b : Bytes) : State :=
  (s.modQueue q fun d => d.withSaved (leNat (slice b 128 8)) (leNat (slice b 136 8))).loaded n q
    ((List.range 16).map fun i => word64 b (8 * i))

/-- A steward claims a queue: a free context, or that of the queue that has waited longest, which is saved; then the load
(R285). A queue just bound or started takes its registers from there and not from the save area (R273, R279). -/
def State.claim (s : State) (n q : Nat) : State :=
  let w := s.stw n
  let s :=
    if w.ctxs.length < 8 then s
    else
      match (w.ctxs.filter fun c => decide ((s.queue c.2.queue).st = .waiting)).foldl (fun b c =>
          match b with
          | none => some c.2.queue
          | some p => if (s.queue c.2.queue).since < (s.queue p).since then some c.2.queue else some p)
          (none : Option Nat) with
      | some p => s.leave p
      | none => s
  let used := (s.stw n).ctxs.map (·.1)
  let slot := ((List.range 8).find? fun i => !used.contains i).getD 0
  let s := s.modStw n fun w =>
    { w with ctxs := w.ctxs ++ [(slot, { queue := q, regs := List.replicate 16 0, loading := true })]
             loads := satAdd w.loads 1 }
  let s := s.count 6 1 n (some (s.queue q).part)
  match (s.queue q).fresh with
  | some regs => s.loaded n q regs
  | none => s.startJob (.ctxLoad n q) [((s.queue q).saveAt, 256)] []

/-! ### States of a queue -/

/-- Entries are released in ring order: HEAD_CNT stands at the oldest incomplete entry, and at the one FAULT_PC names while
the queue is FAULTED (R280, R295). A PROGRAM queue's HEAD_CNT is its argument. -/
def Queue.release (d : Queue) : Queue :=
  if d.program then d
  else
    let first := match d.insns with
      | i :: _ => i.cnt
      | [] => d.cnt
    match d.hold with
    | some h => if (h - d.head).toNat ≤ (first - d.head).toNat then { d with head := h } else { d with head := first }
    | none => { d with head := first }

/-- The number of queues a partition has bound. -/
def State.boundQueues (s : State) (part : Nat) : Nat :=
  (s.queues.filter fun e => e.2.valid && decide (e.2.st ≠ .unbound) && decide (e.2.part = part)).length

/-- SEC_PART_QUOTA of a partition. -/
def State.quota (s : State) (p : Nat) : Word := s.reg (0x31008 + 0x100 * p)

/-- The queue is unbound (R273). -/
def State.unbind (s : State) (q : Nat) : State :=
  let d := s.queue q
  (s.dropLines q fun _ => true).setQueue q
    { bind := d.bind &&& 0x7FFFFFFFFFFFFFFF, ring := d.ring, save := d.save, dbRej := d.dbRej }

/-- EXCESS marks after a quota cut (R274): the highest-numbered bound queues beyond the quota. -/
def State.markExcess (s : State) (part : Nat) : State :=
  let qs := (s.queues.filter fun e => e.2.valid && decide (e.2.st ≠ .unbound) && decide (e.2.part = part)).map (·.1)
  let beyond := qs.drop (bits (s.quota part) 50 14)
  forEach qs (fun q s =>
    if (s.queue q).excess = beyond.contains q then s else s.modQueue q fun d => { d with excess := beyond.contains q }) s

/-- The queue enters IDLE, and leaves its context; an EXCESS queue is unbound there (R274, R285). -/
def State.enterIdle (s : State) (q : Nat) : State :=
  let s := (s.modQueue q fun d => { d with st := .idle, park := .none }).leave q
  if (s.queue q).excess then
    let p := (s.queue q).part
    (s.unbind q).markExcess p
  else s

/-- A PROGRAM queue starts with an argument (R279). -/
def State.startProgram (s : State) (q : Nat) (arg : BitVec 32) : State :=
  let s := (s.dropLines q fun _ => true).leave q
  s.modQueue q fun d =>
    { d with pc := 0, head := arg, pend := false, st := .ready, park := .none, answer := []
             fresh := some (BitVec.ofNat 64 arg.toNat :: List.replicate 14 0 ++ [BitVec.ofNat 64 q]) }

/-- What a queue becomes when an instruction of it has ended or parked no longer: HALTED for a HALT written meanwhile, IDLE
for a FIFO whose PC has reached TAIL_CNT, otherwise READY. -/
def State.resumeQueue (s : State) (q : Nat) : State :=
  let d := s.queue q
  if d.halt then (s.setQueue q { d with halt := false, st := .halted, park := .none }).leave q
  else if !d.program && decide (d.cnt = d.tail) then s.enterIdle q
  else s.setQueue q { d with st := .ready, park := .none }

/-- A steward's context changes that wait for its boundary (R283, Table 11.4): all contexts saved with EN 0, those of queues
outside its pool after a change of pool. -/
def State.stwBoundary (s : State) (n : Nat) : State :=
  let w := s.stw n
  forEach (w.ctxs.map fun c => c.2.queue) (fun q s =>
    if !w.en || decide ((s.queue q).pool ≠ w.pool) then s.leave q else s) s

/-- The steward that runs a queue comes to an instruction boundary. -/
def State.freeStw (s : State) (q : Nat) : State :=
  match stewardIds.find? fun n => decide ((s.stw n).cur = some q) with
  | some n => (s.modStw n fun w => { w with cur := none }).stwBoundary n
  | none => s

/-- The present instruction of a queue: the one executed and not retired. -/
def Queue.present (d : Queue) : Option Insn := d.insns.find? fun i => !i.retired

/-- The queue still has a request of instruction `seq` open. -/
def State.insnOpen (s : State) (q seq : Nat) : Bool :=
  (s.reqs.any fun r => decide (r.who = .insn q seq) && !r.dropped && !r.timedOut) ||
    s.obs.tastes.any fun t => decide (t.queue = some (q, seq))

/-- Completed instructions leave the queue's list, and HEAD_CNT follows (R280). -/
def State.settleHead (s : State) (q : Nat) : State :=
  s.modQueue q fun d => { d with insns := d.insns.filter fun i => !i.retired || s.insnOpen q i.seq }.release

/-- The queue's present instruction retires: its register writes, its counts, and PC to the next entry or `d` entries on
(R284, R298, R302). -/
def State.retire (s : State) (q : Nat) (writes : List (Nat × Word)) (dist : Nat := 1) : State :=
  let d := s.queue q
  let s := s.writeRegs q writes
  let s := match s.ctxOf q with
    | some (n, _, _) =>
      (s.modStw n fun w => { w with retired := satAdd w.retired 1 }).count 6 0 n (some d.part)
    | none => s
  let s := s.count 7 0 q (some d.part)
  let s := s.modQueue q fun d =>
    { d with insns := d.insns.map fun i => if i.retired then i else { i with retired := true }
             pc := (d.pc + dist) % (max d.size 1), cnt := d.cnt + BitVec.ofNat 32 dist }
  s.settleHead q

/-- The present instruction has retired, and the queue goes on at its boundary. -/
def State.finish (s : State) (q : Nat) (writes : List (Nat × Word)) (dist : Nat := 1) : State :=
  ((s.retire q writes dist).resumeQueue q).freeStw q

/-- The queue parks (R301): WAITING, at a boundary, its context kept unless it is needed. -/
def State.parkQueue (s : State) (q : Nat) (p : Park) : State :=
  let s := (s.modQueue q fun d => { d with st := .waiting, park := p, since := s.nextId }).fresh
  s.freeStw q

/-- The queue leaves a waiter list. -/
def State.unwait (s : State) (q : Nat) : State :=
  match (s.queue q).park with
  | .sync n _ _ => s.setSync n { s.sync n with waiters := (s.sync n).waiters.filter (· ≠ q) }
  | _ => s

/-! ### Updates (R288) -/

/-- The queues an update releases, in list order; each retires its WAIT (R289). -/
def State.releaseWaiters (s : State) (n : Nat) : State :=
  let o := s.sync n
  let go := o.waiters.filter fun q => (s.queue q).satisfied o.value
  let s := s.setSync n { o with waiters := o.waiters.filter fun q => !(s.queue q).satisfied o.value }
  forEach go (fun q s => s.finish q []) s

/-- One update of a sync object: the value, the waiters tested against it, the trigger of KIND 0x1 (R441) and the menu
entries that taste at it (R443, R444). An object that SYNC_UNC struck discards it (Table 17.1). -/
def State.update (s : State) (n : Nat) (set : Bool) (v : Word) : State :=
  let o := s.sync n
  if o.bad then s else
  let x := if set then v else o.value + v
  let s := (s.setSync n { o with value := x }).releaseWaiters n
  let s := s.fireWhere fun t => decide (t.kind = 1) && decide (t.index.toNat = n) && decide (t.value = x)
  forEach (List.range 512) (fun i s =>
    let w := s.menuWord i 0
    if bit w 63 && bit w 62 && decide (bits w 42 12 = n) && decide (s.menuWord i 3 = x) then s.tasteEntry i x none
    else s) s

/-! ### Faults (R293, R294) -/

/-- Fault codes of Table 11.5. -/
def qfIllegal : Nat := 1
def qfPrivilege : Nat := 2
def qfFlow : Nat := 3
def qfSyncOwner : Nat := 4
def qfGroup : Nat := 5
def qfRequest : Nat := 6
def qfTimeout : Nat := 7
def qfPoison : Nat := 8
def qfFetch : Nat := 9
def qfCollAbort : Nat := 10
def qfScaleMismatch : Nat := 11
def qfConfig : Nat := 12
def qfHw : Nat := 13

/-- CLASS of a word. -/
def wordClass (w : BitVec 128) : Nat := bits w 124 4
/-- OP of a word. -/
def wordOp (w : BitVec 128) : Nat := bits w 116 8

/-- A request of queue `q` that has not been issued yet; a read that fills an outstanding write again is part of that write. -/
def Req.unissued (r : Req) (q : Nat) : Bool := r.ofQueue q && r.firstAt.isNone && !r.reread

/-- The queue issues nothing further (R293): its requests that have not been issued yet are given up. -/
def State.unissued (s : State) (q : Nat) : State := { s with reqs := s.reqs.filter fun r => !r.unissued q }

/-- How far a move has issued its packets, in bytes: to the first one that has not been issued. -/
def State.issuedTo (s : State) (q : Nat) (i : Insn) : Nat :=
  ((s.reqs.filter fun r => decide (r.who = .insn q i.seq) && r.unissued q).map fun r =>
    (r.fab - if r.write then i.dst else i.src).toNat).foldl min i.off

/-- What a fault leaves of an instruction: a move of pieces at PC that has issued packets keeps its progress, which START goes on from and SKIP
or RESTART gives up (R285, Table 12.14); every other one has nothing more to do. -/
def State.afterFault (s : State) (q : Nat) (i : Insn) : Insn :=
  let n := s.issuedTo q i
  if !i.retired && decide (wordClass i.word = 1 ∧ wordOp i.word ≠ 3 ∧ i.cnt = (s.queue q).cnt ∧ n ≠ 0) then { i with off := n } else { i with retired := true }

/-- A fault of queue `q`: the first is recorded with FAULT_PC, the queue enters FAULTED and leaves its context, and FSYNC is
signalled; a second sets only OVF. `at_` is ring index and entry count of the instruction at fault; `rec` is false where the
collector has recorded STW_HW already. -/
def State.queueFault (s : State) (q code info : Nat) (at_ : Nat × BitVec 32) (rec : Bool := true) : State :=
  match (s.queue q).st with
  | .unbound => s
  | .faulted => s.modQueue q fun d => { d with ovf := true }
  | _ =>
    let s := ((s.unwait q).modQueue q fun d => { d with st := .faulted, insns := d.insns.map fun i => s.afterFault q i }).leave q
    let d := s.queue q
    let s := s.setQueue q
      { d with code := BitVec.ofNat 8 code, info := BitVec.ofNat 4 info, faultPc := BitVec.ofNat 22 at_.1
               hold := if d.program then none else some at_.2, park := .none, halt := false }
    let s := ((s.unissued q).count 7 2 q (some d.part)).settleHead q
    let s := s.freeStw q
    let s := if code = qfHw ∧ rec = true then s.raise srcStwHw else s
    if d.fsyncEn then s.update d.fsync false 1 else s

/-- The present instruction fails as it executes: PC names the instruction after it (R293). -/
def State.execFault (s : State) (q code : Nat) (info : Nat := 0) (rec : Bool := true) : State :=
  let d := s.queue q
  let s := s.setQueue q { d with pc := (d.pc + 1) % (max d.size 1), cnt := d.cnt + 1 }
  s.queueFault q code info (d.pc, d.cnt) rec

/-- A request or another effect of instruction `seq` fails; with the instruction gone from the list, FAULT_PC names the
present PC. In a FAULTED queue it sets only OVF (R293). -/
def State.insnFault (s : State) (q seq code : Nat) (info : Nat := 0) : State :=
  let d := s.queue q
  match d.insns.find? fun i => i.seq = seq with
  | some i => if i.retired ∨ d.st = .faulted then s.queueFault q code info (i.pc, i.cnt) else s.execFault q code info
  | none => s.queueFault q code info (d.pc, d.cnt)

/-- The status of a failed completion as a queue fault (R304, R318): code and INFO. RSIG and the placement asks have no code
for POISON, so that it faults them REQUEST like every status but OK (R312). -/
def statusFault (op : BitVec 8) (st : Nat) : Nat × Nat :=
  if st = stTimeout then (qfTimeout, 0)
  else if st = stPoison ∧ op ≠ 0x82 ∧ op ≠ 0xC0 then (qfPoison, 0)
  else (qfRequest, st)

/-! ### Conditions that release FENCE, SIG and RSIG (R234, R236) -/

/-- Every earlier request of the queue has completed. -/
def State.quiet (s : State) (q : Nat) : Bool :=
  !(s.reqs.any fun r => r.ofQueue q && !r.dropped && !r.timedOut) && !(s.obs.tastes.any fun t => t.queue.any fun e => e.1 = q)

/-- Every earlier write and atomic of the queue has completed. -/
def State.written (s : State) (q : Nat) : Bool :=
  !(s.reqs.any fun r => r.ofQueue q && !r.dropped && !r.timedOut && r.write) && !(s.obs.tastes.any fun t => t.queue.any fun e => e.1 = q)

/-! ### Abandoning (R61, R279, R296) -/

/-- A request has left this chip and is not answered, or its returned bytes are being written here. -/
def Req.under (r : Req) : Bool :=
  match r.stage with
  | .sent | .again _ | .landing => true
  | _ => false

/-- Open requests of a queue are abandoned: their completions are discarded, and those that are not under way are not sent
(again). -/
def State.dropReqs (s : State) (q : Nat) : State :=
  { s with reqs := (s.reqs.filter fun r => !r.ofQueue q || r.under).map fun r =>
             if r.ofQueue q then { r with dropped := true } else r
           obs := { s.obs with tastes := s.obs.tastes.map fun t =>
             if (t.queue.any fun e => e.1 = q) then { t with queue := none } else t } }

/-- The queue's present instruction and its requests are abandoned, and its fault record is cleared. -/
def State.abandon (s : State) (q : Nat) : State :=
  let s := ((s.unwait q).dropReqs q)
  let s := s.modQueue q fun d =>
    { d with park := .none, halt := false, hold := none, insns := [], answer := [], code := 0, info := 0, ovf := false
             faultPc := 0 }
  s.freeStw q

/-- RESTART (R279), also the PROG action of the training table. -/
def State.restartQueue (s : State) (q : Nat) : State :=
  let d := s.queue q
  if d.st = .unbound ∨ d.bad = true then s
  else
    let s := State.dropLines (s.abandon q) q (fun _ => true)
    if d.program then s.startProgram q 0
    else
      (s.modQueue q fun d =>
        { d with pc := (d.pc + (d.tail - d.cnt).toNat) % (max d.size 1), cnt := d.tail, head := d.tail }).enterIdle q

/-- A queue of a partition that is reset (R61, Table 11.8): IDLE with nothing published. A descriptor that QDESC_UNC struck
still takes no Q_CTL command (Table 17.1). -/
def State.resetQueue (s : State) (q : Nat) : State :=
  let d := s.queue q
  if d.st = .unbound then s
  else
    let s := s.abandon q
    (s.modQueue q fun d =>
      { d with pc := if d.program then 0 else (d.pc + (d.tail - d.cnt).toNat) % (max d.size 1)
               cnt := if d.program then d.cnt else d.tail, head := d.tail, pend := false, dbRej := false }).enterIdle q

/-! ### Fetch (R281) -/

/-- The cached line that holds a queue's next instruction. -/
def State.cachedLine (s : State) (n q : Nat) : Option Bytes :=
  ((s.stw n).cache.find? fun e => decide (e.1 = q ∧ e.2.1 = (s.queue q).line)).map (·.2.2)

/-- The next instruction of a queue as steward `n` holds it. -/
def State.nextWord (s : State) (n q : Nat) : Option (BitVec 128) :=
  (s.cachedLine n q).map fun b => BitVec.ofNat 128 (leNat (slice b (16 * ((s.queue q).pc % 4)) 16))

/-- Fetches the ring lines a steward's resident queues wait for. -/
def State.fetchLines (s : State) (n : Nat) : State :=
  forEach ((s.stw n).ctxs.map (·.2)) (fun c s =>
    let d := s.queue c.queue
    if decide (d.st = .ready) && !c.loading && (s.cachedLine n c.queue).isNone &&
        !(s.jobs.any fun j => decide (j.what = .ringLine n c.queue d.line)) then
      s.startJob (.ringLine n c.queue d.line) [(d.base + 64 * d.line, 64)] []
    else s) s

/-- A line comes into the cache; the least recently used of more than 256 goes. -/
def State.cacheLine (s : State) (n q line : Nat) (b : Bytes) : State :=
  s.modStw n fun w =>
    { w with cache := ((q, line, b) :: w.cache.filter fun e => !decide (e.1 = q ∧ e.2.1 = line)).take 256 }

/-! ### The steward's choice (R284, R286) -/

/-- What a steward does at a boundary: nothing, claim a queue that is not resident, or run a queue's next instruction. -/
inductive Pick
  | none
  | claim (q : Nat)
  | run (q : Nat) (w : BitVec 128)
  deriving DecidableEq, Repr

/-- A READY queue of a steward's pool that the steward can serve. -/
def State.servable (s : State) (n q : Nat) : Bool :=
  let d := s.queue q
  decide (d.st = .ready) && decide (d.pool = (s.stw n).pool) &&
    match s.ctxOf q with
    | some (m, _, c) => decide (m = n) && !c.loading && (s.cachedLine n q).isSome
    | none =>
      decide ((s.stw n).ctxs.length < 8) || (s.stw n).ctxs.any fun c => decide ((s.queue c.2.queue).st = .waiting)

/-- Stewards other than `n` whose current queue belongs to a partition. -/
def State.shareOf (s : State) (n part : Nat) : Nat :=
  (s.stws.filter fun e => decide (e.1 ≠ n) && e.2.cur.any fun q => decide ((s.queue q).part = part)).length

/-- The first queue after `r` in rotation, of a list in ascending order. -/
def afterIn (r : Option Nat) (l : List Nat) : Option Nat :=
  match r with
  | some r => match l.find? fun q => r < q with
    | some q => some q
    | none => l.head?
  | none => l.head?

/-- The queue a steward chooses. -/
def State.choose (s : State) (n : Nat) : Option Nat :=
  let cand := (s.queues.map (·.1)).filter fun q => s.servable n q
  let share := fun q => s.shareOf n (s.queue q).part
  let ok := cand.filter fun q => decide (share q < min 64 (bits (s.quota (s.queue q).part) 23 7))
  let ok := match (s.stw n).yielded with
    | some y => if ok.any (· ≠ y) then ok.filter (· ≠ y) else ok
    | none => ok
  let low := ok.filter fun q => decide (share q < bits (s.quota (s.queue q).part) 30 7)
  let pick := if low = [] then ok else low
  let c := (pick.map fun q => (s.queue q).prio).foldl min 3
  afterIn (((s.stw n).rot.find? fun e => e.1 = c).map fun e => e.2) (pick.filter fun q => (s.queue q).prio = c)

/-- What steward `n` does at its boundary. -/
def State.pick (s : State) (n : Nat) : Pick :=
  if !s.admits || !(s.stw n).en || (s.stw n).cur.isSome then .none
  else
    match s.choose n with
    | none => .none
    | some q =>
      match s.ctxOf q with
      | none => .claim q
      | some _ =>
        match s.nextWord n q with
        | some w => .run q w
        | none => .none

/-- The steward begins to run queue `q`. The instruction is entered in the queue's list unless it is a move that goes on with
its next piece. -/
def State.begin (s : State) (n q : Nat) (w : BitVec 128) : State :=
  let d := s.queue q
  let s := s.modStw n fun v =>
    { v with cur := some q, yielded := none, rot := Tab.insert v.rot d.prio q
             cache := match v.cache.find? fun e => decide (e.1 = q ∧ e.2.1 = d.line) with
               | some e => e :: v.cache.erase e
               | none => v.cache }
  match d.present with
  | some _ => s.setQueue q { d with st := .active }
  | none =>
    s.setQueue q { d with st := .active, nextSeq := d.nextSeq + 1
                          insns := d.insns ++ [{ seq := d.nextSeq, pc := d.pc, cnt := d.cnt, word := w }] }

end Sys2Proof.Machine
end

