-- ==== Sys2Proof/Machine/Locate.lean ====
section
/-! DEFINITION. Fabric addresses (R210), rights (R213, R384, R385), segments, member sets and the hash (R246, R247), and the
lodging table (R251 to R253). -/

namespace Sys2Proof.Machine

/-! ### The plan and the board -/

/-- A chip is a KIND Kreup record of the plan in force (R131). -/
def State.isKreup (s : State) (id : Nat) : Bool := s.plan.ids.contains (1, BitVec.ofNat 11 id)
/-- Two chips are on one board. -/
def sameBoard (a b : Nat) : Bool := decide (a / 16 = b / 16)

/-! ### Fabric addresses (Table 9.1) -/

/-- SEL 0x01: rack-global. -/
def rackGlobal (a : Word) : Bool := decide (bits a 56 8 = 1)
/-- SEGMENT and PAGE of an ADDR field as one number. -/
def pageKey {w : Nat} (a : BitVec w) : Nat := bits a 21 35
/-- SEGMENT of a page. -/
def keySeg (k : Nat) : Nat := k / 2 ^ 25
/-- PAGE of a page. -/
def keyPage (k : Nat) : Nat := k % 2 ^ 25
/-- 2 MiB. -/
def mib2 : Nat := 0x200000
/-- The fabric address of a page. -/
def keyAddr (k : Nat) : BitVec 56 := BitVec.ofNat 56 (k * mib2)

/-! ### Segments and member sets -/

/-- The word at byte offset `o` of the Innkeeper table in force. -/
def State.innWord (s : State) (o : Nat) : Word := s.tables.inn.get (innReset o) o
/-- Word `w` of segment `g`. -/
def State.seg (s : State) (g w : Nat) : Word := s.innWord (0x1000 + 32 * g + 8 * w)
def State.segValid (s : State) (g : Nat) : Bool := bit (s.seg g 0) 63
def State.segRo (s : State) (g : Nat) : Bool := bit (s.seg g 0) 62
def State.segRepl (s : State) (g : Nat) : Bool := bit (s.seg g 0) 61
def State.segMig (s : State) (g : Nat) : Bool := bit (s.seg g 0) 60
def State.segOwner (s : State) (g : Nat) : Nat := bits (s.seg g 0) 56 4
def State.segMset (s : State) (g : Nat) : Nat := bits (s.seg g 0) 41 7
def State.segPages (s : State) (g : Nat) : Nat := bits (s.seg g 0) 15 26
def State.segHome (s : State) (g : Nat) : Nat := bits (s.seg g 1) 0 20
/-- Members of set `m`. -/
def State.msCount (s : State) (m : Nat) : Nat := bits (s.innWord (0x9000 + 8 * m)) 0 11
/-- Member `i` of set `m`. -/
def State.member (s : State) (m i : Nat) : Nat :=
  let o := 0x10000 + 2048 * m + 2 * i
  bits (s.innWord (8 * (o / 8))) (8 * (o % 8)) 11
/-- The members of a segment in list order. -/
def State.segMembers (s : State) (g : Nat) : List Nat :=
  (List.range (s.msCount (s.segMset g))).map fun i => s.member (s.segMset g) i
/-- A chip belongs to a segment's member set. -/
def State.isMember (s : State) (g chip : Nat) : Bool := (s.segMembers g).contains chip

/-- The member index of a page's hash chip among M members (R247). -/
def hashIdx (m seg page : Nat) : Nat :=
  let q := page / m
  (page % m + (40503 * q + 31153 * seg) % 65536 % m) % m

/-- The hash chip of a page (R247). -/
def State.hashChip (s : State) (k : Nat) : Nat :=
  let m := s.msCount (s.segMset (keySeg k))
  s.member (s.segMset (keySeg k)) (hashIdx m (keySeg k) (keyPage k))
/-- The home frame of a page, a local address on its hash chip. -/
def State.homeFrame (s : State) (k : Nat) : Nat :=
  (s.segHome (keySeg k) + keyPage k / s.msCount (s.segMset (keySeg k))) * mib2
/-- This chip is the page's hash chip. -/
def State.isHash (s : State) (k : Nat) : Bool := decide (s.hashChip k = s.chip.toNat)

/-! ### Rights -/

/-- A right on a segment: 0 read, 1 write, 2 atomic (R385). -/
def State.segRight (s : State) (part g r : Nat) : Bool :=
  bit (s.reg (0x32000 + 0x200 * part + 8 * (g / 16))) (4 * (g % 16) + r)

/-- One enabled board-flat window of a partition covers [a, a + n) with a right (R384). -/
def State.bfWindow (s : State) (part a n r : Nat) : Bool :=
  (List.range 8).any fun w =>
    let v := s.reg (0x31040 + 0x100 * part + 8 * w)
    let base := bits v 29 29 * 4096
    bit v 63 && bit v (62 - r) && decide (base ≤ a ∧ a + n ≤ base + bits v 0 29 * 4096)

/-- Steps 2 and 3 of R213 for `n` bytes from `a`, with right `r`: OK, BADADDR or DENIED. -/
def State.issueCheck (s : State) (part : Nat) (a : Word) (n r : Nat) : Nat :=
  let p := s.part part
  if rackGlobal a then
    let g := keySeg (pageKey a)
    if !s.segValid g || decide (s.segPages g * mib2 < bits a 0 46 + n) then stBadaddr
    else if !p.valid || !s.segRight part g r || (decide (r ≠ 0) && s.segRo g) then stDenied else stOk
  else if bits a 56 8 ≠ 0 ∨ bits a 45 11 ≠ 0 ∨ 2 ^ 41 < bits a 0 41 + n ∨
      s.isKreup (s.chip.toNat / 16 * 16 + bits a 41 4) = false then stBadaddr
  else if !p.valid || !p.bf then stDenied else stOk

/-- A local address operand (Table 12.2): OK, MALFORMED or DENIED. -/
def State.localCheck (s : State) (part : Nat) (a : Word) (n r : Nat) : Nat :=
  if bits a 41 23 ≠ 0 then stMalformed
  else if !(s.part part).valid || !s.bfWindow part (bits a 0 41) n r then stDenied else stOk

/-! ### The lodging table -/

/-- The set of a page (R251). -/
def lodgeSet (k : Nat) : Nat := (40503 * keyPage k + 31153 * keySeg k) % 131072
/-- Way `w` of set `n`. -/
def State.lodgeAt (s : State) (i : Nat) : Lodge := s.inn.lodge.get {} i
/-- The table index of a page's entry of a kind. -/
def State.lodgeIdx (s : State) (kind k : Nat) : Option Nat :=
  ((List.range 8).map (8 * lodgeSet k + ·)).find? fun i =>
    decide ((s.lodgeAt i).kind = kind ∧ (s.lodgeAt i).key = k)
/-- A page's entry of a kind. -/
def State.entry (s : State) (kind k : Nat) : Option Lodge := (s.lodgeIdx kind k).map s.lodgeAt

/-- Kinds of entries. -/
def kDir : Nat := 1
def kGuest : Nat := 2
def kReplica : Nat := 3
def kNote : Nat := 4

/-- Puts an entry at a table index; the default frees the way. -/
def State.putLodge (s : State) (i : Nat) (e : Lodge) : State := { s with inn := { s.inn with lodge := s.inn.lodge.put {} i e } }
/-- Frees a page's entry of a kind. -/
def State.freeLodge (s : State) (kind k : Nat) : State :=
  match s.lodgeIdx kind k with
  | some i => s.putLodge i {}
  | none => s
/-- Changes a page's entry of a kind. -/
def State.modLodge (s : State) (kind k : Nat) (f : Lodge → Lodge) : State :=
  match s.lodgeIdx kind k with
  | some i => s.putLodge i (f (s.lodgeAt i))
  | none => s

/-- Entries that count against a partition's exception quota (R252). -/
def State.exceptions (s : State) (part : Nat) : Nat :=
  (s.inn.lodge.filter fun e => decide (e.2.kind ≠ 0 ∧ e.2.part.toNat = part)).length

/-- Verdicts of Table 10.9. -/
def vGranted : Nat := 0
def vPinned : Nat := 1
def vBusyPage : Nat := 2
def vHold : Nat := 3
def vQuota : Nat := 4
def vSetFull : Nat := 5
def vNoFrame : Nat := 6
def vNotMember : Nat := 7
def vWrongKind : Nat := 8
def vReplFull : Nat := 9
def vSame : Nat := 10
def vHot : Nat := 11
def vNoReplica : Nat := 12

/-- The exception quota of the OWNER of a page's segment, and that it holds more entries here than that (R207). -/
def State.exceptQuota (s : State) (k : Nat) : Nat := bits (s.quota (s.segOwner (keySeg k))) 0 21
def State.overQuota (s : State) (k : Nat) : Bool := decide (s.exceptQuota k < s.exceptions (s.segOwner (keySeg k)))

/-- Whether a new entry of a kind can be made for a page: GRANTED, QUOTA or SET_FULL (R251, R252). -/
def State.canMake (s : State) (kind k : Nat) : Nat :=
  if (s.lodgeIdx kind k).isSome then vGranted
  else
    if s.exceptQuota k ≤ s.exceptions (s.segOwner (keySeg k)) then vQuota
    else if ((List.range 8).all fun w => decide ((s.lodgeAt (8 * lodgeSet k + w)).kind ≠ 0)) then vSetFull
    else vGranted

/-- Makes or updates a page's entry of a kind, in the lowest free way of its set (R251). -/
def State.makeLodge (s : State) (kind k : Nat) (f : Lodge → Lodge) : State :=
  match s.lodgeIdx kind k with
  | some i => s.putLodge i (f (s.lodgeAt i))
  | none =>
    match ((List.range 8).map (8 * lodgeSet k + ·)).find? fun i => decide ((s.lodgeAt i).kind = 0) with
    | some i => s.putLodge i (f { kind := kind, key := k, part := BitVec.ofNat 4 (s.segOwner (keySeg k)) })
    | none => s

/-! ### Frames (R249) -/

/-- INN_POOL_MEM and INN_POOL_SPAD: frames and first byte. -/
def State.pool (s : State) (spad : Bool) : Nat × Nat :=
  if spad then (bits (s.innWord 0x48) 32 12, s.spadBase + bits (s.innWord 0x48) 0 11 * mib2)
  else (bits (s.innWord 0x40) 40 20, bits (s.innWord 0x40) 0 20 * mib2)

/-- Frames of a pool that GUEST and REPLICA entries, and open placements, hold. -/
def State.heldFrames (s : State) (spad : Bool) : List Nat :=
  ((s.inn.lodge.filter fun e => decide ((e.2.kind = kGuest ∨ e.2.kind = kReplica) ∧ e.2.spad = spad)).map fun e =>
    e.2.frame.toNat) ++
  (s.inn.placements.filterMap fun l => (l.frame.filter fun f => f.1 = spad).map fun f => f.2)

/-- The lowest free frame of a pool among the first `fuel` of its frames not held. -/
def State.freeFrame (s : State) (spad : Bool) : Option Nat :=
  let held := s.heldFrames spad
  (List.range (min (s.pool spad).1 (held.length + 1))).find? fun i => !held.contains i

/-- The local address of a GUEST's or REPLICA's frame. -/
def State.frameAddr (s : State) (e : Lodge) : Nat := (s.pool e.spad).2 + e.frame.toNat * mib2

/-! ### Where a page is -/

/-- The local address of a page lodged at this chip (R20, R218, R249): in a GUEST's frame, or at the hash chip in the home
frame while no DIR entry names another chip. -/
def State.lodgedAt (s : State) (k : Nat) : Option Nat :=
  let guest := (s.entry kGuest k).filter fun e => !e.busy
  match guest with
  | some e => some (s.frameAddr e)
  | none =>
    if !s.isHash k then none
    else
      match s.entry kDir k with
      | some d => if d.chip = s.chip then some (s.homeFrame k) else none
      | none => some (s.homeFrame k)

/-- The local address of a valid replica held here. -/
def State.replicaAt (s : State) (k : Nat) : Option Nat :=
  ((s.entry kReplica k).filter fun e => !e.busy).map s.frameAddr

/-- Where a request for a page that is not lodged here goes onward: a forwarding note, or the hash chip's exception
(R218). -/
def State.onwardTo (s : State) (k : Nat) : Option (BitVec 11) :=
  match s.entry kNote k with
  | some e => some e.chip
  | none =>
    if s.isHash k then ((s.entry kDir k).filter fun d => decide (d.chip ≠ s.chip)).map (·.chip) else none

/-- The replica of a page on a requester's board, as the hash chip's DIR entry lists it (R262). -/
def State.steer (s : State) (k src : Nat) : Option (BitVec 11) :=
  if s.isHash k then (s.entry kDir k).bind fun d => d.repl.find? fun c => sameBoard c.toNat src else none

end Sys2Proof.Machine
end

