-- ==== Sys2Proof/Machine/Answers.lean ====
section
/-! DEFINITION. What a response of the carrier, or the want of one, does to the access it answers (Table 2.9, R33, R43, R48), with the
fault it records (Table 17.1). -/

namespace Sys2Proof.Machine

/-- The bytes of an access in its response beat. -/
def Acc.pick (a : Acc) (s : State) (data : Bytes) : Bytes :=
  match a.port with
  | .m _ => slice data 0 64
  | .s _ => slice data ((a.addr - s.spadBase) % 128) a.len
  | .n _ => slice data (a.addr % 32) a.len

/-- A read of a read-only page that lodges here: poison in it asks for a repair (R265). -/
def State.repairable (s : State) (p : Pkt) : Bool :=
  let k := pageKey p.addr
  !p.isBf && s.segRo (keySeg k) && (s.lodgedAt k).isSome

/-- The poison of a read whose record waits for the verdict on a repair (Table 17.1, bit 19). -/
def State.repairs (s : State) (a : Acc) : Bool :=
  !a.write && !s.fc.safe && s.jobs.any fun j => decide (j.id = a.job) && match j.what with
    | .serve p _ _ _ => s.repairable p
    | _ => false

/-- The source a response of STATUS `st` records (Table 2.9, Table 17.1): DECERR; and POISON to any command, a write or a save
among them, STAGE_POISON for a Samovar read. -/
def State.noteStatus (s : State) (a : Acc) (st : BitVec 2) : State :=
  if st = 2 then s.raise srcCpDecerr
  else if st = 1 && !s.repairs a then s.raise (if a.smv && !a.write then srcStagePoison else srcCpPoison)
  else s

/-- The save of a context: a POISON response fails it, as it fails a read (R282). -/
def JobFor.saves : JobFor → Bool
  | .ctxSave _ _ => true
  | _ => false

/-- A command is answered with STATUS `st` (Table 2.9) and, for a read, data. -/
def State.answer (s : State) (a : Acc) (st : BitVec 2) (data : Bytes) : State :=
  let wait := decide (st = 1) && s.repairs a
  let s := State.noteStatus { s with cpOut := s.cpOut.erase a } a st
  (s.modJob a.job fun j =>
    { j with
      left := j.left - 1
      dec := j.dec || decide (st = 2)
      poi := j.poi || (decide (st = 1) && (!a.write || j.what.saves))
      poiSeen := j.poiSeen || wait
      got := if a.write ∨ st ≠ 0 then j.got else j.got ++ [(a.addr, a.pick s data)] }).pumpPorts

/-- A response beat (R33, R43, R48): without a credit of its channel, with no outstanding command of its TAG, or with a
reserved status, a carrier port protocol error; for a command that timed out or was owed from before a reset it is discarded,
and its TAG is free. In the safe state its data is discarded and its source is recorded (R423, Table 17.5). The beat leaves the receiver at once, and its credit is returned (R30). -/
def State.respond (s : State) (port : CPort) (write : Option Bool) (tag : Nat) (st : BitVec 2) (data : Bytes) : State :=
  let wack := write == some true
  if s.rxCrd port wack = 0 then s.portProto (cportXing port)
  else
  let s := s.returnCredit port wack
  match s.cpOut.find? fun a => decide (a.port = port ∧ a.tag = tag) && (write.isNone || write == some a.write) with
  | none => s.portProto (cportXing port)
  | some a =>
    if st = 3 then s.portProto (cportXing port)
    else if a.dead then State.pumpPorts { s with cpOut := s.cpOut.erase a }
    else if s.fc.safe then State.noteStatus { s with cpOut := s.cpOut.erase a } a st
    else s.answer a st data

/-- A command times out (R48): a read counts as POISON, a write as failed; its TAG stays taken until the response. -/
def State.expire (s : State) (a : Acc) : State :=
  let s := { s with cpOut := s.cpOut.map fun b => if b = a then { b with dead := true } else b }
  let s := s.modJob a.job fun j =>
    { j with left := j.left - 1, tmo := j.tmo || a.write, poi := j.poi || !a.write }
  s.raise srcCpTmo

end Sys2Proof.Machine
end

