-- ==== Sys2Proof/Machine/LaneCounts.lean ====
section
/-! DEFINITION. The counts a lane keeps of its received bits and sync headers, brought up to the present before they are shown,
cleared or stopped (R97, R112, Table 4.18). What only the line knows of them is a free value (log 59). -/

namespace Sys2Proof.Machine

/-- Bits a lane receives in `d` units of 0.2 ns at a grade: 26.5625 Gb/s at G1, doubled at each further grade. -/
def lineBits (grade : BitVec 2) (d : Nat) : Nat := 85 * 2 ^ grade.toNat * d / 16

/-- Sync headers a lane receives in `d` units of 0.2 ns, one in 66 bits, and the time the first `k` of them take. -/
def lineHeads (grade : BitVec 2) (d : Nat) : Nat := lineBits grade d / 66
def headTime (grade : BitVec 2) (k : Nat) : Nat := (1056 * k + 85 * 2 ^ grade.toNat - 1) / (85 * 2 ^ grade.toNat)

/-- Invalid sync headers are counted (Table 4.18, Table 18.2): the increments are events of the lane's receive crossing. -/
def State.headerErrs (s : State) (n k : Nat) : State :=
  ((s.crossKey n .header k).modLane n fun l => { l with hdrErr := satAdd l.hdrErr k }).count 2 1 n none k

/-- As `headerErrs`, where the number may be 0. -/
def State.headerMore (s : State) (n k : Nat) : State := if k = 0 then s else s.headerErrs n k

/-- The counts of a header window take the headers that have come since they were last looked at (R97), of which `least` invalid ones
are known: headers come at the line rate, and how many more of them were invalid is a free value; all count in HDR_ERR too. The last
header of a window is WINDOW_DONE's. -/
def State.windowTake (s : State) (n least : Nat) : State :=
  let l := s.lane n
  let a := l.align
  if !a.counting || a.pend || !s.laneHears n then s
  else
    let room := 1023 - (a.good.toNat + a.bad.toNat)
    let m := min room least
    let k := max m (min room (lineHeads l.grade (s.clk.up - a.since)))
    let b := m + s.free.toNat % (k - m + 1)
    let a := { a with good := a.good + BitVec.ofNat 11 (k - b), bad := a.bad + BitVec.ofNat 11 b
                      since := a.since + headTime l.grade k }
    ((s.setLane n { l with align := a }).drew).headerMore n (b + (least - m))

/-- The counts of a header window are brought up to the present. -/
def State.windowSettle (s : State) (n : Nat) : State := s.windowTake n 0

/-- HDR_ERR takes the headers that have come, of which `least` invalid ones are known: in a header window by the window's count, and
otherwise the invalid headers that no row reports are a free value. -/
def State.headTake (s : State) (n least : Nat) : State :=
  let l := s.lane n
  if !s.laneHears n then s
  else if l.align.counting && !l.align.pend then (s.windowTake n least).modLane n fun l => { l with hdrFrom := s.clk.up }
  else
    let k := max least (lineHeads l.grade (s.clk.up - l.hdrFrom))
    ((s.setLane n { l with hdrFrom := l.hdrFrom + headTime l.grade k }).drew).headerMore n
      (least + s.free.toNat % (k - least + 1))

/-- HDR_ERR is brought up to the present. -/
def State.headSettle (s : State) (n : Nat) : State := s.headTake n 0

/-- The most errors a checker can see in `k` bits and stay locked: fewer than 32 in any 64 bits (R112). -/
def prbsMost (k : Nat) : Nat := min k (31 * ((k + 63) / 64))

/-- Sixteenths of a bit that a locked checker has compared since its counts were last looked at. -/
def Lane.prbsDue (l : Lane) (now : Nat) : Nat := 85 * 2 ^ l.grade.toNat * (now - l.prbs.since) + l.prbs.part

/-- The counts of a locked checker are brought up to the present. How many of the compared bits were wrong only the line
knows, so that part is a free value; they were too few to end the lock. -/
def State.prbsSettle (s : State) (n : Nat) : State :=
  let l := s.lane n
  if !l.prbs.lock then s
  else
    let t := l.prbsDue s.clk.up
    (s.setLane n
      { l with prbs := { l.prbs with bits := l.prbs.bits + t / 16, errs := l.prbs.errs + s.free.toNat % (prbsMost (t / 16) + 1)
                                     since := s.clk.up, part := t % 16 } }).drew

/-- A register of a lane's counts, at its offset in the lane's window, is brought up to the present. -/
def State.laneSettle (s : State) (n o : Nat) : State :=
  match o with
  | 0x48 => s.prbsSettle n
  | 0x50 => s.windowSettle n
  | 0x58 => s.headSettle n
  | _ => s

end Sys2Proof.Machine
end

