-- ==== Sys2Proof/Machine/Crossing.lean ====
section
/-! DEFINITION. Crossings between the core and the clocked domains: the credits the block returns at the carrier ports (R30,
R31, R85), and the reset handshake of a crossing (R82, R83). -/

namespace Sys2Proof.Machine

/-! ### E-port credits (R30, R31, R85) -/

/-- The E-port credits of a channel are withheld: in a hold and in the safe state on CMD and WD, in curfew on CMD (R63, R85,
Table 17.2). -/
def State.withholds (s : State) (wd : Bool) : Bool := s.pins.hold || s.fc.safe || (s.obs.curfew.on && !wd)

/-- Credits owed on a channel of an E-port are returned unless they are withheld. -/
def State.payEPort (s : State) (n : Nat) (wd : Bool) : State :=
  let p := s.eport n
  let k := if wd then p.wdOwed else p.cmdOwed
  if k = 0 ∨ s.withholds wd = true then s
  else
    let s := s.setEPort n
      (if wd then { p with wdCrd := p.wdCrd + k, wdOwed := 0 } else { p with cmdCrd := p.cmdCrd + k, cmdOwed := 0 })
    (s.emit (.eCredit n wd k)).crossEvents n (if wd then .wd else .cmd) k

/-- `k` credits of an E-port channel are due: they are returned at once unless they are withheld. -/
def State.oweEPort (s : State) (n : Nat) (wd : Bool) (k : Nat) : State :=
  (s.modEPort n fun p => if wd then { p with wdOwed := p.wdOwed + k } else { p with cmdOwed := p.cmdOwed + k }).payEPort n wd

/-- Credits withheld are returned once nothing withholds them. -/
def State.payCredits (s : State) : State :=
  forEach (List.range 16) (fun n s => (s.payEPort n false).payEPort n true) s

/-! ### Initial credits (R30, R31, Table 2.2) -/

/-- The carrier port of an HCLK crossing, if it is an M-, N- or S-port. -/
def hclkPort (n : Nat) : Option CPort :=
  if n < 16 then none
  else if n < 40 then some (.m (Fin.ofNat 24 (n - 16)))
  else if n < 44 then some (.n (Fin.ofNat 4 (n - 40)))
  else if n < 52 then some (.s (Fin.ofNat 8 (n - 44)))
  else none

/-- The management port's receiver returns its initial credits. -/
def State.grantMg (s : State) : State :=
  (State.emit { s with mgCmd := 16 } (.mgCredit 16)).crossEvents mgXing .cmd 16

/-- The receivers of a port that is out of reset return their initial credits: the management port at any stage, the others
once READY. -/
def State.grantPort (s : State) (n : Nat) : State :=
  if s.portReset n then s
  else if n = mgXing then s.grantMg
  else if s.boot.stage ≠ .ready then s
  else
    match hclkPort n with
    | some (.n i) => s.giveRx (.n i) false 64
    | some p => (s.giveRx p false 128).giveRx p true 128
    | none => (s.oweEPort n false 64).oweEPort n true 64

/-- READY: the E-, M-, N- and S-ports' initial credits. -/
def State.giveCredits (s : State) : State := forEach (List.range 52) (fun n s => s.grantPort n) s

/-! ### The reset handshake (Table 3.7) -/

/-- Number of a crossing in the table of crossings. -/
def xingKey : Crossing → Nat
  | .laneRx n => n.val
  | .laneTx n => 96 + n.val
  | .hclk n => hclkKey n.val
  | .milestone => 245
  | .tck => 246

/-- The handshake of one side of a crossing, and a change of it. -/
def Xing.side (x : Xing) (core : Bool) : HandLevels := if core then x.core else x.clk
def Xing.setSide (x : Xing) (core : Bool) (h : HandLevels) : Xing :=
  if core then { x with core := h } else { x with clk := h }
/-- One side flushes its half: its event counters return to zero, those it sends and its last accepted values of the
others. -/
def Xing.flush (x : Xing) (core : Bool) : Xing :=
  let clear := fun (own : Bool) (t : Tab EventCtr) (ch : EvCh) =>
    t.put {} ch.num (if own then { t.get {} ch.num with sent := 0 } else { t.get {} ch.num with taken := 0 })
  { x with ctrs := clkEvents.foldl (clear (!core)) (coreEvents.foldl (clear core) x.ctrs) }

/-- While either side of a carrier port is in reset, its credit counters are zero (R30). -/
def State.dropCredits (s : State) : Crossing → State
  | .hclk n =>
    match hclkPort n.val with
    | some p =>
      let s := forEach [0, 1, 2] (fun c s => s.modCrd p c fun _ => 0) s
      { s with cpRx := (s.cpRx.drop (2 * portNum p)).drop (2 * portNum p + 1) }
    | none =>
      if n.val < 16 then
        s.modEPort n.val fun p => { p with cmdCrd := 0, wdCrd := 0, cmdOwed := 0, wdOwed := 0, cplCrd := 0 }
      else { s with mgCrd := 0, mgCmd := 0 }
  | _ => s

/-- Out of reset, the receivers of a carrier port return their initial credits, and the headers of a lane are counted from then on. -/
def State.renewed (s : State) : Crossing → State
  | .hclk n => s.grantPort n.val
  | .laneRx n => s.modLane n.val fun l => { l with hdrFrom := s.clk.up, align := { l.align with since := s.clk.up } }
  | _ => s

/-- A side may leave reset: the clocked side of a lane's receive crossing not while clock recovery has no lock, which counts as its
reset (R82). -/
def State.mayLeave (s : State) (core : Bool) : Crossing → Bool
  | .laneRx n => core || (s.lane n.val).cdr
  | _ => true

/-- A side enters reset: it raises its request; the other side stops sending, flushes its half and raises its
acknowledgement. The headers of a lane count up to then. -/
def State.xingRequest (s : State) (x : Crossing) (core : Bool) : State :=
  let s : State := match x with
    | .laneRx n => s.headSettle n.val
    | _ => s
  let k := xingKey x
  let h := ((s.xings.get {} k).setSide core { req := true, ack := true }).flush !core
  State.dropCredits { s with xings := s.xings.put {} k h } x

/-- The side in reset sees the acknowledgement, flushes its half and may leave reset; both levels fall. -/
def State.xingAck (s : State) (x : Crossing) (core : Bool) : State :=
  let k := xingKey x
  let h := s.xings.get {} k
  if (h.side core).req && (h.side core).ack && s.mayLeave core x then
    let h := (h.setSide core {}).flush core
    let s : State := { s with xings := s.xings.put {} k h }
    if h.inReset then s else s.renewed x
  else s

end Sys2Proof.Machine
end

