-- ==== Sys2Proof/Machine/Crypto.lean ====
section
/-! DEFINITION. The check fields and cryptographic functions the spec names: CRC-64 (R161), SHA-384, HMAC, HKDF,
AES-256-GCM (R162) and ECDSA and ECDH on P-384. PRESUMED (log 20): the spec names these functions by their standards
and does not define them; they are written from FIPS 180-4, FIPS 197, SP 800-38D, RFC 2104, RFC 5869 and SEC 1. -/

namespace Sys2Proof.Machine

/-! ### CRC-64 (R161) -/

/-- One bit of the reflected CRC-64 of ECMA-182. -/
def crc64Bits : Nat → BitVec 64 → BitVec 64
  | 0, c => c
  | n + 1, c => crc64Bits n (if c.getLsbD 0 then (c >>> 1) ^^^ 0xC96C5795D7870F42 else c >>> 1)

/-- CRC-64 over bytes: polynomial of ECMA-182, reflected, initial value and final XOR all ones. -/
def crc64 (b : Bytes) : BitVec 64 :=
  ~~~(b.foldl (fun c x => crc64Bits 8 (c ^^^ x.zeroExtend 64)) (BitVec.allOnes 64))

/-! ### SHA-384 (FIPS 180-4) -/

/-- The primes below `n`, least first, for `n` up to 440. -/
def primesTo (n : Nat) : List Nat :=
  (List.range n).filter fun p => decide (1 < p) && (List.range 21).all fun d => d < 2 || p ≤ d || p % d != 0

/-- The greatest `r` under `r0 + 2 ^ n` whose `k`th power is at most `v`, `r0` being a lower bound. -/
def rootBelow (k v : Nat) : Nat → Nat → Nat
  | 0, r0 => r0
  | n + 1, r0 => rootBelow k v n (if (r0 + 2 ^ n) ^ k ≤ v then r0 + 2 ^ n else r0)

/-- The first 64 bits of the fraction of the `k`th root of `p`, which FIPS 180-4 takes its constants from. -/
def rootFrac (k p : Nat) : Word := BitVec.ofNat 64 (rootBelow k (p * 2 ^ (64 * k)) 69 0)

/-- The shift registers of the hash: `a` to `d` of FIPS 180-4 stand in `top`, `e` to `h` in `bot`, newest first. -/
structure ShaRegs where
  top : List Word
  bot : List Word

/-- The start of SHA-384: the square roots of the ninth to the sixteenth prime. -/
def shaStart : ShaRegs :=
  let v := ((primesTo 54).drop 8).map (rootFrac 2)
  ⟨v.take 4, v.drop 4⟩

/-- The exclusive or of three rotations of a word. -/
def spin (x : Word) (i j k : Nat) : Word := x.rotateRight i ^^^ (x.rotateRight j ^^^ x.rotateRight k)

/-- A round: both registers take in one word each, from the round's constant and schedule word added up in `kw`. -/
def ShaRegs.clock (r : ShaRegs) (kw : Word) : ShaRegs :=
  let t := fun i => r.top.getD i 0
  let b := fun i => r.bot.getD i 0
  let pick := b 2 ^^^ (b 0 &&& (b 1 ^^^ b 2))
  let major := (t 0 &&& t 1) ||| (t 2 &&& (t 0 ||| t 1))
  let fresh := spin (b 0) 14 18 41 + pick + kw + b 3
  ⟨(fresh + major + spin (t 0) 28 34 39) :: r.top.take 3, (t 3 + fresh) :: r.bot.take 3⟩

/-- The rounds for the constants `ks`: `win` is the window of the next sixteen schedule words, whose first is used and
whose successor joins at the end. -/
def ShaRegs.rounds : List Word → List Word → ShaRegs → ShaRegs
  | [], _, r => r
  | k :: ks, win, r =>
    let w := fun i => win.getD i 0
    let lo := (w 1).rotateRight 1 ^^^ (w 1).rotateRight 8 ^^^ w 1 >>> 7
    let hi := (w 14).rotateRight 19 ^^^ (w 14).rotateRight 61 ^^^ w 14 >>> 6
    rounds ks (win.drop 1 ++ [w 0 + lo + (w 9 + hi)]) (r.clock (k + w 0))

/-- One block of 128 bytes, `ks` being the constants: the cube roots of the first eighty primes. -/
def ShaRegs.absorb (ks : List Word) (r : ShaRegs) (b : Bytes) : ShaRegs :=
  let win := (List.range 16).map fun i => BitVec.ofNat 64 (beNat (slice b (8 * i) 8))
  let q := rounds ks win r
  ⟨List.zipWith (· + ·) r.top q.top, List.zipWith (· + ·) r.bot q.bot⟩

/-- SHA-384: 48 bytes. -/
def sha384 (m : Bytes) : Bytes :=
  let k := (239 - m.length % 128) % 128
  let p := m ++ [0x80] ++ zeros k ++ beBytes 16 (8 * m.length)
  let ks := (primesTo 410).map (rootFrac 3)
  let r := (List.range (p.length / 128)).foldl (fun r i => r.absorb ks (slice p (128 * i) 128)) shaStart
  (r.top ++ r.bot.take 2).flatMap fun w => beBytes 8 w.toNat

/-! ### HMAC and HKDF (RFC 2104, RFC 5869) -/

/-- HMAC with SHA-384. -/
def hmac (key m : Bytes) : Bytes :=
  let k := if 128 < key.length then sha384 key else key
  let k := k ++ zeros (128 - k.length)
  sha384 (k.map (· ^^^ 0x5C) ++ sha384 (k.map (· ^^^ 0x36) ++ m))

/-- HKDF-Extract. -/
def hkdfExtract (salt ikm : Bytes) : Bytes := hmac salt ikm

/-- The blocks of HKDF-Expand. -/
def hkdfGo (prk info : Bytes) : Nat → Nat → Bytes → Bytes
  | 0, _, _ => []
  | n + 1, i, t =>
    let t := hmac prk (t ++ info ++ [BitVec.ofNat 8 i])
    t ++ hkdfGo prk info n (i + 1) t

/-- HKDF-Expand to `len` bytes. -/
def hkdfExpand (prk info : Bytes) (len : Nat) : Bytes := (hkdfGo prk info ((len + 47) / 48) 1 []).take len

/-! ### AES-256 (FIPS 197) -/

/-- Multiplication by x in the field of AES. -/
def aesX (b : Byte) : Byte := if b.getLsbD 7 then (b <<< 1) ^^^ 0x1B else b <<< 1

/-- Multiplication in the field of AES, over the low `n` bits of `b`. -/
def aesMul : Nat → Byte → Byte → Byte
  | 0, _, _ => 0
  | n + 1, a, b => (if b.getLsbD 0 then a else 0) ^^^ aesMul n (aesX a) (b >>> 1)

/-- The inverse in the field of AES, as the 254th power. -/
def aesInv (b : Byte) : Byte :=
  let m := aesMul 8
  let b2 := m b b
  let b3 := m b2 b
  let b6 := m b3 b3
  let b7 := m b6 b
  let b14 := m b7 b7
  let b15 := m b14 b
  let b30 := m b15 b15
  let b31 := m b30 b
  let b62 := m b31 b31
  let b63 := m b62 b
  let b126 := m b63 b63
  let b127 := m b126 b
  m b127 b127

/-- The S-box. -/
def aesSub (b : Byte) : Byte :=
  let x := aesInv b
  x ^^^ x.rotateLeft 1 ^^^ x.rotateLeft 2 ^^^ x.rotateLeft 3 ^^^ x.rotateLeft 4 ^^^ 0x63

/-- The key schedule of AES-256: words of four bytes, oldest first. -/
def aesKeyGo : Nat → Nat → Byte → List Bytes → List Bytes
  | 0, _, _, w => w
  | n + 1, i, rc, w =>
    let t := w.getD (i - 1) []
    let u :=
      if i % 8 = 0 then
        match (t.drop 1 ++ t.take 1).map aesSub with
        | a :: r => (a ^^^ rc) :: r
        | [] => []
      else if i % 8 = 4 then t.map aesSub
      else t
    aesKeyGo n (i + 1) (if i % 8 = 0 then aesX rc else rc) (w ++ [List.zipWith (· ^^^ ·) (w.getD (i - 8) []) u])

/-- The fifteen round keys. -/
def aesKeys (key : Bytes) : List Bytes :=
  let w := aesKeyGo 52 8 1 ((List.range 8).map fun i => slice key (4 * i) 4)
  (List.range 15).map fun i => (List.range 4).flatMap fun j => w.getD (4 * i + j) []

/-- ShiftRows on a column-major block. -/
def aesShift (b : Bytes) : Bytes := (List.range 16).map fun i => b.getD ((i + 4 * (i % 4)) % 16) 0

/-- MixColumns on one column. -/
def aesCol (c : Bytes) : Bytes :=
  let g := fun i => c.getD (i % 4) 0
  (List.range 4).map fun i => aesX (g i) ^^^ (aesX (g (i + 1)) ^^^ g (i + 1)) ^^^ g (i + 2) ^^^ g (i + 3)

/-- One block under expanded round keys. -/
def aesBlockK (ks : List Bytes) (b : Bytes) : Bytes :=
  let x := List.zipWith (· ^^^ ·)
  let st := (List.range 13).foldl (fun st i =>
    let t := aesShift (st.map aesSub)
    x ((List.range 4).flatMap fun j => aesCol (slice t (4 * j) 4)) (ks.getD (i + 1) [])) (x b (ks.getD 0 []))
  x (aesShift (st.map aesSub)) (ks.getD 14 [])

/-- AES-256 of one block. -/
def aesBlock (key b : Bytes) : Bytes := aesBlockK (aesKeys key) b

/-! ### GCM (SP 800-38D) -/

/-- Multiplication in GF(2^128) of GCM over the high `n` bits of `x`, most significant bit first. -/
def gmulGo : Nat → BitVec 128 → BitVec 128 → BitVec 128 → BitVec 128
  | 0, _, _, z => z
  | n + 1, x, v, z =>
    gmulGo n (x <<< 1) (if v.getLsbD 0 then (v >>> 1) ^^^ (0xE1 <<< 120) else v >>> 1)
      (if x.getLsbD 127 then z ^^^ v else z)

/-- A block of bytes as a field element. -/
def gblock (b : Bytes) : BitVec 128 := BitVec.ofNat 128 (beNat (slice b 0 16))

/-- GHASH over a string of whole blocks. -/
def ghash (h : BitVec 128) (b : Bytes) : BitVec 128 :=
  (List.range (b.length / 16)).foldl (fun y i => gmulGo 128 (y ^^^ gblock (b.drop (16 * i))) h 0) 0

/-- Counter-mode encryption from counter `c` of a 12-byte IV. -/
def gctr (ks : List Bytes) (iv : Bytes) (c : Nat) (m : Bytes) : Bytes :=
  let pad := (List.range ((m.length + 15) / 16)).flatMap fun i => aesBlockK ks (iv ++ beBytes 4 (c + i))
  List.zipWith (· ^^^ ·) m pad

/-- The 16-byte tag of a ciphertext with its additional data. -/
def gcmTag (ks : List Bytes) (iv aad ct : Bytes) : Bytes :=
  let h := gblock (aesBlockK ks (zeros 16))
  let y := ghash h (padTo 16 aad ++ padTo 16 ct ++ beBytes 8 (8 * aad.length) ++ beBytes 8 (8 * ct.length))
  List.zipWith (· ^^^ ·) (beBytes 16 y.toNat) (aesBlockK ks (iv ++ beBytes 4 1))

/-- AES-256-GCM encryption: ciphertext and tag. -/
def gcmSeal (key iv aad pt : Bytes) : Bytes × Bytes :=
  let ks := aesKeys key
  let ct := gctr ks iv 2 pt
  (ct, gcmTag ks iv aad ct)

/-- AES-256-GCM decryption against the first `n` bytes of a tag. -/
def gcmOpen (key iv aad ct tag : Bytes) (n : Nat) : Option Bytes :=
  let ks := aesKeys key
  if (gcmTag ks iv aad ct).take n = tag.take n then some (gctr ks iv 2 ct) else none

/-! ### P-384 (SEC 1) -/

def p384 : Nat := 2 ^ 384 - 2 ^ 128 - 2 ^ 96 + 2 ^ 32 - 1
def p384n : Nat :=
  0xFFFFFFFFFFFFFFFFFFFFFFFFFFFFFFFFFFFFFFFFFFFFFFFFC7634D81F4372DDF581A0DB248B0A77AECEC196ACCC52973
def p384b : Nat :=
  0xB3312FA7E23EE7E4988E056BE3F82D19181D9C6EFE8141120314088F5013875AC656398D8A2ED19D2A85C8EDD3EC2AEF
def p384g : Nat × Nat :=
  (0xAA87CA22BE8B05378EB1C71EF320AD746E1D3B628BA79B9859F741E082542A385502F25DBF55296C3A545E3872760AB7,
   0x3617DE4A96262C6F5D9E98BF9292DC29F8F41DBD289A147CE9DA3113B5F0B8C00A60B1CE1D7E819D7A431D7C90EA0E5F)

/-- `b` to the power given by the low `n` bits of `e`, modulo `m`. -/
def powMod (m : Nat) : Nat → Nat → Nat → Nat
  | 0, _, _ => 1
  | n + 1, b, e =>
    let r := powMod m n (b * b % m) (e / 2)
    if e % 2 = 1 then r * b % m else r

/-- The inverse modulo a prime. -/
def invMod (m a : Nat) : Nat := powMod m 384 (a % m) (m - 2)

/-- A point of the curve, none at infinity. -/
abbrev Pt := Option (Nat × Nat)

/-- Addition of points. -/
def ecAdd (a b : Pt) : Pt :=
  match a, b with
  | none, b => b
  | a, none => a
  | some (x1, y1), some (x2, y2) =>
    if x1 = x2 ∧ (y1 + y2) % p384 = 0 then none
    else
      let l :=
        if x1 = x2 then (3 * x1 * x1 + (p384 - 3)) * invMod p384 (2 * y1) % p384
        else (y2 + p384 - y1) * invMod p384 (x2 + p384 - x1) % p384
      let x3 := (l * l + 2 * p384 - x1 - x2) % p384
      some (x3, (l * (x1 + p384 - x3) + p384 - y1) % p384)

/-- The multiple of a point by the low `n` bits of `k`. -/
def ecMul : Nat → Nat → Pt → Pt
  | 0, _, _ => none
  | n + 1, k, q =>
    let r := ecMul n (k / 2) (ecAdd q q)
    if k % 2 = 1 then ecAdd q r else r

/-- A point lies on the curve, with both coordinates in range. -/
def onCurve (q : Nat × Nat) : Bool :=
  decide (q.1 < p384 ∧ q.2 < p384) &&
    decide (q.2 * q.2 % p384 = (q.1 * q.1 * q.1 + (p384 - 3) * q.1 + p384b) % p384)

/-- The public key of a private key. -/
def pubKey (d : Nat) : Pt := ecMul 384 d (some p384g)

/-- ECDSA verification of `(r, s)` over the digest `e` under key `q`. -/
def ecdsaVerify (q : Nat × Nat) (e r s : Nat) : Bool :=
  onCurve q && decide (0 < r ∧ r < p384n ∧ 0 < s ∧ s < p384n) &&
    (let w := invMod p384n s
     match ecAdd (ecMul 384 (e * w % p384n) (some p384g)) (ecMul 384 (r * w % p384n) (some q)) with
     | some (x, _) => decide (x % p384n = r)
     | none => false)

/-- An ECDSA signature over the digest `e` with private key `d` and nonce `k`. -/
def ecdsaSign (d e k : Nat) : Nat × Nat :=
  match pubKey k with
  | some (x, _) => let r := x % p384n; (r, invMod p384n k * (e + r * d) % p384n)
  | none => (0, 0)

/-- The x coordinate of ECDH, 48 bytes big-endian; none when the far key is no point of the curve. -/
def ecdh (d : Nat) (q : Nat × Nat) : Option Bytes :=
  if onCurve q then (ecMul 384 d (some q)).map fun z => beBytes 48 z.1 else none

end Sys2Proof.Machine
end

