-- ==== Sys2Proof/Machine/Passport.lean ====
section
/-! DEFINITION. The passport (R391): the DER certificate the block assembles from its fuses by Table 16.5, and its digest.
PRESUMED (log 138): the encodings of the certificate's parts are those of X.509 and DER (ITU-T X.509, X.690, RFC 5280, RFC
5480), which the spec names and does not define. -/

namespace Sys2Proof.Machine

/-! ### DER -/

/-- The length octets of a value of `n` octets. -/
def derLen (n : Nat) : Bytes :=
  if n < 128 then beBytes 1 n else if n < 256 then 0x81 :: beBytes 1 n else 0x82 :: beBytes 2 n
/-- A value under a tag. -/
def der (tag : Byte) (b : Bytes) : Bytes := tag :: (derLen b.length ++ b)
/-- SEQUENCE, SET, OCTET STRING, OBJECT IDENTIFIER, and a BIT STRING of whole octets. -/
def derSeq (b : Bytes) : Bytes := der 0x30 b
def derSet (b : Bytes) : Bytes := der 0x31 b
def derOctets (b : Bytes) : Bytes := der 0x04 b
def derOid (b : Bytes) : Bytes := der 0x06 b
def derBits (b : Bytes) : Bytes := der 0x03 (0 :: b)
/-- INTEGER from the octets of a natural number, highest first: no superfluous zero octet, and no sign. -/
def derInt (b : Bytes) : Bytes :=
  let t := b.dropWhile fun x => x = 0
  der 0x02 (if (t.headD 0x80).getLsbD 7 then 0 :: t else t)
/-- The octets of a text in ASCII. -/
def ascii (t : String) : Bytes := t.toList.map fun c => BitVec.ofNat 8 c.toNat

/-! ### The template (Table 16.5) -/

/-- ecdsa-with-SHA384, 1.2.840.10045.4.3.3. -/
def algEcdsa : Bytes := derSeq (derOid [0x2A, 0x86, 0x48, 0xCE, 0x3D, 0x04, 0x03, 0x03])
/-- id-ecPublicKey, 1.2.840.10045.2.1, on secp384r1, 1.3.132.0.34. -/
def algKey : Bytes := derSeq (derOid [0x2A, 0x86, 0x48, 0xCE, 0x3D, 0x02, 0x01] ++ derOid [0x2B, 0x81, 0x04, 0x00, 0x22])

/-- A hexadecimal digit, 0 to 15. -/
def hexDigit (n : Nat) : Byte := BitVec.ofNat 8 (if n < 10 then 0x30 + n else 0x41 + (n - 10))
/-- The CN: "KL-96 ", then the serial in 32 digits in groups of eight, separated by hyphens. -/
def commonName (serial : Bytes) : Bytes :=
  ascii "KL-96 " ++ (List.range 16).flatMap fun i =>
    let b := (serial.getD i 0).toNat
    (if i % 4 = 0 ∧ i ≠ 0 then [0x2D] else []) ++ [hexDigit (b / 16), hexDigit (b % 16)]
/-- The subject: one relative name with the CN as a UTF8String. -/
def subjectName (serial : Bytes) : Bytes :=
  derSeq (derSet (derSeq (derOid [0x55, 0x04, 0x03] ++ der 0x0C (commonName serial))))

/-- notBefore from the eight decimal digits of the manufacture date: a UTCTime up to 2049, then a GeneralizedTime. -/
def notBefore (date : BitVec 32) : Bytes :=
  let d := (List.range 8).map fun i => BitVec.ofNat 8 (0x30 + bits date (28 - 4 * i) 4)
  if date < 0x20500000 then der 0x17 (d.drop 2 ++ ascii "000000Z") else der 0x18 (d ++ ascii "000000Z")

/-- An extension: its identifier, `critical`, its value. -/
def extension (oid : Bytes) (critical : Bool) (value : Bytes) : Bytes :=
  derSeq (derOid oid ++ (if critical then der 0x01 [0xFF] else []) ++ derOctets value)
/-- The passport extension's identifier, 2.25.81829.96.1. -/
def passOid : Bytes := [0x69, 0x84, 0xFF, 0x25, 0x60, 0x01]
/-- basicConstraints with CA false, keyUsage with digitalSignature and keyAgreement, and the passport extension. -/
def extensions (cls : Nat) : Bytes :=
  der 0xA3 (derSeq (
    extension [0x55, 0x1D, 0x13] true (derSeq []) ++
    extension [0x55, 0x1D, 0x0F] true (der 0x03 [0x03, 0x88]) ++
    extension passOid false (derSeq (derInt (beBytes 1 cls) ++ derInt (beBytes 2 0x0302)))))

/-- The uncompressed point of a public key. -/
def pointBytes (q : Pt) : Bytes :=
  let q := q.getD (0, 0)
  0x04 :: (beBytes 48 q.1 ++ beBytes 48 q.2)

/-! ### The certificate -/

/-- The fused serial as its 16 bytes. -/
def Fuses.serialBytes (f : Fuses) : Bytes := leBytes 16 f.serial.toNat

/-- The part of the certificate that the product CA signed. -/
def Fuses.signedPart (f : Fuses) : Bytes :=
  derSeq (
    der 0xA0 (derInt [2]) ++ derInt f.serialBytes ++ algEcdsa ++ Config.caName ++
    derSeq (notBefore f.made ++ der 0x18 (ascii "99991231235959Z")) ++ subjectName f.serialBytes ++
    derSeq (algKey ++ derBits (pointBytes (pubKey f.key.toNat))) ++ extensions (b2n f.bench))

/-- The DER certificate: signed part, algorithm, and the fused signature, r then s, 48 bytes each. -/
def Fuses.certificate (f : Fuses) : Bytes :=
  let g := leBytes 96 f.caSig.toNat
  derSeq (f.signedPart ++ algEcdsa ++ derBits (derSeq (derInt (slice g 0 48) ++ derInt (slice g 48 48))))

/-- The passport digest: SHA-384 of the certificate, byte 0 lowest. -/
def State.passport (s : State) : BitVec 384 := BitVec.ofNat 384 (leNat (sha384 s.fuses.certificate))

end Sys2Proof.Machine
end

