-- ==== Sys2Proof/Machine/Sched.lean ====
section
/-! DEFINITION. Scheduling of a link: the order of service (R194 to R198), capacity in force and SCALE (R200, R201), and
the toll gates (R203 to R206). -/

namespace Sys2Proof.Machine

/-! ### The table in force (Tables 8.3, 8.5, 8.7) -/

/-- The word at byte offset `o` of the scheduling table in force. -/
def State.schWord (s : State) (o : Nat) : Word := s.tables.sched.get (schedReset o) o
/-- SCH_VCW of link `n`. -/
def State.vcw (s : State) (n : Nat) : Word := s.schWord (0x4000 * n)
/-- Weight of VC `v` (3 to 7) on link `n`. -/
def State.vcWeight (s : State) (n v : Nat) : Nat := bits (s.vcw n) (8 * (v - 3)) 8
/-- VC6_CAP_PCT of link `n`. -/
def State.vc6Pct (s : State) (n : Nat) : Nat := bits (s.vcw n) 40 8
/-- Word `w` of shaper `i` on link `n`. -/
def State.shp (s : State) (n i w : Nat) : Word := s.schWord (0x4000 * n + 0x100 + 16 * i + 8 * w)
def State.shpEn (s : State) (n i : Nat) : Bool := bit (s.shp n i 0) 63
def State.shpWeight (s : State) (n i : Nat) : Nat := bits (s.shp n i 0) 48 8
def State.shpMax (s : State) (n i : Nat) : Nat := bits (s.shp n i 0) 24 17
def State.shpMin (s : State) (n i : Nat) : Nat := bits (s.shp n i 0) 0 17
def State.shpBurst (s : State) (n i : Nat) : Nat := 256 * bits (s.shp n i 1) 0 16

/-- The shaper a packet is charged to on link `n`: 5 x slot + VC - 3 (R197). DESIGN CHOICE (log 162): a packet that originates here with a
tag of no local partition, such as the completion of a denied request, is in slot 16 like a forwarded one. -/
def State.shaperOf (s : State) (n : Nat) (p : Pkt) : Nat :=
  let i := 5 * (s.tagPart p.ptag).getD 16 + (p.vc - 3)
  if s.shpEn n i then i else 80 + (p.vc - 3)

/-! ### Ready packets (R171, R194) -/

/-- Units a pool holds beyond its dedicated ones at the far end (R171). -/
def Pool.excess (q : Pool) : Nat := q.out - q.dedFar

/-- The sum of excess over a list of pools. -/
def LL.excessOf (l : LL) (ps : List Nat) : Nat := (ps.map fun p => (l.pools.get {} p).excess).sum

/-- A packet may be sent under the far end's credits (R171): its pool's CRED_INIT has come, and with the packet added
the shared units in use stay within SHARED and those of its VC within SHARE_CAP. -/
def LL.credits (l : LL) (cap : Nat) (p : Pkt) : Bool :=
  let q := l.pools.get {} p.pool
  let l' := { l with pools := l.pools.put {} p.pool { q with out := q.out + p.units } }
  q.init && decide (l'.excessOf (List.range 32) ≤ l.sharedFar) &&
    decide (l'.excessOf ((List.range 4).map (4 * p.vc + ·)) ≤ min cap l.sharedFar)

/-- LNK_LL_CTL.SHARE_CAP of link `n`. -/
def State.shareCap (s : State) (n : Nat) : Nat := bits (s.reg (0x100400 + 0x8000 * n)) 32 14

/-- Bytes a window holds. -/
def winSum (w : List Nat) : Nat := w.sum

/-- OBS_BUDGET.PCT as it acts: 0 as 1, above 3 as 3 (R442). -/
def State.obsPct (s : State) : Nat := let p := bits (s.reg 0x20000) 0 4; if p = 0 then 1 else min p 3

/-- Opcodes of the link-local packets (R176). -/
def Pkt.linkLocal (p : Pkt) : Bool := decide (p.op ∈ ([0x20, 0x21, 0x22] : List (BitVec 8)))

/-- What link `n` carries on its present row (R175): on DATA what its class does (an UNUSED link nothing, Table 6.4), on DISCOVERY HELLO, ATTEST and KEYX, on
QUARANTINE, and on any row once hostile, HELLO and ATTEST. -/
def State.carries (s : State) (n : Nat) (p : Pkt) : Bool :=
  let t := (s.link n).train.state
  if t ≠ 3 ∧ t ≠ 4 ∧ t ≠ 5 then false
  else if (s.link n).guest.verdict = .qHostile ∨ t = 5 then decide (p.op = 0x20 ∨ p.op = 0x21)
  else if t = 3 then p.linkLocal
  else !s.unused n && s.classCarries n p

/-- A packet is ready on link `n` apart from heading its queue: the link carries it, credits allow it, an OB_WRITE fits
the observation budget (R442), and in a brown-out hold it is a slow-member notice (R85, R86). -/
def State.ready (s : State) (n : Nat) (p : Pkt) : Bool :=
  let l := s.link n
  s.carries n p && l.ll.credits (s.shareCap n) p &&
    (decide (p.op ≠ 0xC8) || decide (winSum l.sch.winOb + p.size ≤ s.obsPct * l.sch.capNow)) &&
    (!s.pins.hold || decide (p.op = 0x05))

/-- The head of the queue of VC `v` on link `n` (VC0 to VC2), among the packets the link carries on its row (R175). In a brown-out hold the slow-member notices pass the packets
that wait in it (R86). -/
def State.headVc (s : State) (n v : Nat) : Option OutPkt :=
  ((s.link n).outq.find? fun o => decide (o.pkt.vc = v) && s.carries n o.pkt && (!s.pins.hold || decide (o.pkt.op = 0x05))).filter fun o =>
    s.ready n o.pkt

/-- The head of the queue of shaper `i` on link `n` (VC3 to VC7). -/
def State.headShp (s : State) (n i : Nat) : Option OutPkt :=
  ((s.link n).outq.find? fun o => decide (3 ≤ o.pkt.vc) && decide (s.shaperOf n o.pkt = i)).filter fun o =>
    s.ready n o.pkt

/-! ### The choice (R194 to R196) -/

/-- A chosen packet: the scheduling state after the choice, and COLOUR for a packet that originates here (R204). -/
structure Choice where
  out : OutPkt
  sch : Sch
  colour : BitVec 2

/-- Tokens of shaper `i`. -/
def Sch.gOf (c : Sch) (i : Nat) : Nat := c.g.get 0 i
def Sch.pOf (c : Sch) (i : Nat) : Nat := c.p.get 0 i

/-- The shapers in rotation from the one after `r`. -/
def shpOrder (r : Nat) : List Nat := (List.range 85).map fun k => (r + 1 + k) % 85

/-- The guarantee phase: the next shaper in rotation, VC6 left out, whose guarantee bucket holds its head. DESIGN CHOICE (log 154): a
peak bucket that holds less than the packet becomes empty; R198 says that P never stands below G, but the share phase takes from P
alone. -/
def State.guarantee (s : State) (n : Nat) : Option Choice :=
  let c := (s.link n).sch
  (shpOrder c.rotG).findSome? fun i =>
    if i % 5 = 3 then none
    else (s.headShp n i).bind fun o =>
      if o.pkt.size ≤ c.gOf i then
        some { out := o, colour := 0
               sch := { c with g := c.g.put 0 i (c.gOf i - o.pkt.size), p := c.p.put 0 i (c.pOf i - o.pkt.size)
                               rotG := i } }
      else none

/-- The shapers of VC `v` with a ready head that their peak bucket holds, in rotation from `r`. -/
def State.shareReady (s : State) (n : Nat) (c : Sch) (v r : Nat) : List (Nat × OutPkt) :=
  ((List.range 17).map fun k => 5 * ((r + k) % 17) + (v - 3)).filterMap fun i =>
    (s.headShp n i).bind fun o => if o.pkt.size ≤ c.pOf i then some (i, o) else none

/-- The share phase (R194): deficit weights over VC3 to VC7 in rotation, and within a VC over its shapers. `rotV` is the
VC in turn less 3, `rotS` the slot in turn of each VC; `visited` holds VC less 3 for a VC and 5 + shaper for a shaper
whose quantum of this round has been added. DESIGN CHOICE (log 144): after a packet the rotation stays at its VC and its slot until
their deficits no longer hold the next one. -/
def State.share (s : State) (n : Nat) : Nat → Sch → Option Choice
  | 0, _ => none
  | fuel + 1, c =>
    let v := 3 + c.rotV
    let turn := fun (c : Sch) => { c with rotV := (c.rotV + 1) % 5, visited := c.visited.filter (· ≠ c.rotV) }
    match s.shareReady n c v (c.rotS.get 0 v) with
    | [] => s.share n fuel (turn c)
    | (i, o) :: _ =>
      if v = 6 ∧ s.vc6Pct n * c.capNow < winSum c.win6 + o.pkt.size then s.share n fuel (turn c)
      else
        let c := if c.visited.contains c.rotV then c
          else { c with vdef := c.vdef.put 0 v (c.vdef.get 0 v + s.vcWeight n v * 256), visited := c.rotV :: c.visited }
        let c := if c.visited.contains (5 + i) then c
          else { c with sdef := c.sdef.put 0 i (c.sdef.get 0 i + s.shpWeight n i * 256), visited := (5 + i) :: c.visited }
        let z := o.pkt.size
        if z ≤ c.vdef.get 0 v ∧ z ≤ c.sdef.get 0 i then
          some { out := o, colour := 1
                 sch := { c with vdef := c.vdef.put 0 v (c.vdef.get 0 v - z), sdef := c.sdef.put 0 i (c.sdef.get 0 i - z)
                                 p := c.p.put 0 i (c.pOf i - z), rotS := c.rotS.put 0 v (i / 5) } }
        else
          let c := if c.sdef.get 0 i < z then
              { c with visited := c.visited.filter (· ≠ 5 + i), rotS := c.rotS.put 0 v ((i / 5 + 1) % 17) }
            else c
          s.share n fuel (if c.vdef.get 0 v < z then turn c else c)

/-- A VC or shaper with nothing ready keeps deficit 0 (R194). -/
def State.clearDeficits (s : State) (n : Nat) : State :=
  let busy := (List.range 85).filter fun i => (s.headShp n i).isSome
  s.modLink n fun l =>
    { l with sch := { l.sch with
        sdef := l.sch.sdef.filter fun e => busy.contains e.1
        vdef := l.sch.vdef.filter fun e => busy.any fun i => decide (3 + i % 5 = e.1) } }

/-- The next packet for link `n` (R194), none when nothing is ready. -/
def State.nextPkt (s : State) (n : Nat) : Option Choice :=
  let c := (s.link n).sch
  match s.headVc n 0 with
  | some o => some { out := o, sch := c, colour := 0 }
  | none =>
    match s.headVc n 1 with
    | some o => some { out := o, sch := c, colour := 0 }
    | none =>
      match (s.headVc n 2).filter fun o => decide (winSum c.win2 + o.pkt.size ≤ 40 * c.capNow) with
      | some o => some { out := o, sch := c, colour := 0 }
      | none =>
        match s.guarantee n with
        | some x => some x
        | none => s.share n 256 c

/-- Adds a packet's bytes to the newest interval of a window. -/
def winAdd (w : List Nat) (z : Nat) : List Nat :=
  match w with
  | [] => [z]
  | a :: t => (a + z) :: t

/-- A window moves on by one interval: it holds the current interval and the 99 before it. -/
def winShift (w : List Nat) : List Nat := 0 :: w.take 99

/-- The windows after a packet is sent (R195, R442). -/
def Sch.sentPkt (c : Sch) (p : Pkt) : Sch :=
  if p.vc = 2 then { c with win2 := winAdd c.win2 p.size }
  else if p.vc = 6 then
    { c with win6 := winAdd c.win6 p.size, winOb := if p.op = 0xC8 then winAdd c.winOb p.size else c.winOb }
  else c

/-! ### Capacity in force (R198, R200, R201) -/

/-- NOM of a class and grade (Table 8.1), in bytes per microsecond. -/
def nom (cls grade : Nat) : Nat :=
  match cls, grade with
  | 0, 3 => 96600 | 0, 2 => 48300 | 0, 1 => 24150 | 0, _ => 12075
  | 1, 3 => 93700 | 1, 2 => 46850 | 1, 1 => 23425 | 1, _ => 11712
  | _, 3 => 91300 | _, 2 => 45650 | _, 1 => 22825 | _, _ => 11412

/-- Lanes in the active set. -/
def Train.width (t : Train) : Nat := ((List.range 4).filter fun j => bit t.lanes j).length

/-- CAP_NOW of link `n` as R200 recomputes it. -/
def State.capacity (s : State) (n : Nat) : Nat :=
  let l := s.link n
  nom l.fec.cur.toNat l.train.grade.toNat * l.train.width * 32 / (4 * (32 + l.ll.paceFar.toNat))

/-- The sum of MIN_RATE over the enabled shapers of link `n`. -/
def State.minSum (s : State) (n : Nat) : Nat :=
  ((List.range 85).map fun i => if s.shpEn n i then s.shpMin n i else 0).sum

/-- SCALE of link `n` for a CAP_NOW (R201). -/
def State.scaleOf (s : State) (n cap : Nat) : Nat :=
  let m := s.minSum n
  if m = 0 then 65536 else min 65536 (65536 * (9 * cap / 10) / m)

/-- The refill of the buckets of link `n` (R198), cut to their bursts (R199). -/
def State.refill (s : State) (n : Nat) (c : Sch) : Sch :=
  (List.range 85).foldl (fun c i =>
    let cap := s.shpBurst n i
    { c with g := c.g.put 0 i (min (c.gOf i + s.shpMin n i * c.scale / 65536) cap)
             p := c.p.put 0 i (min (c.pOf i + s.shpMax n i) cap) }) c

/-! ### Toll gates (R203 to R206) -/

/-- Word `w` of toll gate `j`. -/
def State.gateWord (s : State) (j w : Nat) : Word := s.schWord (0x60000 + 32 * j + 8 * w)
def State.gateEn (s : State) (j : Nat) : Bool := bit (s.gateWord j 0) 63
def State.gateAware (s : State) (j : Nat) : Bool := bit (s.gateWord j 0) 62
def State.gatePir (s : State) (j : Nat) : Nat := bits (s.gateWord j 0) 17 17
def State.gateCir (s : State) (j : Nat) : Nat := bits (s.gateWord j 0) 0 17
def State.gatePbs (s : State) (j : Nat) : Nat := 256 * bits (s.gateWord j 1) 16 16
def State.gateCbs (s : State) (j : Nat) : Nat := 256 * bits (s.gateWord j 1) 0 16

/-- Gate `j`. -/
def State.gate (s : State) (j : Nat) : Gate := s.gates.get {} j

/-- The marker of R205: colour (0 green, 1 yellow, 2 red) and buckets after a packet of `b` bytes. -/
def markerStep (aware : Bool) (pre b : Nat) (g : Gate) : Nat × Gate :=
  if g.tp < b ∨ (aware = true ∧ pre = 2) then (2, g)
  else if g.tc < b ∨ (aware = true ∧ pre = 1) then (1, { g with tp := g.tp - b })
  else (0, { g with tp := g.tp - b, tc := g.tc - b })

/-- The gate of a request's partition, if it meters: EN 1 and a local partition's tag (R203). -/
def State.gateFor (s : State) (p : Pkt) : Option Nat :=
  (s.tagPart p.ptag).bind fun q =>
    let j := 2 * q + (if p.vc = 7 then 1 else 0)
    if s.gateEn j then some j else none

/-- A request passes its toll gate (R205, R206): the state after, and whether it is red. -/
def State.toll (s : State) (arrival : Nat) (p : Pkt) : State × Bool :=
  match s.gateFor p with
  | none => (s, false)
  | some j =>
    let r := markerStep (s.gateAware j) p.colour.toNat p.size (s.gate j)
    let g := if r.1 = 1 then { r.2 with yellow := satAdd r.2.yellow 1 }
      else if r.1 = 2 then { r.2 with red := satAdd r.2.red 1 } else r.2
    let s := { s with gates := s.gates.put {} j g }
    if r.1 = 2 then (s.count 4 2 arrival (s.tagPart p.ptag), true) else (s, false)

/-- The refill of gate `j` (R205), cut to its bursts (R199). -/
def State.refillGate (s : State) (j : Nat) : State :=
  let g := s.gate j
  { s with gates := s.gates.put {} j { g with tc := min (g.tc + s.gateCir j) (s.gateCbs j)
                                              tp := min (g.tp + s.gatePir j) (s.gatePbs j) } }

/-- The interval boundary at link `n`: CAP_NOW and SCALE of a link in DATA, GLOST, the refill, the windows. The second
part says that SCALE fell below 65,536 for the first time (R201). -/
def State.boundary (s : State) (n : Nat) : Sch × Bool :=
  let c := (s.link n).sch
  let d := s.inData n
  let cap := if d then s.capacity n else c.capNow
  let sc := if d then s.scaleOf n cap else c.scale
  let lost := d && decide (sc < 65536)
  (s.refill n { c with capNow := cap, scale := sc, glost := if d then lost else c.glost
                       win2 := winShift c.win2, win6 := winShift c.win6, winOb := winShift c.winOb },
    lost && decide (c.scale = 65536))

/-- A table staged for the boundary takes effect (R199): a shaper that changes from EN 0 to EN 1 starts with empty
buckets, a toll gate that does so with full ones (R205). DESIGN CHOICE (log 162): a shaper is emptied before the refill of that boundary,
which it takes. -/
def State.applySched (s : State) : State :=
  match s.tables.schNext with
  | none => s
  | some t =>
    let s' : State := { s with tables := { s.tables with sched := t, schNext := none } }
    forEach (List.range 24) (fun n s' =>
      s'.modLink n fun l =>
        { l with sch := (List.range 85).foldl (fun c i =>
            if !s.shpEn n i && s'.shpEn n i then { c with g := c.g.put 0 i 0, p := c.p.put 0 i 0 } else c) l.sch })
      (forEach (List.range 32) (fun j s' =>
        if !s.gateEn j && s'.gateEn j then
          { s' with gates := s'.gates.put {} j { s'.gate j with tc := s'.gateCbs j, tp := s'.gatePbs j } }
        else s') s')

end Sys2Proof.Machine
end

