-- ==== Sys2Proof/Machine/Link.lean ====
section
/-! DEFINITION. The link layer: link failure and re-sending on new paths (R22, R116), hostile links (R403), keys of a
frame (R163, R396 to R399), frames received and sent (R157 to R174), standalone control blocks. -/

namespace Sys2Proof.Machine

/-! ### Failure and route-around -/

/-- FAIL_LINK is raised on link `n` (Table 5.3); on a DATA or QUARANTINE row the source LINK_FAIL is recorded. -/
def State.failLink (s : State) (n : Nat) : State :=
  let t := (s.link n).train
  let s := s.modTrain n fun t => { t with fail := true }
  if t.state = 4 ∨ t.state = 5 then s.raise srcLinkFail else s

/-- A packet that is sent again joins a link's queue, before the later packets of its flow (R22). -/
def State.requeue (s : State) (n : Nat) (o : OutPkt) : State := s.modLink n fun l => { l with outq := insertFlow o l.outq }

/-- The path of a packet that is sent again (R22): one that originates here takes the choice of its origin, pin and all
(R183), a forwarded one that of R184, at the hop class it goes out with. -/
def State.reroute (s : State) (o : OutPkt) : Option (Nat × Nat) :=
  match o.arrival with
  | some a => s.routeForward o.pkt o.pkt.hop.toNat a
  | none => s.routeOrigin o.pkt

/-- Places a packet that link loss has freed on its new path (R22). A link-local packet is discarded (R176). -/
def State.replace (s : State) (o : OutPkt) : State :=
  let p := o.pkt
  if p.linkLocal then s
  else
    let free := fun (s : State) =>
      match o.from_ with
      | some (k, pool, ses) => s.freeUnits k pool p.units ses
      | none => s
    if p.vc = 0 then
      let r := s.sipLink p.dst.toNat
      match r.1 with
      | some k => r.2.enqueue k o
      | none => free r.2
    else
      match s.reroute o with
      | some (port, k) =>
        let s := s.requeue k o
        if p.ordered && o.arrival.isNone then s.setPin (flowKey p.dst.toNat p.vc) (some (port, k)) else s
      | none =>
        let s := free ((s.modPtr fun c => { c with noRoute := satAdd c.noRoute 1 }).count 3 1
          (o.arrival.getD 0xFFFF) none)
        if p.answered then s.place (s.completion p { rdst := p.dst.toNat, status := stUnreach } []) else s

/-- Link `n` leaves the candidate set (R116): pins whose port went with it are released (R183), tree neighbours whose packets it took
choose anew (R364), what its retry buffer and
then its output queues hold is re-sent on new paths, in order (R22), and the buffer is emptied, nothing being left to
acknowledge (R164). A frame's packets have freed their receive units already. -/
def State.leaveSet (s : State) (n : Nat) : State :=
  let l := s.link n
  let held := (l.ll.retry.flatMap fun f => f.pkts.map fun o => { o with from_ := none }) ++ l.outq
  let s := s.modLink n fun l =>
    { l with outq := [], ll := { l.ll with retry := [], replay := none, acked := l.ll.txSeq - 1 } }
  let s : State := { s with sipLinks := s.sipLinks.filter fun e => decide (e.2 ≠ n) }
  forEach held (fun o s => s.replace o) s.dropPins

/-- Q_HOSTILE (R403): the verdict and its cause, keys erased, a fetch of the far chain given up, FAIL_LINK, the link out of the candidate
set. -/
def State.setHostile (s : State) (n cause : Nat) : State :=
  let s := s.modLink n fun l =>
    { l with guest := { l.guest with verdict := .qHostile }
             att := { l.att with asking := false, got := [] }
             sec := { hostile := BitVec.ofNat 3 cause, mode := 0, revoked := l.sec.revoked, txEpoch := l.sec.txEpoch
                      rxEpoch := l.sec.rxEpoch, epochs := l.sec.epochs, kexFail := l.sec.kexFail, sids := l.sec.sids } }
  ((s.raise srcHostile).failLink n).leaveSet n

/-- LNK_GUEST.ENC_ON: both directions are protected (R396). -/
def LSec.encOn (c : LSec) : Bool := c.txOn && c.rxOn

/-! ### Keys of a frame (R163, R395, R398, R399) -/

/-- The bytes of an ASCII label. -/
def label (t : String) : Bytes := ascii t

/-- chain[e + 1] from chain[e]. -/
def ratchet (chain : Bytes) : Bytes := hkdfExpand chain (label "KL96 ratchet") 48
/-- The key of a chain for direction `d`. -/
def chainKey (chain : Bytes) (d : Bool) : Bytes := hkdfExpand chain (label "KL96 key" ++ [BitVec.ofNat 8 (b2n d)]) 32

/-- The chain that follows the receiver's present one: a rekey's new chain, else the ratchet (R398, R401). -/
def LSec.rxNextChain (c : LSec) : Bytes := if c.rxPend = [] then ratchet c.rxChain else c.rxPend

/-- The receiver moves to the next epoch (R399): previous takes current, current the key derived in advance. -/
def LSec.rxAdvance (c : LSec) (now : Nat) (x : Nat) : LSec :=
  let chain := c.rxNextChain
  let c := { c with rxEpoch := c.rxEpoch + 1, rxChain := chain, rxPend := [], prev := c.cur, prevAt := now
                    cur := { key := chainKey chain (!c.dir), x := x } }
  { c with next := { key := chainKey c.rxNextChain (!c.dir), x := 0 } }

/-- The sender moves to the next epoch (R398): the old key is erased, and the transmit counter starts at zero. -/
def LSec.txAdvance (c : LSec) : LSec :=
  let chain := if c.txPend = [] then ratchet c.txChain else c.txPend
  { c with txEpoch := c.txEpoch + 1, txChain := chain, txPend := [], txKey := chainKey chain c.dir, txCount := 0
           txFrames := 0, txAcked := false, advance := false, epochs := satAdd c.epochs 1 }

/-- The IV of a frame (R162): seven zero bytes and the counter, big-endian. -/
def frameIv (c : Nat) : Bytes := zeros 7 ++ beBytes 5 c

/-- The smallest value no less than `x` whose low 8 bits are `lo`. -/
def counterFrom (x lo : Nat) : Nat := x + (lo + 256 - x % 256) % 256

/-- Verifies a frame under one slot (R163): counters c, c + 256, c + 512 and c + 768 in turn; the plaintext payload and
the value expected next. -/
def slotOpen (k : RxSlot) (f : Bytes) : Option (Bytes × Nat) :=
  if k.key = [] then none
  else
    let c := counterFrom k.x (leNat (slice f 4 1))
    [c, c + 256, c + 512, c + 768].findSome? fun c =>
      (gcmOpen k.key (frameIv c) (f.take 8) (slice f 8 240) (slice f 248 8) 8).map fun m => (m, c + 1)

/-- A frame's check (R161 to R163, R396, R399): the payload in plaintext and the keys after, with whether it verified
under the current slot; none when it fails. -/
def LSec.check (c : LSec) (now : Nat) (f : Bytes) : Option (Bytes × LSec × Bool) :=
  let crcOk := decide (crc64 (f.take 248) = word64 f 248)
  let epoch := bit (word64 f 0) 31
  let tagged : Option (Bytes × LSec × Bool) :=
    if epoch = decide (c.rxEpoch % 2 = 1) then
      (slotOpen c.cur f).map fun r => (r.1, { c with cur := { c.cur with x := r.2 }, rxOn := true }, true)
    else if c.prev.key ≠ [] then
      (slotOpen c.prev f).map fun r => (r.1, { c with prev := { c.prev with x := r.2 } }, false)
    else (slotOpen c.next f).map fun r => (r.1, { c.rxAdvance now r.2 with rxOn := true }, true)
  if !c.keyed then if crcOk then some (slice f 8 240, c, false) else none
  else if !c.rxOn then if crcOk then some (slice f 8 240, c, false) else tagged
  else tagged

/-- A tag failure (R402): it counts on an encrypted link when every block of the frame arrived cleanly; the sixteenth
within 1 ms of the first makes the link hostile. -/
def State.tagFailure (s : State) (n : Nat) (clean : Bool) : State :=
  let c := (s.link n).sec
  if !c.encOn then s
  else
    let s := s.count 0xB 1 n none
    if !clean then s
    else
      let times := (c.fails ++ [s.clk.up]).filter fun t => decide (s.clk.up ≤ t + us5 1000)
      let s := s.modLink n fun l => { l with sec := { l.sec with fails := times } }
      if 16 ≤ times.length then s.setHostile n 1 else s

/-! ### Standalone control blocks (R159) -/

/-- Fields of a standalone block that must be zero, by TYPE (Table 7.2). -/
def reservedMask (ty : Nat) : Option Word :=
  match ty with
  | 0x1E => some 0x00FFFFFFFFFFFF00
  | 0x33 => some 0x000000001FFFFF00
  | 0x4B => some 0x000000000FFFFF00
  | 0x55 => some 0x000000000FFFFF00
  | 0x66 => some 0x0003FFFFFFFFFF00
  | 0x87 => some 0x0000000000000700
  | 0x99 => some 0x00001FFFFFFFFF00
  | _ => none

/-- A standalone block of TYPE `ty` is valid: CHECK, TYPE, reserved fields, and a KIND that is not reserved (R159). -/
def blockValid (ty : Nat) (w : Word) : Bool :=
  decide (bits w 0 8 = ty) && decide (w.extractLsb' 56 8 = crc8 w) &&
    (match reservedMask ty with
      | some m => decide (w &&& m = 0)
      | none => false) &&
    (!decide (ty = 0x87) || decide (bits w 54 2 < 2))

/-- A discarded block or stray data block is counted (R158, R159). -/
def State.ctlMalf (s : State) (n : Nat) : State := s.modCnt n fun c => { c with ctlMalf := satAdd c.ctlMalf 1 }

/-- The link carries frames (Table 5.1). -/
def State.carriesFrames (s : State) (n : Nat) : Bool :=
  decide ((s.link n).train.state = 3 ∨ (s.link n).train.state = 4 ∨ (s.link n).train.state = 5)

/-- A replay starts from SEQ `q` (R167); the sixteenth in a row from one SEQ reports FAIL_LINK. -/
def State.startReplay (s : State) (n : Nat) (q : BitVec 12) : State :=
  let s := s.modLL n fun l =>
    { l with replay := some q
             runCount := if l.runFrom = q ∧ l.runCount ≠ 0 then l.runCount + 1 else 1
             runFrom := q
             cnt := { l.cnt with replays := satAdd l.cnt.replays 1 } }
  let s := s.count 1 2 n none
  if 16 ≤ (s.link n).ll.runCount then s.failLink n else s

/-- An acknowledgement up to `a` releases frames (R164); one under the present epoch lets the sender advance (R398). -/
def State.takeAck (s : State) (n : Nat) (a : BitVec 12) : State :=
  let l := s.link n
  let k := (a - l.ll.acked).toNat
  if k = 0 ∨ l.ll.retry.length < k then s
  else
    let gone := l.ll.retry.take k
    s.modLink n fun l =>
      { l with
        ll := { l.ll with retry := l.ll.retry.drop k, acked := a
                          replay := l.ll.replay.bind fun q =>
                            if l.ll.retry.length = k then none
                            else if (q - l.ll.acked - 1).toNat < k then some (a + 1) else some q }
        sec := { l.sec with txAcked := l.sec.txAcked || (l.sec.txOn &&
          gone.any fun f => decide (f.epoch = some l.sec.txEpoch)) } }

/-- ACK_SEQ and NAK of a frame or ACK block (R164, R167). -/
def State.takeAckNak (s : State) (n : Nat) (a : BitVec 12) (nak : Bool) : State :=
  let s := s.takeAck n a
  if !nak then s
  else
    let s := s.modCnt n fun c => { c with nakRx := satAdd c.nakRx 1 }
    let l := (s.link n).ll
    if l.retry.isEmpty ∨ l.acked ≠ a ∨ (l.replay.isSome ∧ l.runFrom = a + 1) then s else s.startReplay n (a + 1)

/-- A credit report of pool `p` (R173): one that would take the outstanding units below zero is refused. -/
def State.takeCredit (s : State) (n p : Nat) (cum : BitVec 9) : State :=
  let q := (s.link n).ll.pools.get {} p
  let d := (cum - q.cumRx).toNat
  if q.out < d then s.ctlMalf n
  else s.modLL n fun l => { l with pools := l.pools.put {} p { q with out := q.out - d, cumRx := cum } }

/-- CRED_INIT (R170, R171): within a session DED never changes and SHARED never falls; a DED below 15 reports
FAIL_LINK. -/
def State.takeCredInit (s : State) (n p ded shared : Nat) : State :=
  let l := (s.link n).ll
  let q := l.pools.get {} p
  if (q.init ∧ q.dedFar ≠ ded) ∨ shared < l.sharedFar then s.ctlMalf n
  else
    let s := s.modLL n fun l =>
      { l with sharedFar := shared, pools := l.pools.put {} p { q with init := true, dedFar := ded } }
    if ded < 15 then s.failLink n else s

/-- A received CURFEW entry block (R452): a SERIAL above this block's own enters curfew with it. -/
def State.takeCurfewEntry (s : State) (n : Nat) (w : Word) : State :=
  let serial := w.extractLsb' 11 32
  if s.obs.curfew.serial < serial then s.enterCurfew 4 n (w.extractLsb' 43 11) serial else s

/-- A received FATAL block (R193): FAR_FATAL and FAIL_LINK, and the link accepts no further frame. -/
def State.takeFatal (s : State) (n : Nat) : State :=
  let s := s.modLL n fun l => { l with farFatal := true, stopped := true }
  (s.raise srcFarFatal).failLink n

/-! ### Frames received (R165, R166, R172, R174, R175) -/

/-- A frame is discarded without acknowledgement (R166): a NAK at the first discard after the last accepted frame. -/
def State.discardFrame (s : State) (n : Nat) : State :=
  s.modLL n fun l => if l.nakSent then l else { l with nakPend := true, nakSent := true }

/-- A frame with header `h` fails its check: it is discarded, and a replayed frame that fails sends a new NAK (Table 7.19). DEDUCED
(log 153): a replayed frame is one whose SEQ the NAK that has been sent asks for. -/
def State.failFrame (s : State) (n : Nat) (h : Word) : State :=
  s.modLL n fun l =>
    if l.nakSent && !decide (h.extractLsb' 52 12 = l.rxSeq + 1) then l else { l with nakPend := true, nakSent := true }

/-- Opcodes that Tables 7.7, 10.7 and 15.1 do not reserve. -/
def opKnown (op : Nat) : Bool :=
  decide (1 ≤ op ∧ op ≤ 0x06 ∨ 0x20 ≤ op ∧ op ≤ 0x24 ∨ 0x40 ≤ op ∧ op ≤ 0x43 ∨ op = 0x60 ∨ op = 0x61 ∨
    0x80 ≤ op ∧ op ≤ 0x82 ∨ 0x88 ≤ op ∧ op ≤ 0x91 ∨ 0x98 ≤ op ∧ op ≤ 0x9F ∨ 0xA0 ≤ op ∧ op ≤ 0xA3 ∨
    0xC0 ≤ op ∧ op ≤ 0xC6 ∨ op = 0xC8 ∨ op = 0xCC ∨ op = 0xE0 ∨ op = 0xE1 ∨ op = 0xF0 ∨ op = 0xF1)

/-- The packets of `units` payload units (R174), and whether they fill them exactly. Each has its header fields and LENGTH data
bytes. DESIGN CHOICE (log 133): a packet that runs past UNITS counts with the units that are left, which are freed with the others; a LENGTH above 224 takes more units than any frame has, so the units do not sum
and the frame is malformed (R165) before R175 is asked. -/
def parsePkts : Nat → Bytes → Nat → List Pkt × Bool
  | 0, _, u => ([], decide (u = 0))
  | fuel + 1, b, u =>
    if u = 0 then ([], true)
    else
      let p := Pkt.ofHeader (BitVec.ofNat 128 (leNat (slice b 0 16)))
      if u < p.units then ([{ p with len := BitVec.ofNat 8 (16 * (u - 1)) }], false)
      else
        let r := parsePkts fuel (b.drop (16 * p.units)) (u - p.units)
        ({ p with data := slice b 16 (min p.len.toNat 224) } :: r.1, r.2)

/-- Units held here beyond the dedicated ones (R172). -/
def LL.sharedOcc (l : LL) : Nat := ((List.range 32).map fun p => (l.pools.get {} p).occ - 16).sum

/-- One packet of an accepted frame (R172, R175, R178): the credit overrun that makes the link hostile, the malformed
packet that is counted, and otherwise its place in the receive buffer or on its way out. -/
def State.takePkt (s : State) (n : Nat) (p : Pkt) : State :=
  let l := (s.link n).ll
  let q := l.pools.get {} p.pool
  let l' := { l with pools := l.pools.put {} p.pool { q with occ := q.occ + p.units }, arrived := l.arrived + 1 }
  if l.sharedLocal < l'.sharedOcc then s.setHostile n 2
  else
    let s := (s.modLL n fun _ => l').count 1 5 n (s.tagPart p.ptag) p.size
    let s := s.watchPkt n false p
    if !opKnown p.op.toNat || decide (p.colour = 3) || decide (224 < p.len.toNat) || !s.carries n p then
      (s.modCnt n fun c => { c with pktMalf := satAdd c.pktMalf 1 }).freeUnits n p.pool p.units l.ses
    else if p.vc = 0 ∨ p.linkLocal = true ∨ p.dst = s.chip ∨ s.pins.hold = true then
      s.modLink n fun k => { k with inbox := k.inbox ++ [{ pkt := p, ses := l.ses, no := l.arrived }] }
    else s.forward n l.ses p l.arrived

/-- The packets of a malformed frame are discarded and their credits freed (R165). -/
def State.dropPkts (s : State) (n : Nat) (l : List Pkt) : State :=
  forEach l (fun p s =>
    let k := (s.link n).ll
    let q := k.pools.get {} p.pool
    (s.modLL n fun k => { k with pools := k.pools.put {} p.pool { q with occ := q.occ + p.units } }).freeUnits n p.pool
      p.units k.ses) s

/-- A frame that passed its check: its acknowledgement and credit fields are acted on, and in sequence it is accepted
and its packets released (R165, R178). A NAK that is due still leaves (R166). -/
def State.checkedFrame (s : State) (n : Nat) (h : Word) (payload : Bytes) (current : Bool) : State :=
  let s := s.takeAckNak n (h.extractLsb' 40 12) (bit h 30)
  let s := s.takeCredit n (bits h 25 5) (h.extractLsb' 16 9)
  let seq := h.extractLsb' 52 12
  if seq ≠ (s.link n).ll.rxSeq + 1 then
    (s.modCnt n fun c => { c with seqDrop := satAdd c.seqDrop 1 }).discardFrame n
  else
    let s := s.modLink n fun l =>
      { l with ll := { l.ll with rxSeq := seq, nakSent := false, ackDue := true }
               sec := if current then { l.sec with prev := {} } else l.sec }
    let s := s.count 1 1 n none
    let units := bits h 12 4
    let r := parsePkts 16 payload units
    if units = 0 ∨ bits h 8 4 ≠ 0 ∨ r.2 = false then
      (s.modCnt n fun c => { c with frameMalf := satAdd c.frameMalf 1 }).dropPkts n r.1
    else forEach r.1 (fun p s => s.takePkt n p) s

/-! ### Frames sent (R160, R164, R167, R173, R174, R194) -/

/-- The pool the next report covers (R173): one with 64 or more unreported units first, then the others in rotation. -/
def LL.reportPool (l : LL) : Option Nat :=
  let pend := (List.range 32).map fun k => (l.crRot + k) % 32
  match pend.find? fun p => decide (64 ≤ (l.pools.get {} p).backlog) with
  | some p => some p
  | none => pend.find? fun p => decide (0 < (l.pools.get {} p).backlog)

/-- Reports pool `p`: the count advances by at most 127 (R173). -/
def LL.report (l : LL) (p : Nat) : LL × BitVec 9 :=
  let q := l.pools.get {} p
  let d := min q.backlog 127
  let cum := q.reported + BitVec.ofNat 9 d
  ({ l with pools := l.pools.put {} p { q with reported := cum, backlog := q.backlog - d }, crRot := (p + 1) % 32 }, cum)

/-- The report a frame or ACK block carries: pool and count; with nothing new, pool 0's last count. -/
def LL.nextReport (l : LL) : LL × Nat × BitVec 9 :=
  match l.reportPool with
  | some p => let r := l.report p; (r.1, p, r.2)
  | none => (l, 0, (l.pools.get {} 0).reported)

/-- An ACK block (Table 7.2). -/
def ackBlock (seq : BitVec 12) (nak : Bool) (pool : Nat) (cum : BitVec 9) : Word :=
  sealBlock (fields [(44, 12, seq.toNat), (43, 1, b2n nak), (38, 5, pool), (29, 9, cum.toNat), (0, 8, 0x33)])
/-- A CREDIT block. -/
def creditBlock (a : Nat) (ca : BitVec 9) (b : Nat) (cb : BitVec 9) : Word :=
  sealBlock (fields [(51, 5, a), (42, 9, ca.toNat), (37, 5, b), (28, 9, cb.toNat), (0, 8, 0x4B)])
/-- A CRED_INIT block. -/
def credInitBlock (pool shared : Nat) : Word :=
  sealBlock (fields [(51, 5, pool), (42, 9, 16), (28, 14, shared), (0, 8, 0x55)])
/-- A PACE block. -/
def paceBlock (k : BitVec 6) : Word := sealBlock (fields [(50, 6, k.toNat), (0, 8, 0x66)])

/-- An ACK block is sent with the present ACK_SEQ, a pending NAK and one report (R166). -/
def State.sendAck (s : State) (n : Nat) : State :=
  let l := (s.link n).ll
  let r := l.nextReport
  (s.modLL n fun _ => { r.1 with ackDue := false, nakPend := false }).emit
    (.control n (ackBlock l.rxSeq l.nakPend r.2.1 r.2.2))

/-- A pending PACE block is sent. -/
def State.sendPace (s : State) (n : Nat) : State :=
  let l := (s.link n).ll
  if l.paceDue then (s.modLL n fun l => { l with paceDue := false }).emit (.control n (paceBlock l.paceLocal)) else s

/-- The pending standalone blocks of link `n`, in the order of R160. -/
def State.sendControls (s : State) (n : Nat) : State :=
  let s := s.sendPace n
  let s := if (s.link n).ll.nakPend then s.sendAck n else s
  let l := (s.link n).ll
  let s :=
    match l.reportPool with
    | some p =>
      let r := l.report p
      let r' : LL × Nat × BitVec 9 := match r.1.reportPool with
        | some p' => let x := r.1.report p'; (x.1, p', x.2)
        | none => (r.1, p, r.2)
      (s.modLL n fun _ => r'.1).emit (.control n (creditBlock p r.2 r'.2.1 r'.2.2))
    | none => s
  let l := (s.link n).ll
  let s := s.emits (l.credInit.map fun p => .control n (credInitBlock p l.sharedLocal))
  s.modLL n fun l => { l with credInit := [] }

/-- The sender advances its epoch when R398 lets it. -/
def State.maybeAdvance (s : State) (n : Nat) : State :=
  let c := (s.link n).sec
  let limit := 2 ^ max 16 (min 36 (bits (s.reg 0x30048) 0 6))
  if c.txOn && c.txAcked && (decide (limit ≤ c.txFrames) || c.advance || decide (c.txPend ≠ [])) then
    (s.modLink n fun l => { l with sec := l.sec.txAdvance }).count 0xB 0 n none
  else s

/-- The frame of a header and 240 payload bytes, with its check field (R161, R162). -/
def LSec.sealFrame (c : LSec) (hb body : Bytes) : Bytes :=
  if c.txOn then
    let x := gcmSeal c.txKey (frameIv c.txCount) hb body
    hb ++ x.1 ++ x.2.take 8
  else hb ++ body ++ leBytes 8 (crc64 (hb ++ body)).toNat

/-- The transmit counter of the key counts a frame transmitted under it (R163). -/
def LSec.counted (c : LSec) : LSec := if c.txOn then { c with txCount := c.txCount + 1, txFrames := c.txFrames + 1 } else c

/-- The counter of the key in use has reached 2^40 (R163). -/
def LSec.spent (c : LSec) : Bool := c.txOn && decide (2 ^ 40 ≤ c.txCount)

/-- What follows a frame on the lanes: the count and the pacing idles (R71). -/
def State.frameSent (s : State) (n : Nat) (e : Emit) : State :=
  let s := (s.emit e).count 1 0 n none
  let k := (s.link n).ll.paceFar
  if k = 0 then s else s.emit (.idle n k.toNat)

/-- Transmits the frame of SEQ `q` with fresh header fields and check field (R161 to R167): packets, or a copy of a raw
frame, whose UNITS and payload stay as written (R487). At a transmit counter of 2^40 it reports FAIL_LINK instead. -/
def State.transmit (s : State) (n : Nat) (q : BitVec 12) (pkts : List OutPkt) (raw : Option RawFrame := none) : State :=
  let s := s.maybeAdvance n
  let c := (s.link n).sec
  if c.spent then s.failLink n
  else
    let l := (s.link n).ll
    let r := l.nextReport
    let pl := pkts.flatMap fun o => o.pkt.bytes
    let low : Word := match raw with
      | some w => word64 w.bytes 0 &&& 0xFFFF
      | none => fields [(12, 4, pl.length / 16), (0, 8, 0x78)]
    let h := low ||| fields [(52, 12, q.toNat), (40, 12, l.rxSeq.toNat), (32, 8, c.txCount % 256),
      (31, 1, if c.txOn then c.txEpoch % 2 else 0), (30, 1, b2n l.nakPend), (25, 5, r.2.1), (16, 9, r.2.2.toNat)]
    let body := match raw with
      | some w => slice w.bytes 8 240
      | none => slice pl 0 240
    let bytes := c.sealFrame (leBytes 8 h.toNat) body
    let e : Emit := match raw with
      | some w => .rawFrame n (if w.chk then bytes.take 248 ++ slice w.bytes 248 8 else bytes) w.ctl w.bad
      | none => .frame n bytes
    let s := s.modLink n fun k =>
      { k with ll := { r.1 with ackDue := false, nakPend := false
                                retry := k.ll.retry.map fun f =>
                                  if f.seq = q then
                                    { f with at5 := s.clk.core, epoch := if c.txOn then some c.txEpoch else none }
                                  else f }
               sec := k.sec.counted }
    s.frameSent n e

/-- A copy sent with RAWSEQ 1 (R487): bytes 0 to 7 as written, no sequence number; with the check field computed it is a
frame of R161 or R162, with RAWCHK 1 every byte goes out as written. -/
def State.transmitRaw (s : State) (n : Nat) (w : RawFrame) : State :=
  let c := (s.link n).sec
  if w.chk then s.frameSent n (.rawFrame n w.bytes w.ctl w.bad)
  else if c.spent then s.failLink n
  else
    (s.modLink n fun k => { k with sec := k.sec.counted }).frameSent n
      (.rawFrame n (c.sealFrame (w.bytes.take 8) (slice w.bytes 8 240)) w.ctl w.bad)

/-- Units outstanding at the far end grow by a packet sent (R171). -/
def LL.addOut (l : LL) (p u : Nat) : LL :=
  let q := l.pools.get {} p
  { l with pools := l.pools.put {} p { q with out := q.out + u } }

/-- Gathers the packets of a new frame (R174): up to 15 units, closed when the next ready packet does not fit. A packet
placed in the frame leaves its queue, takes credits at the far end and frees the units it held here. DESIGN CHOICE (log 162): its bytes
count in the windows of R195 here, and not again where its frame is replayed. -/
def State.gather (n : Nat) : Nat → Nat → State → List OutPkt → State × List OutPkt
  | 0, _, s, acc => (s, acc)
  | fuel + 1, room, s, acc =>
    let s := s.clearDeficits n
    match s.nextPkt n with
    | none => (s, acc)
    | some x =>
      let p := x.out.pkt
      if room < p.units then (s, acc)
      else
        let sent : OutPkt :=
          { x.out with pkt := if x.out.arrival.isNone then { p with colour := x.colour } else p }
        let s := s.modLink n fun l =>
          { l with sch := x.sch.sentPkt p, outq := l.outq.erase x.out
                   ll := l.ll.addOut p.pool p.units }
        let s :=
          match x.out.from_ with
          | some (k, pool, ses) => s.freeUnits k pool p.units ses
          | none => s
        let part := s.tagPart p.ptag
        let s := s.count 1 4 n part p.size
        let s := if 3 ≤ p.vc then s.count 4 (if x.colour = 0 then 0 else 1) n part p.size else s
        let s := if p.op = 0xC8 then s.count 0xD 3 0xFFFF none p.size else s
        State.gather n fuel (room - p.units) (s.watchPkt n true sent.pkt) (acc ++ [sent])

/-- The next frame at a frame boundary: the replay first, then a new frame of ready packets; an IDLE block if there is
none (R160, R164, R167). -/
def State.sendFrame (s : State) (n : Nat) : State :=
  let l := (s.link n).ll
  match l.replay with
  | some q =>
    match l.retry.find? fun f => f.seq = q with
    | some f =>
      let s := s.modLL n fun l => { l with replay := if q + 1 = l.txSeq then none else some (q + 1) }
      s.transmit n q f.pkts f.raw
    | none => (s.modLL n fun l => { l with replay := none }).emit (.idle n 1)
  | none =>
    if 1024 ≤ l.retry.length then s.emit (.idle n 1)
    else
      let r := State.gather n 16 15 s []
      if r.2 = [] then r.1.emit (.idle n 1)
      else
        let q := (r.1.link n).ll.txSeq
        let s := r.1.modLL n fun l =>
          { l with txSeq := q + 1, retry := l.retry ++ [{ seq := q, pkts := r.2, at5 := 0 }] }
        s.transmit n q r.2

/-- The next copy of an injection on link `n` (R486, R487): after its GAP of IDLE blocks; with RAWSEQ 0 it takes the next SEQ
and is held in the retry buffer. -/
def State.injectCopy (s : State) (n : Nat) : State :=
  let b := s.obs.bench
  let s : State := { s with obs := { s.obs with
    bench := { b with first := false, left := b.left - 1, busy := decide (b.left ≠ 1) } } }
  let s := if b.first || decide (b.gap = 0) then s else s.emit (.idle n b.gap)
  if b.rawSeq then s.transmitRaw n b.frame
  else
    let q := (s.link n).ll.txSeq
    let s := s.modLL n fun l =>
      { l with txSeq := q + 1, retry := l.retry ++ [{ seq := q, pkts := [], raw := some b.frame, at5 := 0 }] }
    s.transmit n q [] (some b.frame)

/-- A copy of an injection is due on link `n`. -/
def State.injecting (s : State) (n : Nat) : Bool := s.obs.bench.busy && decide (s.obs.bench.link = n)

/-- A copy can go out at a frame boundary: a hold makes it wait (R490), and with RAWSEQ 0 it needs room in the retry buffer
(R487). -/
def State.injects (s : State) (n : Nat) : Bool :=
  s.injecting n && !s.pins.hold && (s.obs.bench.rawSeq || decide ((s.link n).ll.retry.length < 1024))

/-- The link leaves the rows that carry frames (Table 20.11): the copies still to be sent are abandoned, and those held are
discarded from the retry buffer. -/
def State.endInject (s : State) (n : Nat) : State :=
  let s : State := if s.injecting n then { s with obs := { s.obs with bench := { s.obs.bench with busy := false, left := 0 } } } else s
  s.modLL n fun l => { l with retry := l.retry.filter fun f => f.raw.isNone }

/-- Frames may be sent after a curfew (R457): the far end's resume block has come, or 10 us have passed. -/
def LL.resumed (l : LL) (now : Nat) : Bool :=
  match l.resumeWait with
  | some t => decide (t ≤ now)
  | none => true

end Sys2Proof.Machine
end

