-- ==== Sys2Proof/Machine/Fabric.lean ====
section
/-! DEFINITION. Requests from this chip (chapter 9, R187): location caches (R216), the order in which a requester may send
(R217, R229, R230, R409), numbering and tags (R187), sending and sending again. -/

namespace Sys2Proof.Machine

/-! ### Location caches (R216): caches 0 to 15 of the E-ports, 16 to 79 of the stewards; most recently used first -/

/-- A lease in ns: 4 ms less 1 us. -/
def leaseNs : Int := 3999000

/-- The entry for a page whose lease has not ended. -/
def State.locOf (s : State) (c k : Nat) : Option Loc :=
  ((s.caches.get [] c).find? fun e => e.page = k).filter fun e => decide (s.nowInt < (e.lease : Int))

/-- An entry is used. DESIGN CHOICE (log 155): every issue for the page is a use, with the lease ended or the page lodged here too. -/
def State.useLoc (s : State) (c k : Nat) : State :=
  let l := s.caches.get [] c
  match l.find? fun e => e.page = k with
  | some e => { s with caches := s.caches.put [] c (e :: l.erase e) }
  | none => s

/-- A completion fills or replaces a page's entry. -/
def State.fillLoc (s : State) (c k : Nat) (chip : BitVec 11) (issued : Int) : State :=
  let l := (s.caches.get [] c).filter fun e => e.page ≠ k
  { s with caches := s.caches.put [] c (({ page := k, chip := chip, lease := (issued + leaseNs).toNat } :: l).take 256) }

/-- A page's entry is removed. -/
def State.dropLoc (s : State) (c k : Nat) : State :=
  { s with caches := s.caches.put [] c ((s.caches.get [] c).filter fun e => e.page ≠ k) }

/-! ### Making requests -/

/-- Adds a request at the end of the issue order. -/
def State.addReq (s : State) (r : Req) : State :=
  let s' := s.fresh
  { s' with reqs := s.reqs ++ [{ r with id := s.nextId }] }

/-- Changes a request. -/
def State.modReq (s : State) (id : Nat) (f : Req → Req) : State :=
  { s with reqs := s.reqs.map fun r => if r.id = id then f r else r }
/-- Removes a request. -/
def State.endReq (s : State) (id : Nat) : State := { s with reqs := s.reqs.filter fun r => decide (r.id ≠ id) }
/-- The request with a number. -/
def State.req (s : State) (id : Nat) : Option Req := s.reqs.find? fun r => r.id = id

/-- The chip a request goes to at present: its own DST, or for a rack-global one this chip where the page lodges here (R215),
else the cached chip, else the hash chip (R216). -/
def State.target (s : State) (r : Req) : BitVec 11 :=
  match r.cache with
  | none => r.pkt.dst
  | some c =>
    if (s.lodgedAt (pageKey r.fab)).isSome then s.chip
    else
      match s.locOf c (pageKey r.fab) with
      | some e => e.chip
      | none => BitVec.ofNat 11 (s.hashChip (pageKey r.fab))

/-! ### Order at the requester -/

/-- Two requests belong to one ordered stream. -/
def Req.mates (e r : Req) : Bool := r.stream.isSome && decide (e.stream = r.stream)
/-- Two requests touch one 64-byte line of one space. -/
def Req.lines (e r : Req) : Bool :=
  decide (0 < e.n ∧ 0 < r.n ∧ e.fab.toNat / 64 ≤ (r.fab.toNat + r.n - 1) / 64 ∧
    r.fab.toNat / 64 ≤ (e.fab.toNat + e.n - 1) / 64)
/-- Two requests name one page, or one board-flat chip. -/
def Req.samePage (e r : Req) : Bool :=
  decide (bits e.fab 56 8 = bits r.fab 56 8) &&
    (if rackGlobal e.fab then decide (pageKey e.fab = pageKey r.fab) else decide (e.pkt.dst = r.pkt.dst))
/-- A FILL request. -/
def Req.fill (r : Req) : Bool := decide (r.pkt.op = 0xCC)
/-- A request on the wire and not answered. -/
def Req.flying (r : Req) : Bool :=
  match r.stage with
  | .sent | .again _ => !r.timedOut
  | _ => false

/-- An earlier request of the stream holds a later one: the same line unless both are reads (R230), or a FILL and a write
of one page (R409). -/
def Req.blocks (e r : Req) : Bool :=
  e.mates r && !e.timedOut &&
    ((e.lines r && (e.write || r.write)) || ((e.fill || r.fill) && e.write && r.write && e.samePage r))

/-- A request of a queue's instruction. -/
def Req.ofInsn (r : Req) : Bool :=
  match r.who with
  | .insn _ _ => true
  | _ => false

/-- Two requests are packets of one instruction, both reads or both writes, the earlier not issued yet: the packets of a move and the
asks of a HINT go out in ascending order (R303, R311). -/
def Req.leads (e r : Req) : Bool :=
  decide (e.who = r.who) && e.ofInsn && decide (e.write = r.write) && e.firstAt.isNone && !e.reread && !r.reread

/-- An earlier request keeps a later one from being sent yet: an ordered write of the same page and VC not yet sent
(R229), or an earlier packet of its instruction. -/
def Req.stalls (e r : Req) : Bool :=
  e.leads r || (e.mates r && !e.timedOut && e.samePage r && e.ordered && r.ordered && decide (e.pkt.vc = r.pkt.vc) &&
    !e.numbered && !e.flying)

/-- A request of the stream and page that is outstanding to a different chip than `dst`: an ordered one waits for it, whichever of
the two came first, since a request refused BUSY is issued later than all that are outstanding (R217, R229). -/
def Req.elsewhere (e r : Req) (dst : BitVec 11) : Bool :=
  e.mates r && e.samePage r && r.ordered && e.flying && rackGlobal r.fab && decide (e.id ≠ r.id ∧ e.pkt.dst ≠ dst)

/-- Requests of the ordered flow to `dst` on a VC, not answered. -/
def State.flowReqs (s : State) (dst : BitVec 11) (vc : Nat) : List Req :=
  s.reqs.filter fun e => e.numbered && e.flying && decide (e.pkt.dst = dst ∧ e.pkt.vc = vc)

/-- The smallest TAG free for an unordered request to `dst` on a VC. -/
def State.freeReqTag (s : State) (dst : BitVec 11) (vc : Nat) : Option Nat :=
  let used := (s.reqs.filter fun e => !e.numbered && decide (e.stage = .sent ∧ e.pkt.dst = dst ∧ e.pkt.vc = vc)).map
    fun e => e.pkt.tag.toNat
  (List.range 4096).find? fun t => !used.contains t

/-- Requests outstanding from this chip. -/
def State.flyingCount (s : State) : Nat := (s.reqs.filter Req.flying).length

/-- Unordered requests to a chip that are not answered. -/
def State.looseReqs (s : State) (dst : BitVec 11) : Nat :=
  (s.reqs.filter fun e => !e.numbered && decide (e.stage = .sent ∧ e.pkt.dst = dst)).length

/-- The limits of R187, and of OUTSTANDING (Table 11.1), leave room for a request to `dst`. -/
def State.room (s : State) (r : Req) (dst : BitVec 11) : Bool :=
  decide (s.flyingCount < 16384) &&
    (match r.who with
      | .insn q _ => r.firstAt.isSome || r.reread || decide (s.outstanding q < 4096)
      | _ => true) &&
    (if r.ordered && decide (dst ≠ s.chip) then decide ((s.flowReqs dst r.pkt.vc).length < 2048)
     else decide (s.looseReqs dst < 4096) && (s.freeReqTag dst r.pkt.vc).isSome)

/-! ### Sending -/

/-- A timed-out request of an ordered flow whose number comes round again is forgotten (log 31). -/
def State.unstale (s : State) (dst : BitVec 11) (vc : Nat) (tag : BitVec 12) : State :=
  { s with reqs := s.reqs.filter fun e =>
      !(e.timedOut && e.numbered && decide (e.pkt.dst = dst ∧ e.pkt.vc = vc ∧ e.pkt.tag = tag)) }

/-- PART of an E-port command beat (Table 2.3). -/
def beatPart (b : BitVec 128) : Nat := bits b 112 4

/-- The partition an E-port event of a request is attributed to: the command's PART (R434). -/
def State.cmdPart (s : State) (r : Req) : Option Nat :=
  match r.who with
  | .eport n tag => ((s.eport n).flight.find? fun c => c.1 = tag).map fun c => beatPart c.2.beat
  | _ => s.tagPart r.pkt.ptag

/-- Sends a request to `dst` for the first time of an issue (R187, R215): an ordered one takes its flow's next number and
synchronises where R187 asks; one to this chip carries no number. -/
def State.issueReq (s : State) (r : Req) (dst : BitVec 11) : State :=
  let ord := r.ordered && decide (dst ≠ s.chip)
  let key := flowKey dst.toNat r.pkt.vc
  let f := s.flows.get {} key
  let tag := if ord then f.next else BitVec.ofNat 12 ((s.freeReqTag dst r.pkt.vc).getD 0)
  let sqm : BitVec 2 := if ord then (if f.sync then 2 else 1) else 0
  let p := { r.pkt with src := s.chip, dst := dst, tag := tag, sqm := sqm }
  let s : State := if ord then { s.unstale dst r.pkt.vc tag with flows := s.flows.put {} key { f with next := f.next + 1, sync := false } } else s
  let s := match r.cache with
    | some c =>
      let s := if (s.lodgedAt (pageKey r.fab)).isNone ∧ (s.locOf c (pageKey r.fab)).isNone ∧ c < 16 then s.count 5 2 c (s.cmdPart r) else s
      s.useLoc c (pageKey r.fab)
    | none => s
  let s := s.modReq r.id fun r =>
    { r with pkt := p, stage := .sent, numbered := ord, sentAt := s.clk.core
             leaseFrom := if r.firstAt.isSome then r.leaseFrom else s.nowInt
             firstAt := some (r.firstAt.getD s.clk.core) }
  s.send p

/-- Sends a refused packet again with its TAG (R187): with SQM 0b10 after its RESYNC, and as the packet that follows a RESYNC,
TIMEOUT or UNREACH in its flow. -/
def State.reissue (s : State) (r : Req) (sync : Bool) : State :=
  let key := flowKey r.pkt.dst.toNat r.pkt.vc
  let f := s.flows.get {} key
  let p := { r.pkt with sqm := if sync || f.sync then 2 else 1 }
  let s : State := { s with flows := s.flows.put {} key { f with sync := false } }
  (s.modReq r.id fun r => { r with pkt := p, stage := .sent, sentAt := s.clk.core }).send p

/-- Every earlier packet of a refused packet's flow has completed. -/
def State.flowClear (s : State) (r : Req) : Bool :=
  (s.flowReqs r.pkt.dst r.pkt.vc).all fun e =>
    decide (e.id = r.id) || decide (2048 ≤ (r.pkt.tag - e.pkt.tag).toNat) || decide (e.pkt.tag = r.pkt.tag)

/-- The location cache of a queue's steward. -/
def State.cacheOf (s : State) (q : Nat) : Nat := 16 + ((s.ctxOf q).map (·.1)).getD 0

/-- The read that fills a COPY's write again (R187), through the location cache of the steward that made the write: a request of its
own, with its own first issue. -/
def State.refetch (s : State) (r : Req) (src : BitVec 64) : State :=
  let rack := rackGlobal src
  let dst : BitVec 11 := if rack then 0 else BitVec.ofNat 11 (s.chip.toNat / 16 * 16 + bits src 41 4)
  s.addReq { r with id := 0, stream := r.stream, cache := if rack then some r.home else none, fab := src
                    pkt := { r.pkt with op := if rack then 0xE0 else 0xF0, dst := dst, len := 16, addr := src.extractLsb' 0 56
                                        data := leBytes 16 r.n }
                    leg := .copyRe r.id, write := false, ordered := false, stage := .held, numbered := false
                    firstAt := none, leaseFrom := 0, policed := 0, reread := true }

/-- The write a COPY read fills. -/
def Req.fills (r : Req) : Option Nat :=
  match r.leg with
  | .copyRe id => some id
  | _ => none

/-- The request in whose place of the issue order a request stands: a read that fills a write again stands where the write does. -/
def Req.place (r : Req) : Nat := if r.reread then r.fills.getD r.id else r.id

/-- The requests that come before one in issue order (R230): requests are numbered in that order, and a read that fills a write again
keeps its place when the write is gone. -/
def State.before (s : State) (r : Req) : List Req := s.reqs.filter fun e => decide (e.place < r.place)

/-- A read whose write is gone. -/
def State.orphan (s : State) (r : Req) : Bool := r.reread && !s.reqs.any fun e => decide (r.fills = some e.id)

/-- Moves one request on, if it can: reads the data of a PUT, sends, or sends again. -/
def State.pumpReq (s : State) (id : Nat) : State :=
  match s.req id with
  | none => s
  | some r =>
    let before := s.before r
    if !s.admits then s
    else if s.orphan r && !r.under then s.endReq id
    else
      match r.stage with
      | .held | .ready =>
        if before.any fun e => e.blocks r then s
        else
          match r.leg, r.stage with
          | .put lpa, .held => (s.modReq id fun r => { r with stage := .reading }).startJob (.reqRead id) [(lpa, r.n)] []
          | _, _ =>
            let dst := s.target r
            if (before.any fun e => e.stalls r) || (s.reqs.any fun e => e.elsewhere r dst) || !s.room r dst then s
            else s.issueReq r dst
      | .again sync =>
        if !s.flowClear r then s
        else
          match r.leg with
          | .put lpa =>
            if s.jobs.any fun j => decide (j.what = .reqRead id) then s
            else s.startJob (.reqRead id) [(lpa, r.n)] []
          | .copyWr src => if s.reqs.any fun e => decide (e.leg = .copyRe id) then s else s.refetch r src
          | _ => s.reissue r sync
      | _ => s

/-- Sends what can be sent, in issue order. -/
def State.pumpReqs (s : State) : State := forEach (s.reqs.map (·.id)) (fun id s => s.pumpReq id) s

/-- The data of a PUT or a repeated COPY write has been read: the packet takes it, and goes (again). -/
def State.giveData (s : State) (id : Nat) (data : Bytes) : State :=
  match s.req id with
  | none => s
  | some r =>
    let s := s.modReq id fun r => { r with pkt := { r.pkt with data := data } }
    match r.stage with
    | .again sync => s.reissue { r with pkt := { r.pkt with data := data } } sync
    | _ => s.modReq id fun r => { r with stage := .ready }

end Sys2Proof.Machine
end

