-- ==== Sys2Proof/Machine/Serve.lean ====
section
/-! DEFINITION. Requests that arrive at this chip (R188, R203, R214, R218 to R222): the order check, the toll gate, layouts
and rights, the lodging check, sending onward, sampling (R254, R255), and performing a request through this chip's
ports. -/

namespace Sys2Proof.Machine

/-! ### Taking a packet -/

/-- The packet at the head of its VC among those received from `src`, if its opcode is one of `ops`. A consumer takes the
packets of a VC in arrival order. -/
def State.headOf (s : State) (src : Nat) (ops : Nat → Bool) : Option Pkt :=
  (List.range 8).findSome? fun v =>
    ((s.inboxOf src).find? fun p => p.vc = v).filter fun p => ops p.op.toNat

/-- The link a packet came on, as counters name it. -/
def instOf (src : Nat) : Nat := if src < 24 then src else 0xFFFF

/-- Answers a request from this chip (R177). -/
def State.reply (s : State) (p : Pkt) (c : CplAddr) (data : Bytes) : State :=
  s.send (s.completion p { c with rdst := if c.rdst = 0 then p.dst.toNat else c.rdst } data)

/-- Answers a request with a status other than OK. -/
def State.refuse (s : State) (p : Pkt) (st : Nat) : State := s.reply p { status := st } []

/-! ### Order (R188) -/

/-- The outcome of the order check. -/
inductive Order
  | pass | retry | resync | behind
  deriving DecidableEq, Repr

/-- The order check of a packet and the flow after it. -/
def FlowIn.check (f : FlowIn) (p : Pkt) : Order × FlowIn :=
  if p.sqm = 0 ∨ p.sqm = 3 then (.pass, f)
  else
    let f := if p.sqm = 2 then { e := p.tag, synced := true } else f
    if !f.synced then (.resync, f)
    else
      let d := (p.tag - f.e).toNat
      if d = 0 then (.pass, { f with e := f.e + 1 })
      else if d < 2048 then (.retry, f) else (.behind, f)

/-- The order check at this chip, for VC4 and VC7 packets of other chips. -/
def State.orderCheck (s : State) (src : Nat) (p : Pkt) : Order × State :=
  if src = 24 ∨ (p.vc ≠ 4 ∧ p.vc ≠ 7) then (.pass, s)
  else
    let key := flowKey p.src.toNat p.vc
    let r := (s.flowsIn.get {} key).check p
    (r.1, { s with flowsIn := s.flowsIn.put {} key r.2 })

/-! ### Layouts (R225) -/

/-- The request control word's fields. -/
def rcwCount (w : Word) : Nat := bits w 0 8
def rcwSize (w : Word) : Nat := bits w 12 3
def rcwFmt (w : Word) : Nat := bits w 15 4
def rcwSgn (w : Word) : Bool := bit w 19

/-- RCW bits that must be zero, and bytes 8 to 15. -/
def rcwClean (p : Pkt) : Bool := decide (word64 p.data 0 &&& 0xFFFFFFFFFFF00F00 = 0 ∧ word64 p.data 8 = 0)

/-- [a, a + n) lies in one 64-byte line. -/
def oneLine (a n : Nat) : Bool := decide (a % 64 + n ≤ 64)
/-- [a, a + n) lies in one 2 MiB page. -/
def onePage (a n : Nat) : Bool := decide (a % mib2 + n ≤ mib2)

/-- Bytes a request names. -/
def Pkt.span (p : Pkt) : Nat :=
  match p.op.toNat with
  | 0x80 | 0x90 | 0xE0 | 0xF0 => rcwCount (word64 p.data 0)
  | 0xCC => bits (word64 p.data 8) 0 22 + 1
  | 0x82 => 0
  | _ => if p.isAtom then 2 ^ rcwSize (word64 p.data 0) else p.len.toNat

/-- The layout of R225 (and of FILL, R408). A board-flat ADDR has [55:45] reserved (Table 9.1). -/
def Pkt.wellLaid (p : Pkt) : Bool :=
  let a := p.addr.toNat
  let w := word64 p.data 0
  (!p.isBf || decide (bits p.addr 45 11 = 0)) &&
  match p.op.toNat with
  | 0x80 | 0x90 => decide (p.len = 16) && rcwClean p && decide (rcwSize w = 0 ∧ 1 ≤ rcwCount w ∧ rcwCount w ≤ 64) &&
      oneLine a (rcwCount w)
  | 0xE0 | 0xF0 => decide (p.len = 16) && rcwClean p && decide (rcwSize w = 0 ∧ 1 ≤ rcwCount w ∧ rcwCount w ≤ 224)
  | 0x81 | 0x91 => decide (1 ≤ p.len.toNat ∧ p.len.toNat ≤ 64) && oneLine a p.len.toNat
  | 0xE1 | 0xF1 => decide (1 ≤ p.len.toNat)
  | 0x82 => decide (p.len = 16 ∧ a = 0) && decide (w &&& 0xFFFFFFFFFFFFE000 = 0)
  | 0xCC => decide (p.len = 16) && decide (word64 p.data 8 &&& 0xFFFFFFFFFFC00000 = 0) && onePage a p.span
  | _ =>
    p.isAtom && decide (p.len = 32) && rcwClean p && decide (rcwCount w = 0 ∧ rcwSize w < 4) &&
      atomAccepts (AtomOp.of p.op.toNat) (rcwFmt w) (rcwSize w) (rcwSgn w) && decide (a % 2 ^ rcwSize w = 0)

/-- The right a request needs: 0 read, 1 write, 2 atomic. -/
def Pkt.right (p : Pkt) : Nat :=
  if p.isAtom then 2 else if p.op.toNat ∈ [0x80, 0x90, 0xE0, 0xF0] then 0 else 1

/-- A request that changes memory. -/
def Pkt.writes (p : Pkt) : Bool := decide (p.right ≠ 0)

/-- R214, for a request other than RSIG. -/
def State.arriveCheck (s : State) (p : Pkt) : Nat :=
  if !p.wellLaid then stMalformed
  else if p.isBf then
    match s.tagPart p.ptag with
    | some q => if s.bfWindow q (bits p.addr 0 41) p.span p.right then stOk else stDenied
    | none => stDenied
  else
    let g := keySeg (pageKey p.addr)
    if !s.segValid g || decide (s.segPages g * mib2 < bits p.addr 0 46 + p.span) then stBadaddr
    else
      match s.tagPart p.ptag with
      | some q => if s.segRight q g p.right && !(p.writes && s.segRo g) then stOk else stDenied
      | none => stDenied

/-! ### Sampling (R254, R255) -/

/-- Multipliers of the sketches. -/
def sketchMul : List Nat := [0x9E3779B1, 0x85EBCA77, 0xC2B2AE3D, 0x27D4EB2F]

/-- Index of a key in a row of 2^w counters. -/
def sketchIdx (key w m : Nat) : Nat := ((key % 2 ^ 32) ^^^ (key / 2 ^ 32 % 2 ^ 32)) * m % 2 ^ 32 / 2 ^ (32 - w)

/-- Counts a key once in a sketch; counters saturate at 16 bits. Row r has its counters at r x 2^w. -/
def sketchAdd (t : Tab Nat) (key w : Nat) : Tab Nat :=
  (List.range 4).foldl (fun t r =>
    let i := r * 2 ^ w + sketchIdx key w (sketchMul.getD r 0)
    t.put 0 i (min 65535 (t.get 0 i + 1))) t

/-- The estimate of a key: the smallest of its counters. -/
def sketchEst (t : Tab Nat) (key w : Nat) : Nat :=
  ((List.range 4).map fun r => t.get 0 (r * 2 ^ w + sketchIdx key w (sketchMul.getD r 0))).foldl min 65535

/-- The key of an accessor and a page. -/
def sketchKey (acc k : Nat) : Nat := acc * 2 ^ 35 + k

/-- INN_CTL fields in force. -/
def Inn.en (i : Inn) : Bool := bit i.ctl 63
def Inn.hintEn (i : Inn) : Bool := bit i.ctl 62
def Inn.movesPerEpoch (i : Inn) : Nat := bits i.ctl 48 8
def Inn.migActive (i : Inn) : Nat := let v := bits i.ctl 40 8; if 1 ≤ v ∧ v ≤ 8 then v else 8
def Inn.holdEpochs (i : Inn) : Nat := bits i.ctl 32 8
def Inn.candMin (i : Inn) : Nat := max 1 (bits i.ctl 16 16)
def Inn.freezeLines (i : Inn) : Nat := bits i.ctl 0 16

/-- A candidate is entered or updated (R255); of several with the smallest estimate the earliest gives way. DESIGN CHOICE (log 156): R255
names none of them. -/
def Inn.addCand (i : Inn) (c : Cand) : Inn :=
  if i.cands.any fun e => e.key = c.key ∧ e.acc = c.acc then
    { i with cands := i.cands.map fun e => if e.key = c.key ∧ e.acc = c.acc then c else e }
  else if c.est < i.candMin then i
  else if i.cands.length < 1024 then { i with cands := i.cands ++ [c] }
  else
    match i.cands.foldl (fun b e =>
        match b with
        | none => some e
        | some f => if e.est < f.est then some e else some f) (none : Option Cand) with
    | some m => if m.est < c.est then { i with cands := (i.cands.erase m) ++ [c] } else i
    | none => i

/-- A rack-global request is performed here as the lodging: it counts, and every 64th is sampled. -/
def State.sample (s : State) (p : Pkt) : State :=
  if p.sqm = 3 ∨ s.inn.en = false then s
  else
    let i := { s.inn with count := s.inn.count + 1 }
    if i.count % 64 ≠ 0 then { s with inn := i }
    else
      let k := pageKey p.addr
      let i := { i with skA := sketchAdd i.skA (sketchKey p.src.toNat k) 14, skT := sketchAdd i.skT (sketchKey 0 k) 12 }
      let i := if p.src = s.chip then i
        else i.addCand { key := k, acc := p.src.toNat, est := sketchEst i.skA (sketchKey p.src.toNat k) 14 }
      State.count { s with inn := i } 0xA 0 0xFFFF none

/-! ### The onward table (R219 to R221) -/

/-- The request is one of a flow: an ordered one (R186), or a write of this chip's own, which carries no number but keeps
every order (R215). -/
def Onward.flows (e : Onward) : Bool :=
  e.pkt.ordered || decide (24 ≤ e.arrival ∧ (e.pkt.vc = 4 ∨ e.pkt.vc = 7)) && e.pkt.writes

/-- Two requests came in one flow (R186, R220). -/
def Onward.mates (a b : Onward) : Bool := a.flows && b.flows && decide (a.pkt.src = b.pkt.src ∧ a.pkt.vc = b.pkt.vc)

/-- The link for an onward packet: R181 at the next hop class, then R182. -/
def State.routeOnward (s : State) (p : Pkt) (lodging : BitVec 11) (arrival : Nat) : Option Nat :=
  let cs := s.candidates p.vc lodging.toNat (p.hop.toNat + 1) (if arrival < 24 then some arrival else none)
  (s.leastQueued cs).bind fun c => s.lportMember (candPort c)

/-- Refuses a request that cannot go onward: BUSY naming the lodging. -/
def State.refuseOnward (s : State) (p : Pkt) (lodging : BitVec 11) : State :=
  s.reply p { status := stBusy, loc := some lodging.toNat } []

/-- The onward packet of entry `i` is sent, or refused for want of a candidate. DESIGN CHOICE (log 155): a request of this chip's own,
which arrived on no hop, has HOP 0 and so goes onward with HOP 1; R219 names an arrival HOP only. -/
def State.sendOnward (s : State) (i : Nat) (e : Onward) : State :=
  match s.routeOnward e.pkt e.lodging e.arrival with
  | some k =>
    let p := { e.pkt with src := s.chip, dst := e.lodging, tag := BitVec.ofNat 12 i, sqm := 3, hop := e.pkt.hop + 1 }
    let from_ := if e.arrival < 24 then some e.arrival else none
    let s := s.enqueue k { pkt := p, arrival := from_ }
    let e' := { e with sent := true, at5 := s.clk.core }
    let s : State := { s with onward := s.onward.map fun x => if x.1 = i then (i, e') else x }
    (s.modPtr fun c => { c with sent := satAdd c.sent 1 }).count 3 2 (instOf e.arrival) (s.tagPart p.ptag)
  | none =>
    let s : State := { s with onward := s.onward.filter fun x => decide (x.1 ≠ i) }
    (s.modPtr fun c => { c with hop := satAdd c.hop 1 }).refuseOnward e.pkt e.lodging

/-- Entry `i` may be sent: it is not held, and no earlier entry of its flow is in the table (R220). -/
def State.onwardReady (s : State) (i : Nat) (e : Onward) : Bool :=
  !e.sent && e.hold.isNone && (s.onward.takeWhile fun x => x.1 ≠ i).all fun x => !x.2.mates e

/-- Sends the onward packets whose turn has come. -/
def State.pumpOnward (s : State) : State :=
  if !s.admits then s
  else forEach (s.onward.map (·.1)) (fun i s =>
    match s.onward.find? fun x => x.1 = i with
    | some (_, e) => if s.onwardReady i e then s.sendOnward i e else s
    | none => s) s

/-- Takes a request into the onward table for a lodging, or, with `hold`, for a frozen placement (R260, R265). -/
def State.takeOnward (s : State) (src : Nat) (p : Pkt) (lodging : BitVec 11) (hold : Option Nat) : Option State :=
  let used := s.onward.map (·.1)
  ((List.range 512).find? fun i => !used.contains i).map fun i =>
    { s with onward := s.onward ++ [(i, { pkt := p, lodging := lodging, arrival := src, hold := hold })] }

/-- The onward table is full (R219, R222). -/
def State.onwardFull (s : State) (p : Pkt) (lodging : BitVec 11) : State :=
  (s.modPtr fun c => { c with full := satAdd c.full 1 }).refuseOnward p lodging

/-- Sends a request onward (R219). -/
def State.goOnward (s : State) (src : Nat) (p : Pkt) (lodging : BitVec 11) : State :=
  match s.takeOnward src p lodging none with
  | some s => s.pumpOnward
  | none => s.onwardFull p lodging

/-- A stale request (R218). -/
def State.stale (s : State) (p : Pkt) : State :=
  (s.modPtr fun c => { c with stale := satAdd c.stale 1 }).refuse p stBusy

/-! ### Performing -/

/-- The number that keeps the writes of one flow and page in order (R229). -/
def Pkt.orderKey (p : Pkt) : Nat :=
  if !p.writes then 0
  else 1 + 2 * ((p.src.toNat * 8 + p.vc) * 2 ^ 36 + if p.isBf then 2 ^ 35 else pageKey p.addr)

/-- The bytes a FILL writes: the byte at fabric address a is byte a mod 8 of the pattern (R303, R408). -/
def fillBytes (pat : Bytes) (a n : Nat) : Bytes := (List.range n).map fun i => pat.getD ((a + i) % 8) 0

/-- Lines of a page that [ofs, ofs + n) touches. -/
def linesOf (ofs n : Nat) : List Nat := (List.range ((ofs + n - 1) / 64 - ofs / 64 + 1)).map (ofs / 64 + ·)

/-- The pages a request touches: that of ADDR and, for a BRD or BWR that runs past its end, the next (R225). -/
def Pkt.pages (p : Pkt) : List Nat :=
  let k := pageKey p.addr
  if p.isBf || onePage p.addr.toNat p.span then [k] else [k, k + 1]

/-- The lines of page `k` that a request touches. -/
def Pkt.linesIn (p : Pkt) (k : Nat) : List Nat :=
  ((linesOf p.addr.toNat p.span).filter fun x => decide (x / 32768 = k)).map (· % 32768)

/-- A write to a page whose placement is being copied marks the lines it touches (R260, step 2). -/
def State.markDirty (s : State) (p : Pkt) : State :=
  if p.writes && !p.isBf && decide (p.op ≠ 0x82) &&
      s.inn.placements.any fun l => p.pages.contains l.key && !l.repl then
    let mark := fun (l : Placement) => { l with dirty := l.dirty ++ (p.linesIn l.key).filter fun x => !l.dirty.contains x }
    { s with inn := { s.inn with placements := s.inn.placements.map fun l => if p.pages.contains l.key then mark l else l } }
  else s

/-- The local ranges of a request whose pages begin at `bases`. -/
def Pkt.ranges (p : Pkt) (bases : List Nat) : List (Nat × Nat) :=
  let ofs := p.addr.toNat % mib2
  match bases with
  | [a, b] => [(a + ofs, mib2 - ofs), (b, ofs + p.span - mib2)]
  | l => l.map fun a => (a + ofs, p.span)

/-- The bytes of a write laid over its local ranges. -/
def overRanges : List (Nat × Nat) → Bytes → List (Nat × Bytes)
  | [], _ => []
  | (a, n) :: l, d => (a, d.take n) :: overRanges l (d.drop n)

/-- Performs a request at local ranges (R211, R226, R408); its completion follows when the carrier has answered. -/
def State.perform (s : State) (src : Nat) (p : Pkt) (l : List (Nat × Nat)) (loc : Option Nat) : State :=
  let s := s.markDirty p
  if p.isAtom then s.startJob (.atomRead p loc (s.fmtWord (rcwFmt (word64 p.data 0)))) l [] p.orderKey true
  else if !p.writes then s.startJob (.serve p loc src l) l []
  else
    let d := if p.op = 0xCC then fillBytes (slice p.data 0 8) p.addr.toNat p.span else slice p.data 0 p.len.toNat
    s.startJob (.serve p loc src l) [] (overRanges l d) p.orderKey

/-- The placement that freezes a page (R260, step 5), until the PL_DROP of one that failed to commit has completed (R261). -/
def State.frozen (s : State) (k : Nat) : Option Placement :=
  s.inn.placements.find? fun l => decide (l.key = k) && !l.repl && decide (l.phase = .final ∨ l.phase = .committing ∨ l.phase = .dropping)

/-- Where all the pages of a request begin here, if each is here. -/
def allAt (f : Nat → Option Nat) : List Nat → Option (List Nat)
  | [] => some []
  | k :: l =>
    match f k, allAt f l with
    | some a, some b => some (a :: b)
    | _, _ => none

/-- A rack-global request that passed R214 meets the lodging check (R218, R260, R262). One that runs into the next page is
performed where both pages are here, and is stale otherwise (DESIGN CHOICE, log 33). A write of a frozen page that finds no free
onward entry is stale, as Table 10.15 says of that very case; R219 and Table 9.7 have LOC_VALID 1 for a full table (DEDUCED, log
163). -/
def State.lodgeCheck (s : State) (src : Nat) (p : Pkt) : State :=
  let k := pageKey p.addr
  let read := !p.writes
  match allAt s.lodgedAt p.pages with
  | some bases =>
    match (if read then none else p.pages.findSome? s.frozen) with
    | some l =>
      match s.takeOnward src p 0 (some l.id) with
      | some s => s
      | none => s.stale p
    | none =>
      let loc := if read then (s.steer k p.src.toNat).getD s.chip else s.chip
      (s.sample p).perform src p (p.ranges bases) (some loc.toNat)
  | none =>
    match (if read then allAt s.replicaAt p.pages else none) with
    | some bases => s.perform src p (p.ranges bases) (some s.chip.toNat)
    | none =>
      if (s.lodgedAt k).isSome then s.stale p
      else
      match s.onwardTo k with
      | some to_ =>
        if p.sqm = 3 then s.stale p
        else s.goOnward src p (if read then (s.steer k p.src.toNat).getD to_ else to_)
      | none => s.stale p

/-- A request that passed the order check and its toll gate: R214, then the lodging check, or its own memory for a
board-flat one. -/
def State.admitReq (s : State) (src : Nat) (p : Pkt) : State :=
  let st := s.arriveCheck p
  if st ≠ stOk then s.refuse p st
  else if p.isBf then s.perform src p [(bits p.addr 0 41, p.span)] none
  else s.lodgeCheck src p

/-- A request arrives at its consumer: the order check (R188), the toll gate (R203), then `act`. -/
def State.arrive (s : State) (src : Nat) (p : Pkt) (act : State → State) : State :=
  let s := s.consume src p
  match s.orderCheck src p with
  | (.behind, s) => s.modPtr fun c => { c with behind := satAdd c.behind 1 }
  | (.retry, s) => s.reply p { status := stBusy, retry := true } []
  | (.resync, s) => s.reply p { status := stBusy, resync := true } []
  | (.pass, s) =>
    if src < 24 ∧ p.sqm ≠ 3 ∧ (p.vc = 4 ∨ p.vc = 7) then
      let r := s.toll src p
      if r.2 then r.1.reply p { status := stBusy, policed := true } [] else act r.1
    else act s

/-- The row of a request: the packet at the head of its VC from `src` with opcode `op` is taken (R190). -/
def State.requestRow (s : State) (src : Nat) (ops : Nat → Bool) : State :=
  if !s.admits then s
  else
    match s.headOf src ops with
    | some p => s.arrive src p fun s => s.admitReq src p
    | none => s

end Sys2Proof.Machine
end

