-- ==== Sys2Proof/Machine/Innkeeper.lean ====
section
/-! DEFINITION. The Innkeeper (chapter 10): the hash chip's decisions (R258, R264), the target's part and the lodging's
lead of a placement (R260 to R262), notification, and the epoch (R256). -/

namespace Sys2Proof.Machine

/-! ### The placement word (Table 10.8) -/

def plKind (w : Word) : Nat := bits w 60 4
def plTarget (w : Word) : Nat := bits w 49 11
def plSpad (w : Word) : Bool := bit w 48
def plNotify (w : Word) : Bool := bit w 47
def plSync (w : Word) : Nat := bits w 35 12
def plChip (w : Word) : BitVec 11 := w.extractLsb' 24 11
def plNotifyP0 (w : Word) : Bool := bit w 23

def kMigr : Nat := 0
def kRepl : Nat := 1
def kUnrepl : Nat := 2
def kPin : Nat := 3
def kUnpin : Nat := 4
def kHint : Nat := 5
def kSmigr : Nat := 6
def kSrepl : Nat := 7
def kRepair : Nat := 8
def kPromote : Nat := 9
def kCancel : Nat := 10

/-- A replication. -/
def isReplKind (k : Nat) : Bool := decide (k = kRepl ∨ k = kSrepl)
/-- A migration, the move of a PIN among them. -/
def isMoveKind (k : Nat) : Bool := decide (k = kMigr ∨ k = kSmigr ∨ k = kPin)
/-- The word with another KIND. -/
def plWith (w : Word) (kind : Nat) : Word := setBits w 60 4 kind

/-- Changes the Innkeeper. -/
def State.modInn (s : State) (f : Inn → Inn) : State := { s with inn := f s.inn }
/-- Changes its counters. -/
def State.modInnCnt (s : State) (f : InnCnt → InnCnt) : State := s.modInn fun i => { i with cnt := f i.cnt }

/-! ### Sending placement requests (Table 10.7) -/

/-- The tenancy tag of a segment's OWNER here. -/
def State.ownerTag (s : State) (k : Nat) : BitVec 16 := (s.part (s.segOwner (keySeg k))).tag

/-- Sends a placement request for a page to a chip. -/
def State.sendPl (s : State) (who : Requester) (op : Nat) (k : Nat) (ofs : Nat) (dst : BitVec 11) (data : Bytes) : State :=
  s.addReq { id := 0, who := who
             pkt := { op := BitVec.ofNat 8 op, ptag := s.ownerTag k, dst := dst, len := BitVec.ofNat 8 data.length
                      addr := keyAddr k + BitVec.ofNat 56 ofs, data := data } }

/-- The data of a placement word. -/
def plData (w : Word) : Bytes := leBytes 16 w.toNat

/-- The NOTIFY signal (R260): RSIG with OP set. -/
def State.notify (s : State) (k : Nat) (w : Word) (v : Nat) : State :=
  if !plNotify w then s
  else s.addReq { id := 0, who := .none, ordered := true
                  pkt := { op := 0x82, ptag := if plNotifyP0 w then s.p0Tag else s.ownerTag k, dst := plChip w, len := 16
                           data := leBytes 8 (plSync w + 4096) ++ leBytes 8 v } }

/-- The accessor of a HINT or a replication: the chip itself if a member, else the lowest-slot member of its board. -/
def State.memberFor (s : State) (g chip : Nat) : Option Nat :=
  if s.isMember g chip then some chip
  else (List.range 16).map (chip / 16 * 16 + ·) |>.find? fun c => s.isMember g c

/-! ### The hash chip (R258) -/

/-- The hold of a DIR entry has not ended. -/
def State.held (s : State) (e : Lodge) : Bool := decide (s.now.toNat < e.until_)

/-- The page lodges here in a frame of a pool, and not in its home frame: the pool, true for the scratchpad. -/
def State.inPool (s : State) (k : Nat) : Option Bool := ((s.entry kGuest k).filter fun e => !e.busy).map (·.spad)

/-- The lodging of a page as its hash chip knows it, and its pool: where that is the hash chip itself, its own GUEST entry
names the pool. -/
def State.dirLodging (s : State) (k : Nat) : Nat × Bool :=
  let away := (s.entry kDir k).filter fun d => decide (d.chip ≠ s.chip)
  match away with
  | some d => (d.chip.toNat, d.spad)
  | none => (s.chip.toNat, (s.inPool k).getD false)

/-- The pool a page comes to lie in at TARGET: at its hash chip the home frame, unless it is pinned in the scratchpad pool
(R249). -/
def State.toSpad (s : State) (k : Nat) (w : Word) : Bool :=
  plSpad w && !(decide (plTarget w = s.hashChip k) && decide (plKind w ≠ kPin))

/-- A PIN that needs no move: the page already lodges at TARGET in that pool (R263). -/
def State.pinHere (s : State) (k : Nat) (w : Word) : Bool :=
  decide (plKind w = kPin) && decide (s.dirLodging k = (plTarget w, plSpad w))

/-- Kinds that no PL_ASK asks for: PL_MOVE and PL_DIR carry them. -/
def notAsked (kind : Nat) : Bool := decide (kind = kPromote ∨ kind = kCancel)
/-- Kinds whose TARGET a PL_ASK has checked (R257). -/
def hasTarget (kind : Nat) : Bool := isMoveKind kind || isReplKind kind || decide (kind = kUnrepl) || notAsked kind

/-- The verdict on a placement word, after a HINT has taken the KIND it stands for (Table 10.9). A MIGR to a board that holds
a replica is refused REPL_FULL, since R266 allows no two copies on one board and no row names the case (DESIGN CHOICE, log
135). An ask of KIND PROMOTE or CANCEL for a member is refused WRONG_KIND, since Table 10.9 says nothing of one (DESIGN CHOICE, log
157). -/
def State.verdict (s : State) (k : Nat) (w : Word) (hint : Bool) : Nat :=
  let g := keySeg k
  let d := (s.entry kDir k).getD { chip := s.chip }
  let kind := plKind w
  let t := plTarget w
  let l := s.dirLodging k
  let copies := l.1 :: d.repl.map (·.toNat)
  let moves := (isMoveKind kind && !s.pinHere k w) || isReplKind kind
  let make := if moves && s.overQuota k then vQuota else s.canMake kDir k
  let near := fun (l : List Nat) => l.any fun c => sameBoard c t
  if d.pin && !decide (kind = kPin ∨ kind = kUnpin ∨ kind = kRepair) then vPinned
  else if d.busy && decide (kind ≠ kRepair) then vBusyPage
  else if (kind = kSmigr ∨ kind = kSrepl) ∧ s.held d = true then vHold
  else if decide (make ≠ vGranted) && !decide (kind = kUnpin ∨ kind = kUnrepl ∨ kind = kRepair) then make
  else if hasTarget kind && !s.isMember g t then vNotMember
  else if (isReplKind kind ∧ s.segRo g = false) ∨ (kind = kSmigr ∧ s.segRo g = true) ∨ notAsked kind = true then vWrongKind
  else if hint ∧ (s.inn.hintEn = false ∨ (if isReplKind kind then s.segRepl g else s.segMig g) = false) then vWrongKind
  else if isReplKind kind && (decide (4 ≤ d.repl.length) || near copies) then vReplFull
  else if (kind = kMigr ∨ kind = kSmigr) ∧ (l = (t, s.toSpad k w) ∨ l = (t, plSpad w)) then vSame
  else if (kind = kMigr ∨ kind = kSmigr) ∧ near (d.repl.map (·.toNat)) = true then vReplFull
  else if kind = kUnrepl ∧ d.repl.contains (BitVec.ofNat 11 t) = false then vSame
  else if kind = kRepair ∧ d.repl = [] then vNoReplica
  else vGranted

/-- The word a HINT stands for (R264): replication for a read-only segment, else migration, to the issuing chip or a member
of its board; without one, to the issuing chip, which is no member. -/
def State.hintWord (s : State) (k src : Nat) (w : Word) : Word :=
  setBits (plWith w (if s.segRo (keySeg k) then kRepl else kMigr)) 49 11 ((s.memberFor (keySeg k) src).getD src)

/-- Drops every replica of a page (R262). -/
def State.dropReplicas (s : State) (k : Nat) (w : Word) : State :=
  let d := (s.entry kDir k).getD {}
  let s := forEach d.repl (fun c s => s.sendPl .none 0xC6 k 0 c (plData (plWith w kUnrepl))) s
  s.modLodge kDir k fun e => { e with repl := [], rspad := [] }

/-- A DIR entry names a further replica, in the pool of its placement word. -/
def Lodge.addReplica (e : Lodge) (w : Word) : Lodge :=
  let c := BitVec.ofNat 11 (plTarget w)
  { e with repl := e.repl ++ [c], rspad := if plSpad w then e.rspad ++ [c] else e.rspad }
/-- A DIR entry names a replica no more. -/
def Lodge.dropReplica (e : Lodge) (c : BitVec 11) : Lodge := { e with repl := e.repl.erase c, rspad := e.rspad.filter (· ≠ c) }

/-- The placement of a page ends at its hash chip (R260): BUSY cleared, and the notification. -/
def State.endAtHash (s : State) (k : Nat) (w : Word) (v : Nat) : State :=
  (s.modLodge kDir k fun e => { e with busy := false }).notify k w v

/-- The hash chip records a move (R258, R260, step 8): CHIP, PIN, the pool, and the hold. -/
def State.recordMove (s : State) (k : Nat) (w : Word) : State :=
  let hold := s.now.toNat + s.inn.holdEpochs * 1000000
  (s.makeLodge kDir k fun e =>
    { e with chip := BitVec.ofNat 11 (plTarget w), spad := s.toSpad k w, pin := e.pin || decide (plKind w = kPin)
             until_ := hold }).endAtHash k w 1

/-! ### The lodging leads (R259 to R262) -/

/-- Changes a placement. -/
def State.modPl (s : State) (id : Nat) (f : Placement → Placement) : State :=
  s.modInn fun i => { i with placements := i.placements.map fun l => if l.id = id then f l else l }
/-- A placement is over. -/
def State.endPl (s : State) (id : Nat) : State :=
  s.modInn fun i => { i with placements := i.placements.filter fun l => decide (l.id ≠ id) }

/-- A lodging can start a placement: the page lodges here, none is under way for it, its partition is not over its exception
quota (R207, R266), and MIG_ACTIVE allows one more. -/
def State.canLead (s : State) (k : Nat) : Bool :=
  (s.lodgedAt k).isSome && !(s.inn.placements.any fun l => l.key = k) && !s.overQuota k &&
    decide (s.inn.placements.length < s.inn.migActive)

/-- The lodging starts a placement with PL_OPEN. -/
def State.lead (s : State) (k : Nat) (w : Word) : State :=
  let id := s.nextId
  let base := (s.lodgedAt k).getD 0
  let s := s.fresh.modInn fun i =>
    { i with placements := i.placements ++ [{ id := id, key := k, word := w, repl := isReplKind (plKind w), base := base }] }
  s.sendPl (.placement id 0xC2) 0xC2 k 0 (BitVec.ofNat 11 (plTarget w)) (plData w)

/-- PL_DATA requests a placement may have outstanding (R267). -/
def plMaxOut : Nat := 64

/-- Reads the next pieces of a placement's copy: 224 bytes in the first pass, marked lines after it (R260). -/
def State.copyGo (s : State) (id : Nat) : Nat → State
  | 0 => s
  | fuel + 1 =>
    match s.inn.placements.find? fun l => l.id = id with
    | none => s
    | some l =>
      let base := l.base
      if plMaxOut ≤ l.out then s
      else if l.pass = 0 ∧ l.off < mib2 then
        let n := min 224 (mib2 - l.off)
        ((s.modPl id fun l => { l with off := l.off + n, out := l.out + 1 }).startJob (.plRead id l.off)
          [(base + l.off, n)] []).copyGo id fuel
      else
        match l.todo with
        | x :: t =>
          ((s.modPl id fun l => { l with todo := t, out := l.out + 1 }).startJob (.plRead id (64 * x))
            [(base + 64 * x, 64)] []).copyGo id fuel
        | [] => s

/-- A write to a page is under way at its ports. -/
def State.writing (s : State) (k : Nat) : Bool :=
  s.jobs.any fun j =>
    match j.what with
    | .serve p _ _ _ | .atomRead p _ _ | .atomWrite p _ _ => p.writes && !p.isBf && p.pages.contains k
    | _ => false

/-- Moves a placement on when nothing of the present pass is outstanding (R260, steps 4 and 5; R262). -/
def State.pumpPl (s : State) (id : Nat) : State :=
  let copies := s.inn.placements.any fun l => decide (l.id = id ∧ (l.phase = .copying ∨ l.phase = .final))
  let s := if copies then s.copyGo id plMaxOut else s
  match s.inn.placements.find? fun l => l.id = id with
  | none => s
  | some l =>
    if l.out ≠ 0 ∨ l.todo ≠ [] ∨ (l.pass = 0 ∧ l.off < mib2) then s
    else
      match l.phase with
      | .copying =>
        if l.repl then
          (s.modPl id fun l => { l with phase := .committing }).sendPl (.placement id 0xC4) 0xC4 l.key 0
            (BitVec.ofNat 11 (plTarget l.word)) (plData l.word)
        else
          let f := decide (l.dirty.length ≤ s.inn.freezeLines ∨ 4 ≤ l.pass + 1)
          (s.modPl id fun l =>
            { l with pass := l.pass + 1, todo := l.dirty, dirty := [], phase := if f then .final else .copying }).copyGo id
              plMaxOut
      | .final =>
        if s.writing l.key then s
        else if l.dirty ≠ [] then (s.modPl id fun l => { l with todo := l.dirty, dirty := [] }).copyGo id plMaxOut
        else
          (s.modPl id fun l => { l with phase := .committing }).sendPl (.placement id 0xC4) 0xC4 l.key 0
            (BitVec.ofNat 11 (plTarget l.word)) (plData l.word)
      | _ => s

/-- Moves every placement led here on. -/
def State.pumpPls (s : State) : State :=
  if !s.admits then s else forEach (s.inn.placements.map (·.id)) (fun id s => s.pumpPl id) s

/-- A frozen page's held requests are performed here after all (R261). -/
def State.performHeld (s : State) (id : Nat) : State :=
  let mine := s.onward.filter fun x => decide (x.2.hold = some id)
  let s : State := { s with onward := s.onward.filter fun x => decide (x.2.hold ≠ some id) }
  forEach mine (fun x s => s.lodgeCheck x.2.arrival x.2.pkt) s

/-- A frozen page's held requests go onward to its new lodging (R260, step 7). -/
def State.releaseHeld (s : State) (id : Nat) (to_ : BitVec 11) : State :=
  State.pumpOnward
    { s with onward := s.onward.map fun x =>
        if x.2.hold = some id then (x.1, { x.2 with hold := none, lodging := to_ }) else x }

/-- A page's entry of one kind becomes one of another, in its way and charged to the same PART (R251, R252); where one of the
new kind stands already, it merges into that one and its own way is freed. -/
def State.turnLodge (s : State) (a b k : Nat) (f : Lodge → Lodge) : State :=
  match s.entry a k with
  | none => s
  | some e =>
    if (s.entry b k).isSome then (s.freeLodge a k).modLodge b k fun x => f { x with spad := e.spad, frame := e.frame }
    else s.modLodge a k fun e => f { kind := b, key := k, part := e.part, spad := e.spad, frame := e.frame }

/-- The lodging flips (R260, step 7): GUEST to NOTE, or the hash chip's DIR entry names the new lodging. A move within this
chip is done with its commit. -/
def State.flip (s : State) (k : Nat) (to_ : BitVec 11) : State :=
  if to_ = s.chip then s
  else if s.isHash k then (s.freeLodge kGuest k).modLodge kDir k fun e => { e with chip := to_ }
  else
    s.turnLodge kGuest kNote k fun e =>
      { e with chip := to_, until_ := s.now.toNat + 4000000, spad := false, frame := 0 }

/-- Tells the hash chip the outcome, or records it when the hash chip leads itself; a replication whose page has been promoted
elsewhere meanwhile is abandoned (Table 10.15). -/
def State.directHash (s : State) (l : Placement) (kind : Nat) : State :=
  if s.isHash l.key then
    let s := s.endPl l.id
    if kind = kCancel then s.endAtHash l.key l.word 2
    else if l.repl && decide ((s.dirLodging l.key).1 ≠ s.chip.toNat) then
      ((s.modInnCnt fun c => { c with abandoned := satAdd c.abandoned 1 }).sendPl .none 0xC6 l.key 0
        (BitVec.ofNat 11 (plTarget l.word)) (plData l.word)).endAtHash l.key l.word 2
    else if l.repl then
      (s.modLodge kDir l.key fun e => e.addReplica l.word).endAtHash l.key
        l.word 1
    else s.recordMove l.key l.word
  else
    let ph : PlPhase := if kind = kCancel then .cancelling else .directing
    (s.modPl l.id fun l => { l with phase := ph, tries := 0, retryAt := none }).sendPl (.placement l.id 0xC5) 0xC5 l.key 0
      (BitVec.ofNat 11 (s.hashChip l.key)) (plData (plWith l.word kind))

/-- A placement is abandoned before its commit (R261). -/
def State.abandonPl (s : State) (l : Placement) : State :=
  let s := s.modInnCnt fun c => { c with abandoned := satAdd c.abandoned 1 }
  let s := s.modPl l.id fun l => { l with phase := .cancelling, todo := [], off := mib2 }
  let s := s.performHeld l.id
  let s := s.sendPl .none 0xC6 l.key 0 (BitVec.ofNat 11 (plTarget l.word)) (plData l.word)
  s.directHash l kCancel

/-- The wait before a PL_DIR is repeated (R244): d and less than half of it more, in 0.2 ns. -/
def State.backoff (s : State) (n : Nat) : Nat :=
  let d := min (250 * 2 ^ (n - 1)) 32000
  5 * d + s.free.toNat % (5 * d / 2)

/-- The chip receives a refusal for a page: the count of replications granted since starts again (R256, step 4). -/
def State.pageRefused (s : State) (k : Nat) : State := s.modInn fun i => { i with grants := i.grants.put 0 k 0 }

/-- A completion of a placement request that this chip sent (R260 to R262): `op` the request, `st` its status, `v` the
verdict of a PL_OPEN. -/
def State.plAnswer (s : State) (id op st v : Nat) : State :=
  match s.inn.placements.find? fun l => l.id = id with
  | none => s
  | some l =>
    match l.phase with
    | .opening =>
      if st = stOk ∧ v = vGranted then (s.modPl id fun l => { l with phase := .copying, dirty := [] }).pumpPl id
      else
        let s := if st = stOk then (s.modInnCnt fun c => { c with refused := satAdd c.refused 1 }).pageRefused l.key else s
        s.abandonPl l
    | .copying | .final =>
      if op ≠ 0xC3 then s
      else if st = stOk then (s.modPl id fun l => { l with out := l.out - 1 }).pumpPl id else s.abandonPl l
    | .committing =>
      if op ≠ 0xC4 then s
      else if st = stOk then
        let own := some (s.segOwner (keySeg l.key))
        if l.repl then
          ((s.modInnCnt fun c => { c with replicated := satAdd c.replicated 1 }).count 0xA 2 0xFFFF own).directHash l
            (plKind l.word)
        else
          let to_ := BitVec.ofNat 11 (plTarget l.word)
          let s := ((s.modInnCnt fun c => { c with migrated := satAdd c.migrated 1 }).count 0xA 1 0xFFFF own).flip l.key to_
          let s := s.directHash l (plKind l.word)
          if to_ = s.chip then s.performHeld id else s.releaseHeld id to_
      else
        (s.modPl id fun l => { l with phase := .dropping }).sendPl (.placement id 0xC6) 0xC6 l.key 0
          (BitVec.ofNat 11 (plTarget l.word)) (plData l.word)
    | .dropping =>
      if op ≠ 0xC6 then s
      else
        let s := s.modInnCnt fun c => { c with abandoned := satAdd c.abandoned 1 }
        let s := (s.modPl id fun l => { l with phase := .cancelling }).performHeld id
        s.directHash l kCancel
    | .directing | .cancelling =>
      if op ≠ 0xC5 then s
      else if st = stOk then s.endPl id
      else
        let n := l.tries + 1
        (s.modPl id fun l => { l with tries := n, retryAt := some (s.clk.core + s.backoff n) }).drew

/-- A copy read has ended: its bytes go out as PL_DATA, or poison abandons the placement (R261). -/
def State.plReadDone (s : State) (id ofs : Nat) (j : Job) (n : Nat) : State :=
  match s.inn.placements.find? fun l => l.id = id with
  | none => s
  | some l =>
    if l.phase ≠ .copying ∧ l.phase ≠ .final then s
    else if j.status ≠ stOk then s.abandonPl l
    else
      s.sendPl (.placement id 0xC3) 0xC3 l.key ofs (BitVec.ofNat 11 (plTarget l.word)) (j.bytes (l.base + ofs) n)

/-! ### PL_ASK -/

/-- The grant of a placement word from `src` (R258, R259, R262, R263, R265). -/
def State.grant (s : State) (k src : Nat) (w : Word) : State :=
  let kind := plKind w
  let l := (s.dirLodging k).1
  if kind = kUnrepl then
    ((s.modLodge kDir k fun e => e.dropReplica (BitVec.ofNat 11 (plTarget w))).sendPl .none 0xC6 k 0
      (BitVec.ofNat 11 (plTarget w)) (plData w)).notify k w 1
  else if kind = kUnpin then (s.modLodge kDir k fun e => { e with pin := false }).notify k w 1
  else if s.pinHere k w then
    ((s.dropReplicas k w).makeLodge kDir k fun e =>
      { e with pin := true, chip := BitVec.ofNat 11 l, spad := plSpad w }).notify k w 1
  else if kind = kRepair then
    match s.entry kDir k with
    | some d =>
      match d.repl with
      | c :: _ =>
        (s.modLodge kDir k fun e => { e.dropReplica c with chip := c, spad := e.rspad.contains c }).sendPl .none 0xC1 k 0 c (plData (plWith w kPromote))
      | [] => s
    | none => s
  else
    let s := if kind = kPin then s.dropReplicas k w else s
    let s := s.makeLodge kDir k fun e => { e with busy := true, chip := BitVec.ofNat 11 l }
    if src = l then s
    else if l = s.chip.toNat then if s.canLead k then s.lead k w else s.endAtHash k w 2
    else s.sendPl (.placement 0 0xC1) 0xC1 k 0 (BitVec.ofNat 11 l) (plData w)

/-- A placement request whose word and layout are in order: LENGTH 16 and reserved bits zero. -/
def plClean (p : Pkt) : Bool :=
  decide (p.len = 16 ∧ word64 p.data 0 &&& 0x7FFFFF = 0 ∧ word64 p.data 8 = 0 ∧ p.addr.toNat % mib2 = 0) &&
    decide (plKind (word64 p.data 0) < 11)

/-- PL_ASK at the hash chip. -/
def State.ask (s : State) (p : Pkt) : State :=
  let k := pageKey p.addr
  let g := keySeg k
  let w := word64 p.data 0
  let right := match s.tagPart p.ptag with
    | some q => s.segRight q g 0
    | none => false
  if !plClean p then s.refuse p stMalformed
  else if !s.segValid g || decide (s.segPages g ≤ keyPage k) || !s.isHash k then s.refuse p stBadaddr
  else if !right then s.refuse p stDenied
  else
    let hint := decide (plKind w = kHint)
    let w' := if hint then s.hintWord k p.src.toNat w else w
    let v := s.verdict k w' hint
    let s := if v = vGranted then s
      else
        let s := s.modInnCnt fun c => { c with refused := satAdd c.refused 1 }
        if hint then s.modInnCnt fun c => { c with hintDrop := satAdd c.hintDrop 1 } else s
    let promoted := match s.entry kDir k with
      | some d => (d.repl.head?.getD 0).toNat
      | none => 0
    let data := if plKind w = kRepair ∧ v = vGranted then leBytes 2 v ++ leBytes 2 promoted ++ zeros 4 else leBytes 8 v
    let s := if v = vGranted then s.grant k p.src.toNat w' else s
    s.reply p {} data

/-- The proposer is the lodging: it starts on the grant of a placement that moves data (R259), of the word a HINT stands for
too. -/
def State.granted (s : State) (k : Nat) (w : Word) : State :=
  let w := if plKind w = kHint then s.hintWord k s.chip.toNat w else w
  let here := (s.entry kGuest k).map (·.spad) |>.getD false
  let moves := (isMoveKind (plKind w) && !decide (plTarget w = s.chip.toNat ∧ s.toSpad k w = here)) || isReplKind (plKind w)
  if moves && (s.lodgedAt k).isSome then
    if s.canLead k then s.lead k w
    else
      let id := s.nextId
      let l : Placement := { id := id, key := k, word := w, repl := isReplKind (plKind w), phase := .cancelling }
      State.directHash ((s.fresh.modInn fun i => { i with placements := i.placements ++ [l] }).modInnCnt fun c =>
        { c with abandoned := satAdd c.abandoned 1 }) l kCancel
  else s

/-! ### The other receivers -/

/-- A placement request other than PL_ASK is refused: malformed, an undefined segment, a SRC outside the member set
(R257), or a full work list (R259). -/
def State.plCheck (s : State) (p : Pkt) (word : Bool) : Nat :=
  let k := pageKey p.addr
  let g := keySeg k
  if word && !plClean p || !word && !(decide (1 ≤ p.len.toNat) && onePage p.addr.toNat p.len.toNat) then stMalformed
  else if !s.segValid g || decide (s.segPages g ≤ keyPage k) || !s.isMember g p.src.toNat then stBadaddr
  else stOk

/-- Work-list entries in use: copy writes not yet performed. -/
def State.work (s : State) : Nat :=
  (s.jobs.filter fun j => match j.what with
    | .plWrite _ => true
    | _ => false).length

/-- A chip learns of the verdict on a placement word for a page: it counts the replications granted since the last refusal of
any KIND (R256, step 4), started or not (DEDUCED, log 151). -/
def State.verdictSeen (s : State) (k : Nat) (w : Word) (v : Nat) : State :=
  let w := if plKind w = kHint then s.hintWord k s.chip.toNat w else w
  if v ≠ vGranted then s.pageRefused k
  else if isReplKind (plKind w) then s.modInn fun i => { i with grants := i.grants.put 0 k (i.grants.get 0 k + 1) }
  else s

/-- PL_MOVE at the lodging, or PROMOTE at a replica. -/
def State.plMove (s : State) (p : Pkt) : State :=
  let k := pageKey p.addr
  let w := word64 p.data 0
  let st := s.plCheck p true
  if st ≠ stOk then s.refuse p st
  else if plKind w = kPromote then
    match s.entry kReplica k with
    | some e => (s.turnLodge kReplica kGuest k fun g => { g with chip := e.chip, busy := false }).reply p {} []
    | none => s.refuse p stBusy
  else
    let s := s.verdictSeen k w vGranted
    if s.canLead k then (s.lead k w).reply p {} [] else s.refuse p stBusy

/-- The placement of a page to the other pool of this chip, which leads it and is its target: its GUEST entry stays as it is
until the commit. -/
def State.ownMove (s : State) (k : Nat) : Option Placement :=
  if (s.entry kGuest k).any fun e => !e.busy then
    s.inn.placements.find? fun l => decide (l.key = k ∧ plTarget l.word = s.chip.toNat) && !l.repl
  else none

/-- The entry a placement makes at its target. -/
def plEntry (w : Word) : Nat := if isReplKind (plKind w) then kReplica else kGuest
/-- The page comes home with a placement word (R249). -/
def State.comesHome (s : State) (k : Nat) (w : Word) : Bool := s.isHash k && !s.toSpad k w && decide (plEntry w = kGuest)

/-- An Innkeeper table read as another state's: the accessors of Locate over a bank. -/
def State.withInn (s : State) (m : Tab Word) : State := { s with tables := { s.tables with inn := m } }

/-- An accepted Innkeeper table that is not yet in force moves a pool, or takes RO from the packet's segment. A PL_OPEN waits for it in
its receive buffer, so that it takes its frame from the pool its page will lie in (R18, R250; DEDUCED, log 44). -/
def State.openWaits (s : State) (p : Pkt) : Bool :=
  let n := s.withInn s.commit.image
  let g := keySeg (pageKey p.addr)
  s.commit.busy && decide (s.commit.code = 5) &&
    (decide (s.pool false ≠ n.pool false ∨ s.pool true ≠ n.pool true) || (s.segRo g && !n.segRo g))

/-- PL_OPEN at the target: the verdict, and the entry with BUSY (R260, step 1; R262). An entry of that kind that stands already
is updated (R251). -/
def State.plOpen (s : State) (p : Pkt) : State :=
  let k := pageKey p.addr
  let w := word64 p.data 0
  let st := s.plCheck p true
  let kind := plEntry w
  let home := s.comesHome k w
  let make := if s.overQuota k then vQuota else s.canMake kind k
  let v := if home then vGranted
    else if make ≠ vGranted then make
    else if (s.freeFrame (plSpad w)).isNone then vNoFrame
    else if !plSpad w && decide (s.pins.hot ≠ 0) then vHot
    else vGranted
  if st ≠ stOk then s.refuse p st
  else
    let s := if home ∨ v ≠ vGranted then s
      else
        let f := (s.freeFrame (plSpad w)).getD 0
        match (if kind = kGuest then s.ownMove k else none) with
        | some l => s.modPl l.id fun l => { l with frame := some (plSpad w, f) }
        | none => s.makeLodge kind k fun e =>
            { e with busy := true, spad := plSpad w, chip := BitVec.ofNat 11 (s.hashChip k), frame := BitVec.ofNat 20 f }
    let s := if v = vGranted then s else s.modInnCnt fun c => { c with refused := satAdd c.refused 1 }
    s.reply p {} (leBytes 8 v)

/-- The local address of a page opened here for a placement. -/
def State.openFrame (s : State) (k : Nat) : Option Nat :=
  match (s.ownMove k).bind (·.frame) with
  | some (sp, f) => some ((s.pool sp).2 + f * mib2)
  | none =>
    match (s.entry kReplica k).filter (·.busy), (s.entry kGuest k).filter (·.busy) with
    | some e, _ => some (s.frameAddr e)
    | none, some e => some (s.frameAddr e)
    | none, none => if s.isHash k then some (s.homeFrame k) else none

/-- PL_DATA at the target. -/
def State.plDataRx (s : State) (p : Pkt) : State :=
  let st := s.plCheck p false
  if st ≠ stOk then s.refuse p st
  else
    match s.openFrame (pageKey p.addr) with
    | none => s.refuse p stBadaddr
    | some a =>
      if 256 ≤ s.work then s.refuse p stBusy
      else s.startJob (.plWrite p) [] [(a + p.addr.toNat % mib2, slice p.data 0 p.len.toNat)]

/-- PL_COMMIT at the target: BUSY clears, and it is the lodging or the replica is valid. A move within this chip takes the
frame opened for it, or leaves its GUEST entry for the home frame. -/
def State.plCommit (s : State) (p : Pkt) : State :=
  let k := pageKey p.addr
  let w := word64 p.data 0
  let kind := plEntry w
  let st := s.plCheck p true
  let own := if kind = kGuest then s.ownMove k else none
  if st ≠ stOk then s.refuse p st
  else if s.comesHome k w then
    (((if own.isSome then s.freeLodge kGuest k else s)).modLodge kDir k fun e =>
      { e with chip := s.chip, spad := false }).reply p {} []
  else
    match own with
    | some l =>
      match l.frame with
      | some (sp, f) =>
        ((s.modLodge kGuest k fun e => { e with spad := sp, frame := BitVec.ofNat 20 f }).modPl l.id fun l =>
          { l with frame := none }).reply p {} []
      | none => s.refuse p stBadaddr
    | none =>
      match (s.entry kind k).filter (·.busy) with
      | some _ => (s.modLodge kind k fun e => { e with busy := false }).reply p {} []
      | none => s.refuse p stBadaddr

/-- PL_DIR at the hash chip (R260, step 8; R261; R262). -/
def State.plDir (s : State) (p : Pkt) : State :=
  let k := pageKey p.addr
  let w := word64 p.data 0
  let st := s.plCheck p true
  if st ≠ stOk then s.refuse p st
  else if !s.isHash k then s.refuse p stBadaddr
  else if plKind w = kCancel then (s.endAtHash k w 2).reply p {} []
  else if isReplKind (plKind w) then
    if (s.dirLodging k).1 = p.src.toNat then
      ((s.modLodge kDir k fun e => e.addReplica w).endAtHash k w 1).reply p {} []
    else
      ((s.sendPl .none 0xC6 k 0 (BitVec.ofNat 11 (plTarget w)) (plData w)).endAtHash k w 2).reply p {} []
  else (s.recordMove k w).reply p {} []

/-- PL_DROP at a target or replica: frame and entry are freed, after a commit whose completion was lost too, so that the
lodging that sends it remains the one (R237, R261). -/
def State.plDrop (s : State) (p : Pkt) : State :=
  let k := pageKey p.addr
  let w := word64 p.data 0
  let st := s.plCheck p true
  if st ≠ stOk then s.refuse p st
  else if isReplKind (plKind w) ∨ plKind w = kUnrepl then (s.freeLodge kReplica k).reply p {} []
  else if p.src = s.chip then
    let s : State := match s.ownMove k with
      | some l => s.modPl l.id fun l => { l with frame := none }
      | none => if (s.entry kGuest k).any (fun e => e.busy) then s.freeLodge kGuest k else s
    s.reply p {} []
  else
    let s := if s.comesHome k w then s.modLodge kDir k fun e => { e with chip := p.src } else s.freeLodge kGuest k
    s.reply p {} []

/-! ### Repair (R265) -/

/-- A read of a read-only page met poison at its lodging: it is held, and the hash chip is asked. -/
def State.askRepair (s : State) (p : Pkt) (src : Nat) : Option State :=
  let id := s.nextId
  (s.fresh.takeOnward src p 0 (some id)).map fun s =>
    s.sendPl (.ask id) 0xC0 (pageKey p.addr) 0 (BitVec.ofNat 11 (s.hashChip (pageKey p.addr)))
      (plData (fields [(60, 4, kRepair)]))

/-- The answer to a REPAIR: the held reads go to the promoted replica and the lodging flips, or they complete with
POISON. -/
def State.repaired (s : State) (id k : Nat) (ok : Bool) (chip : BitVec 11) : State :=
  if ok then
    let s := (s.flip k chip).releaseHeld id chip
    (s.modInnCnt fun c => { c with repaired := satAdd c.repaired 1 }).raise srcRepair
  else
    let mine := s.onward.filter fun x => decide (x.2.hold = some id)
    let s : State := { s with onward := s.onward.filter fun x => decide (x.2.hold ≠ some id) }
    forEach mine (fun x s => s.refuse x.2.pkt stPoison) (s.raise srcCpPoison)

/-! ### The epoch (R256) -/

/-- A candidate's share: min(16, floor(16 a / t)). -/
def candShare (a t : Nat) : Nat := min 16 (16 * a / (max t 1))

/-- MCURVE[d][s] and RCURVE[n] of the table in force. -/
def State.mcurve (s : State) (d i : Nat) : Nat :=
  let e := 17 * (d - 1) + i
  bits (s.innWord (0x100 + 8 * (e / 4))) (16 * (e % 4)) 16
def State.rcurve (s : State) (n : Nat) : Nat := bits (s.innWord 0x200) (16 * n) 16

/-- Replicas of a page as its lodging counts them: the DIR entry's at the hash chip, else those granted (R256). -/
def State.replCount (s : State) (k : Nat) : Nat :=
  if s.isHash k then ((s.entry kDir k).map (·.repl.length)).getD 0 else s.inn.grants.get 0 k

/-- Copies of a page this chip knows of, the lodging first. -/
def State.copies (s : State) (k : Nat) : List Nat :=
  s.chip.toNat :: if s.isHash k then ((s.entry kDir k).map fun d => d.repl.map (·.toNat)).getD [] else []

/-- The word a candidate is proposed with, if it qualifies (R256, steps 1 to 4). DESIGN CHOICE (log 156): with n of 4 or more, which
RCURVE has no entry for, none does. -/
def State.proposal (s : State) (c : Cand) : Option Word :=
  let k := c.key
  let g := keySeg k
  let a := sketchEst s.inn.skA (sketchKey c.acc k) 14
  let t := sketchEst s.inn.skT (sketchKey 0 k) 12
  let pinned := ((s.entry kDir k).map fun d => d.pin || d.busy).getD false
  if (s.lodgedAt k).isNone || pinned || (s.inn.placements.any fun l => l.key = k) then none
  else if s.segRo g then
    if !s.segRepl g || (s.copies k).any (fun x => sameBoard x c.acc) || decide (3 < s.replCount k) ||
        decide (a < s.rcurve (s.replCount k)) then none
    else (s.memberFor g c.acc).map fun m => fields [(60, 4, kSrepl), (49, 11, m)]
  else if !s.segMig g || decide (a < s.mcurve (if sameBoard s.chip.toNat c.acc then 1 else 2) (candShare a t)) ||
      decide (s.mcurve (if sameBoard s.chip.toNat c.acc then 1 else 2) (candShare a t) = 65535) then none
  else some (fields [(60, 4, kSmigr), (49, 11, c.acc)])

/-- Insertion of a candidate in descending order of its estimate; DESIGN CHOICE (log 156): of equal ones the one first in the candidate
table goes first. -/
def insertCand (c : Nat × Cand) : List (Nat × Cand) → List (Nat × Cand)
  | [] => [c]
  | d :: l => if d.1 < c.1 then c :: d :: l else d :: insertCand c l

/-- An epoch ends: proposals in descending order of the estimate, then the sketches are halved. A change of INN_CTL applies
from here (R269). -/
def State.epochEnd (s : State) : State :=
  let i := s.inn
  let order := (i.cands.map fun c => (sketchEst i.skA (sketchKey c.acc c.key) 14, c)).foldl (fun l c => insertCand c l) []
  let props := (order.filterMap fun c => (s.proposal c.2).map fun w => (c.2.key, w)).take i.movesPerEpoch
  let s := if i.en then forEach props (fun x s =>
      if s.inn.placements.length < s.inn.migActive then
        s.sendPl (.ask 0) 0xC0 x.1 0 (BitVec.ofNat 11 (s.hashChip x.1)) (plData x.2)
      else s) s else s
  s.modInn fun i =>
    let a := (i.skA.map fun e => (e.1, e.2 / 2)).filter fun e => decide (e.2 ≠ 0)
    let t := (i.skT.map fun e => (e.1, e.2 / 2)).filter fun e => decide (e.2 ≠ 0)
    let l := i.cands.map fun c => { c with est := sketchEst a (sketchKey c.acc c.key) 14 }
    { i with skA := a, skT := t, cands := l.filter fun c => decide (i.candMin ≤ c.est), ctl := s.reg 0x800000 }

/-- The answer to a PL_ASK sent by this chip (R256, R259, R265). -/
def State.askAnswer (s : State) (id k : Nat) (w : Word) (st : Nat) (data : Bytes) : State :=
  let v := leNat (slice data 0 1)
  let ok := decide (st = stOk ∧ v = vGranted)
  let s := if st = stOk ∧ v ≠ vGranted then s.modInnCnt fun c => { c with refused := satAdd c.refused 1 } else s
  let s := if st = stOk then s.verdictSeen k w v else s
  if plKind w = kRepair then s.repaired id k ok (BitVec.ofNat 11 (leNat (slice data 2 2)))
  else if ok then s.granted k w
  else s

/-! ### Rows -/

/-- The PL_OPEN at the head of VC6 of what came from `src` waits. -/
def State.openHeld (s : State) (src : Nat) : Bool := (s.headOf src fun o => o == 0xC2).any s.openWaits

/-- The row of a placement packet at the head of VC6 of what came from `src`. -/
def State.plRow (s : State) (src op : Nat) (act : Pkt → State → State) : State :=
  if !s.admits then s
  else
    match s.headOf src (fun o => o == op) with
    | some p => act p (s.consume src p)
    | none => s

end Sys2Proof.Machine
end

