-- ==== Sys2Proof/Machine/Operands.lean ====
section
/-! DEFINITION. The operands of instructions: the instruction word (R297), registers (R298), register operands (R299), and
how an instruction runs at its steward: chosen, executed, retired. -/

namespace Sys2Proof.Machine

/-! ### The instruction word (Table 12.1) -/

/-- The word of a class, an opcode and fields. -/
def insnWord (cls op : Nat) (w : Fields) : BitVec 128 :=
  (BitVec.ofNat 4 cls ++ BitVec.ofNat 8 op ++ w.d ++ w.a ++ w.b ++ w.c ++ w.f ++ w.x ++ w.y : BitVec 128)

/-- The fields of a word. -/
def wordFields (w : BitVec 128) : Fields :=
  { d := w.extractLsb' 112 4, a := w.extractLsb' 108 4, b := w.extractLsb' 104 4, c := w.extractLsb' 100 4
    f := w.extractLsb' 96 4, x := w.extractLsb' 64 32, y := w.extractLsb' 0 64 }

end Sys2Proof.Machine

namespace Sys2Proof

/-- Every field an instruction does not use is zero: which of D, A, B and C it uses, and masks of the bits of F, X and Y
that it uses (R282, R297). -/
def Fields.only (w : Fields) (d a b c : Bool) (f x : Nat) (y : Nat := 0) : Bool :=
  (d || decide (w.d = 0)) && (a || decide (w.a = 0)) && (b || decide (w.b = 0)) && (c || decide (w.c = 0)) &&
    decide (w.f.toNat &&& (15 - f) = 0) && decide (w.x.toNat &&& (2 ^ 32 - 1 - x) = 0) &&
    decide (w.y.toNat &&& (2 ^ 64 - 1 - y) = 0)

/-- Every bit of Y. -/
def yAll : Nat := 2 ^ 64 - 1

/-- Bit `i` of F. -/
def Fields.flag (w : Fields) (i : Nat) : Bool := bit w.f i

/-- X[21:0]. -/
def Fields.dest (w : Fields) : Nat := bits w.x 0 22

end Sys2Proof

namespace Sys2Proof.Machine

/-! ### Registers -/

/-- Register `r` of a queue's context. -/
def State.greg (s : State) (q : Nat) (r : Nat) : Word :=
  match s.ctxOf q with
  | some (_, _, c) => c.regs.getD r 0
  | none => 0
/-- The registers D, A, B and C name. -/
def State.gA (s : State) (q : Nat) (w : Fields) : Word := s.greg q w.a.toNat
def State.gB (s : State) (q : Nat) (w : Fields) : Word := s.greg q w.b.toNat
def State.gC (s : State) (q : Nat) (w : Fields) : Word := s.greg q w.c.toNat
def State.gD (s : State) (q : Nat) (w : Fields) : Word := s.greg q w.d.toNat

/-- Bytes laid over registers from `r` on (R303). -/
def State.regBytes (s : State) (q r n : Nat) : Bytes :=
  slice (wordsBytes ((List.range ((n + 7) / 8)).map fun i => s.greg q (r + i))) 0 n

/-- Register writes that lay `b` over registers from `r` on; bytes beyond `b` in its last register are zero. -/
def regWrites (r : Nat) (b : Bytes) : List (Nat × Word) := (bytesWords b).zipIdx.map fun e => (r + e.2, e.1)

/-- The stream of a queue (R227), apart from those of the E-ports. -/
def queueStream (q : Nat) : Nat := 4096 + q

/-! ### Register operands (Table 12.2) -/

/-- A length: [63:40] zero. -/
def lengthCheck (v : Word) : Nat := if bits v 40 24 = 0 then stOk else stMalformed

/-- The first status of a list that is not OK. -/
def firstBad (l : List Nat) : Nat := (l.find? (· ≠ stOk)).getD stOk

/-- Runs `k` if every check is OK, and faults REQUEST with the first status otherwise (R299). -/
def State.checked (s : State) (q : Nat) (l : List Nat) (k : State → State) : State :=
  if firstBad l = stOk then k s else s.execFault q qfRequest (firstBad l)

/-- Runs `k` if a condition on the word holds, and faults ILLEGAL otherwise (R282). -/
def State.legal (s : State) (q : Nat) (c : Bool) (k : State → State) : State :=
  if c then k s else s.execFault q qfIllegal

/-- Runs `k` if the object is allocated to the queue's partition, and faults SYNC_OWNER otherwise (R290); an object
that SYNC_UNC struck faults HW (Table 17.1). -/
def State.owned (s : State) (q n : Nat) (k : State → State) : State :=
  if !s.syncOwned n (s.queue q).part then s.execFault q qfSyncOwner
  else if (s.sync n).bad then s.execFault q qfHw
  else k s

/-- Runs `k` for a queue of P0, and faults PRIVILEGE otherwise (R282, R316). -/
def State.p0Only (s : State) (q : Nat) (k : State → State) : State :=
  if (s.queue q).part = 0 then k s else s.execFault q qfPrivilege

/-! ### Running an instruction -/

/-- The number of a queue's present instruction. -/
def State.seqOf (s : State) (q : Nat) : Nat := ((s.queue q).present.map (·.seq)).getD 0

/-- Changes a queue's present instruction. -/
def State.modInsn (s : State) (q : Nat) (f : Insn → Insn) : State :=
  s.modQueue q fun d => { d with insns := d.insns.map fun i => if i.retired then i else f i }

/-- The body of an instruction row: the steward chooses; if the instruction it would run is this one, it runs. -/
def State.insnRow (s : State) (n : Nat) (word : BitVec 128) (body : Nat → State → State) : State :=
  match s.pick n with
  | .run q w => if w = word then body q (s.begin n q w) else s
  | _ => s

end Sys2Proof.Machine
end

