-- ==== Sys2Proof/Machine/Insn.lean ====
section
/-! DEFINITION. What the control, move, atomic, sync and placement instructions do (R302 to R312), as bodies that run on a
queue whose steward has begun them. -/

namespace Sys2Proof.Machine

/-! ### Control (Table 12.6) -/

/-- A taken transfer to ring index `x` (R282, R302), with register writes. -/
def State.jump (s : State) (q x : Nat) (writes : List (Nat × Word)) : State :=
  let d := s.queue q
  let dist := (x + d.size - d.pc) % (max d.size 1)
  if d.size ≤ x then s.execFault q qfFlow
  else if !d.program && (decide (dist = 0) || decide ((d.tail - d.cnt).toNat ≤ dist)) then s.execFault q qfFlow
  else s.finish q writes dist

/-- X[21:0] as a mask. -/
def destMask : Nat := 0x3FFFFF

def insnSetg (q : Nat) (w : Fields) (s : State) : State :=
  s.legal q (w.only true false false false 0 0 yAll) fun s => s.finish q [(w.d.toNat, w.y)]

def insnAddg (q : Nat) (w : Fields) (s : State) : State :=
  s.legal q (w.only true true true false 1 0 yAll) fun s =>
    s.finish q [(w.d.toNat, s.gA q w + (if w.flag 0 then s.gB q w else w.y))]

def insnJmp (q : Nat) (w : Fields) (s : State) : State :=
  s.legal q (w.only false false false false 0 destMask) fun s => s.jump q w.dest []

def insnBnz (q : Nat) (w : Fields) (s : State) : State :=
  s.legal q (w.only false true false false 1 destMask yAll) fun s =>
    let m : Word := if w.y = 0 then BitVec.allOnes 64 else w.y
    if decide (s.gA q w &&& m ≠ 0) != w.flag 0 then s.jump q w.dest [] else s.finish q []

def insnLoop (q : Nat) (w : Fields) (s : State) : State :=
  s.legal q (w.only false true false false 0 destMask) fun s =>
    let g := s.gA q w
    if 1 < g.toNat then s.jump q w.dest [(w.a.toNat, g - 1)] else s.finish q [(w.a.toNat, 0)]

def insnHalt (q : Nat) (w : Fields) (s : State) : State :=
  s.legal q (w.only false false false false 0 0) fun s =>
    let s := s.retire q []
    let d := s.queue q
    if d.program then
      let s := ((s.modQueue q fun d => { d with halt := false }).enterIdle q).freeStw q
      if (s.queue q).pend && decide ((s.queue q).st = .idle) then s.startProgram q d.tail else s
    else (((s.setQueue q { d with st := .halted, halt := false }).leave q).freeStw q)

def insnYield (q : Nat) (w : Fields) (s : State) : State :=
  s.legal q (w.only false false false false 0 0) fun s =>
    let s := match s.ctxOf q with
      | some (n, _, _) => s.modStw n fun v => { v with yielded := some q }
      | none => s
    s.finish q []

/-! ### Requests of an instruction -/

/-- The chip of a board-flat address. -/
def State.slotChip (s : State) (a : Word) : BitVec 11 := BitVec.ofNat 11 (s.chip.toNat / 16 * 16 + bits a 41 4)

/-- A request of a queue's present instruction for `n` bytes at a fabric address: `op` its rack-global opcode, `bf` its
board-flat one. -/
def State.fabReq (s : State) (q : Nat) (a : Word) (n op bf : Nat) (data : Bytes) (leg : Leg) (write ordered : Bool) :
    State :=
  let rack := rackGlobal a
  s.addReq { id := 0, who := .insn q (s.seqOf q), stream := some (queueStream q)
             cache := if rack then some (s.cacheOf q) else none, fab := a, n := n, leg := leg, write := write
             ordered := ordered, home := s.cacheOf q
             stage := match leg with
               | .copyWr _ => .reading
               | _ => .held
             pkt := { op := BitVec.ofNat 8 (if rack then op else bf), ptag := (s.part (s.queue q).part).tag
                      dst := if rack then 0 else s.slotChip a, len := BitVec.ofNat 8 (if write then n else 16)
                      addr := a.extractLsb' 0 56, data := data } }

/-- The request control word of a read of `n` bytes (Table 9.4). -/
def readRcw (n : Nat) : Bytes := leBytes 16 n

/-- The chunks of R224: 224 bytes from the start of a piece, the last one shorter. -/
def chunks (n : Nat) : List (Nat × Nat) := (List.range ((n + 223) / 224)).map fun i => (224 * i, min 224 (n - 224 * i))

/-- A move of at most 64 bytes within one line of its remote address is one VC4 packet (Table 9.3). -/
def small (a : Word) (n : Nat) : Bool := decide (n ≤ 64) && oneLine a.toNat n

/-- Bytes to the next 2 MiB boundary of a fabric address. -/
def toPage (a : Word) : Nat := mib2 - a.toNat % mib2

/-- The next piece of the present move (R303): `piece i dst src n` sends its packets, `i` the instruction with the operands it took
when it started. -/
def State.movePiece (s : State) (q : Nat) (fabDst fabSrc : Bool) (piece : Insn → Word → Word → Nat → State → State) : State :=
  match (s.queue q).present with
  | none => s
  | some i =>
    let d := i.dst + BitVec.ofNat 64 i.off
    let c := i.src + BitVec.ofNat 64 i.off
    let k := i.len - i.off
    let k := if fabDst then min k (toPage d) else k
    let k := if fabSrc then min k (toPage c) else k
    piece i d c k (s.modInsn q fun i => { i with off := i.off + k })

/-- A move begins, or goes on with its next piece: its operands are checked once, its length first (R299, R303). -/
def State.move (s : State) (q : Nat) (dst src len : Word) (checks : List Nat) (fabDst fabSrc : Bool)
    (piece : Insn → Word → Word → Nat → State → State) : State :=
  match (s.queue q).present with
  | none => s
  | some i =>
    if i.off ≠ 0 then s.movePiece q fabDst fabSrc piece
    else
      s.checked q [lengthCheck len] fun s =>
        if len = 0 then s.finish q []
        else s.checked q checks fun s =>
          (s.modInsn q fun i => { i with dst := dst, src := src, len := len.toNat }).movePiece q fabDst fabSrc piece

/-- The length of a move as a number, zero when it is not a length. -/
def lenOf (v : Word) : Nat := bits v 0 40

/-! ### Move (Table 12.7) -/

/-- Source and destination of a COPY overlap in one space (R304). -/
def overlaps (d c : Word) (n : Nat) : Bool :=
  decide (bits d 56 8 = bits c 56 8 ∧ d.toNat < c.toNat + n ∧ c.toNat < d.toNat + n)

def insnCopy (q : Nat) (w : Fields) (s : State) : State :=
  s.legal q (w.only true true true false 0 0) fun s =>
    let d := s.gD q w
    let c := s.gA q w
    let n := lenOf (s.gB q w)
    let p := (s.queue q).part
    s.move q d c (s.gB q w)
      [if overlaps d c n then stMalformed else stOk, s.issueCheck p d n 1, s.issueCheck p c n 0] true true
      fun _ d c k s => forEach (chunks k) (fun x s =>
        let a := c + BitVec.ofNat 64 x.1
        let id := s.nextId + 1
        let s := s.fabReq q a x.2 0xE0 0xF0 (readRcw x.2) (.copyRe id) false false
        s.fabReq q (d + BitVec.ofNat 64 x.1) x.2 0xE1 0xF1 [] (.copyWr a) true true) s

def insnPut (q : Nat) (w : Fields) (s : State) : State :=
  s.legal q (w.only true true true false 0 0) fun s =>
    let d := s.gD q w
    let c := s.gA q w
    let n := lenOf (s.gB q w)
    let p := (s.queue q).part
    s.move q d c (s.gB q w) [s.issueCheck p d n 1, s.localCheck p c n 0] true false
      fun i d c k s =>
        if small i.dst i.len then s.fabReq q d k 0x81 0x91 [] (.put c.toNat) true true
        else forEach (chunks k) (fun x s =>
          s.fabReq q (d + BitVec.ofNat 64 x.1) x.2 0xE1 0xF1 [] (.put (c.toNat + x.1)) true true) s

def insnGet (q : Nat) (w : Fields) (s : State) : State :=
  s.legal q (w.only true true true false 0 0) fun s =>
    let d := s.gD q w
    let c := s.gA q w
    let n := lenOf (s.gB q w)
    let p := (s.queue q).part
    s.move q d c (s.gB q w) [s.localCheck p d n 1, s.issueCheck p c n 0] false true
      fun i d c k s =>
        if small i.src i.len then s.fabReq q c k 0x80 0x90 (readRcw k) (.get d.toNat) false false
        else forEach (chunks k) (fun x s =>
          s.fabReq q (c + BitVec.ofNat 64 x.1) x.2 0xE0 0xF0 (readRcw x.2) (.get (d.toNat + x.1)) false false) s

def insnPuti (q : Nat) (w : Fields) (s : State) : State :=
  let n := bits w.x 0 6
  s.legal q (w.only true false true false 0 0x3F && decide (n ≤ 32 ∧ w.b.toNat + (n + 7) / 8 ≤ 16)) fun s =>
    let d := s.gD q w
    if n = 0 then s.finish q []
    else s.checked q [if oneLine d.toNat n then stOk else stMalformed, s.issueCheck (s.queue q).part d n 1] fun s =>
      let b := s.regBytes q w.b.toNat n
      (s.modInsn q fun i => { i with len := n, off := n }).fabReq q d n 0x81 0x91 b .plain true true

def insnFill (q : Nat) (w : Fields) (s : State) : State :=
  s.legal q (w.only true true true false 1 0) fun s =>
    let d := s.gD q w
    let n := lenOf (s.gB q w)
    let pat : Word := if w.flag 0 then 0 else s.gA q w
    s.move q d pat (s.gB q w)
      [if bits d 56 8 = 0 then stMalformed else stOk, s.issueCheck (s.queue q).part d n 1] true false
      fun i d _ k s =>
        let id := s.nextId
        (s.fabReq q d k 0xCC 0xCC (leBytes 8 i.src.toNat ++ leBytes 8 (k - 1)) .plain true false).modReq id fun r =>
          { r with pkt := { r.pkt with len := 16 } }

/-! ### Atomic (R305, R306) -/

/-- The present instruction has made its one request; it parks or retires when that is sent (`State.settleQueue`). -/
def State.requested (s : State) (q : Nat) : State := s.modInsn q fun i => { i with len := 1, off := 1 }

/-- An atomic instruction: once its request is sent, the queue parks until the completion brings the old value. -/
def State.atomic (op : AtomOp) (q : Nat) (w : Fields) (s : State) : State :=
  let size := bits w.x 0 2
  let fmt := bits w.x 4 4
  let sgn := bit w.x 8
  s.legal q (w.only true true true (decide (op = .acas)) 0 0x1F3 && atomAccepts op fmt size sgn) fun s =>
    let a := s.gA q w
    s.checked q [if a.toNat % 2 ^ size = 0 then stOk else stMalformed,
        s.issueCheck (s.queue q).part a (2 ^ size) 2] fun s =>
      let m := 2 ^ (8 * 2 ^ size)
      let id := s.nextId
      let data := leBytes 16 (size <<< 12 + fmt <<< 15 + b2n sgn <<< 19) ++ leBytes 8 ((s.gB q w).toNat % m) ++
        leBytes 8 (if op = .acas then (s.gC q w).toNat % m else 0)
      ((s.fabReq q a (2 ^ size) (0x88 + op.num) (0x98 + op.num) data .plain true true).modReq id fun r =>
        { r with pkt := { r.pkt with len := 32 } }).requested q

def insnAadd (q : Nat) (w : Fields) (s : State) : State := s.atomic .aadd q w
def insnAmin (q : Nat) (w : Fields) (s : State) : State := s.atomic .amin q w
def insnAmax (q : Nat) (w : Fields) (s : State) : State := s.atomic .amax q w
def insnAand (q : Nat) (w : Fields) (s : State) : State := s.atomic .aand q w
def insnAor (q : Nat) (w : Fields) (s : State) : State := s.atomic .aor q w
def insnAxor (q : Nat) (w : Fields) (s : State) : State := s.atomic .axor q w
def insnAswp (q : Nat) (w : Fields) (s : State) : State := s.atomic .aswp q w
def insnAcas (q : Nat) (w : Fields) (s : State) : State := s.atomic .acas q w

/-! ### Sync (Table 12.9) -/

/-- The value of a SIG or RSIG. -/
def State.sigValue (s : State) (q : Nat) (w : Fields) : Word := if w.flag 1 then s.gA q w else w.y

/-- SIG's update is made, and it retires (R288). A parked one reads its register as captured when it executed. -/
def State.doSig (s : State) (q : Nat) (w : Fields) (v : Word) : State :=
  (s.finish q []).update (bits w.x 0 12) (w.flag 0) v

/-- RSIG's request: VC4, ordered in the flow to the chip (R307). It retires once it is sent. DESIGN CHOICE (log 155): R213 checks an RSIG
for its layout only, so one of a partition that is not VALID goes out with the partition's TAG, though R213 also says that no packet
carries it then. -/
def State.doRsig (s : State) (q : Nat) (w : Fields) (v : Word) : State :=
  (s.addReq
    { id := 0, who := .insn q (s.seqOf q), stream := some (queueStream q), ordered := true
      pkt := { op := 0x82, ptag := (s.part (s.queue q).part).tag, dst := w.x.extractLsb' 16 11, len := 16
               data := leBytes 8 (bits w.x 0 12 + 4096 * b2n (w.flag 0)) ++ leBytes 8 v.toNat } }).requested q

def insnSig (q : Nat) (w : Fields) (s : State) : State :=
  s.legal q (w.only false true false false 3 0xFFF yAll) fun s => s.owned q (bits w.x 0 12) fun s =>
    if s.written q then s.doSig q w (s.sigValue q w)
    else (s.modInsn q fun i => { i with src := s.sigValue q w }).parkQueue q .release

def insnWait (q : Nat) (w : Fields) (s : State) : State :=
  s.legal q (w.only false true false false 7 0xFFF yAll && decide (bits w.f 0 2 ≠ 3)) fun s =>
    let n := bits w.x 0 12
    s.owned q n fun s =>
      let v := if w.flag 2 then s.gA q w else w.y
      let op := bits w.f 0 2
      if waitHolds op (s.sync n).value v then s.finish q []
      else
        let s := s.setSync n { s.sync n with waiters := (s.sync n).waiters ++ [q] }
        (s.parkQueue q (.sync n op v)).count 7 1 q (some (s.queue q).part)

def insnRsig (q : Nat) (w : Fields) (s : State) : State :=
  s.legal q (w.only false true false false 3 0x7FF0FFF yAll) fun s =>
    if s.written q then s.doRsig q w (s.sigValue q w)
    else (s.modInsn q fun i => { i with src := s.sigValue q w }).parkQueue q .release

def insnFence (q : Nat) (w : Fields) (s : State) : State :=
  s.legal q (w.only false false false false 0 0) fun s =>
    if s.quiet q then s.finish q [] else s.parkQueue q .quiet

/-! ### Placement (R310 to R312) -/

/-- The checks of a placement operand: rack-global, a page of a valid segment, the read right, OWNER or P0 (R312). -/
def State.placeCheck (s : State) (q : Nat) (a : Word) : Nat :=
  let p := (s.queue q).part
  let st := s.issueCheck p a 1 0
  if bits a 56 8 = 0 then stMalformed
  else if st ≠ stOk then st
  else if p = 0 ∨ s.segOwner (keySeg (pageKey a)) = p then stOk else stDenied

/-- Sends a PL_ASK of the present instruction. -/
def State.placeAsk (s : State) (q k : Nat) (w : Word) : State :=
  s.sendPl (.insn q (s.seqOf q)) 0xC0 k 0 (BitVec.ofNat 11 (s.hashChip k)) (plData w)

/-- PIN, UNPIN, MIGR, REPL and UNREPL: one PL_ASK; once it is sent the queue parks for the verdict. -/
def State.place1 (kind q : Nat) (w : Fields) (s : State) : State :=
  let target := decide (kind ≠ kUnpin)
  s.legal q (w.only true true target false 3 0x7FF0FFF) fun s =>
    let a := s.gA q w
    let t := if target then s.gB q w else 0
    let chip := bits w.x 16 11
    s.checked q [if bits t 11 53 = 0 then stOk else stMalformed, s.placeCheck q a] fun s =>
      let go := fun (s : State) =>
        let word := fields [(60, 4, kind), (49, 11, t.toNat), (48, 1, b2n (w.flag 0)), (47, 1, b2n (w.flag 1)),
          (35, 12, bits w.x 0 12), (24, 11, chip), (23, 1, b2n (decide ((s.queue q).part = 0)))]
        (s.placeAsk q (pageKey a) word).requested q
      if chip = s.chip.toNat then s.owned q (bits w.x 0 12) go else go s

def insnPin (q : Nat) (w : Fields) (s : State) : State := s.place1 kPin q w
def insnUnpin (q : Nat) (w : Fields) (s : State) : State := s.place1 kUnpin q w
def insnMigr (q : Nat) (w : Fields) (s : State) : State := s.place1 kMigr q w
def insnRepl (q : Nat) (w : Fields) (s : State) : State := s.place1 kRepl q w
def insnUnrepl (q : Nat) (w : Fields) (s : State) : State := s.place1 kUnrepl q w

def insnHint (q : Nat) (w : Fields) (s : State) : State :=
  s.legal q (w.only false true true false 0 0) fun s =>
    let a := s.gA q w
    let n := (s.gB q w).toNat
    if n = 0 then s.finish q []
    else s.checked q [s.placeCheck q a] fun s =>
      let k := pageKey a
      let left := s.segPages (keySeg k) - keyPage k
      let s := s.modInsn q fun i => { i with len := 1, off := 1 }
      forEach (List.range (min n left)) (fun i s => s.placeAsk q (k + i) (fields [(60, 4, kHint)])) s

/-! ### Parked instructions and pieces go on -/

/-- A request of the present instruction is still to be sent. -/
def State.unsent (s : State) (q seq : Nat) : Bool :=
  s.reqs.any fun r => decide (r.who = .insn q seq) && r.firstAt.isNone

/-- LANE_ALIGN. -/
def Align.word (a : Align) : Word :=
  fields [(61, 1, b2n a.pend), (60, 1, b2n a.done), (59, 1, b2n a.rej), (16, 11, a.good.toNat), (0, 11, a.bad.toNat)]

/-- SLIP retires once its lane has no slip pending, and answers LANE_ALIGN (R316). -/
def State.slipEnd (s : State) (q : Nat) (w : Fields) : State :=
  let n := bits w.x 0 7
  if (s.lane n).align.pend then s
  else
    let s := s.windowSettle n
    s.finish q [(w.d.toNat, (s.lane n).align.word)]

/-- The word is a SLIP instruction's. -/
def isSlip (w : BitVec 128) : Bool := decide (wordClass w = 7 ∧ wordOp w = 0)

/-- The instruction parks for an answer once its request is sent: the atomics, and the placement instructions but HINT
(Table 12.5). -/
def parks (w : BitVec 128) : Bool := decide (wordClass w = 2 ∨ (wordClass w = 5 ∧ wordOp w ≠ 5))

/-- A FENCE, SIG or RSIG whose condition now holds goes on (R301); a move whose piece is sent comes to its boundary, or
retires after its last one (R284, R303); an atomic or a placement instruction whose request is sent parks. -/
def State.settleQueue (s : State) (q : Nat) : State :=
  let s := s.settleHead q
  let d := s.queue q
  match d.st, d.park, d.present with
  | .waiting, .quiet, _ => if s.quiet q then s.finish q [] else s
  | .waiting, .release, some i =>
    if !s.written q then s
    else if wordOp i.word = 0 then s.doSig q (wordFields i.word) i.src
    else (s.modQueue q fun d => { d with park := .sending }).doRsig q (wordFields i.word) i.src
  | .waiting, .sending, some i => if s.unsent q i.seq then s else s.finish q []
  | .active, _, some i =>
    if isSlip i.word then s.slipEnd q (wordFields i.word)
    else if i.off = 0 ∨ s.unsent q i.seq = true then s
    else if parks i.word then s.parkQueue q .answer
    else if i.off = i.len then s.finish q []
    else (s.resumeQueue q).freeStw q
  | _, _, _ => s

/-- Settles every queue a steward is running, every queue that waits, and every one with an instruction not complete, whose HEAD_CNT
follows (R280). -/
def State.settleQueues (s : State) : State :=
  if !s.admits then s
  else forEach ((s.queues.filter fun e => decide (e.2.st = .active ∨ e.2.st = .waiting ∨ e.2.insns ≠ [])).map (·.1))
    (fun q s => s.settleQueue q) s

/-- The answer of a parked instruction arrives (R301): it retires and the queue is released. A queue that no longer runs it
takes nothing. -/
def State.answerQueue (s : State) (q seq : Nat) (writes : List (Nat × Word)) : State :=
  let d := s.queue q
  if (d.st = .waiting ∧ d.park = .answer ∨ d.st = .active) ∧ (d.present.map (·.seq)) = some seq then s.finish q writes else s

end Sys2Proof.Machine
end

