-- ==== Sys2Proof/Machine/Group.lean ====
section
/-! DEFINITION. Collective groups: the Samovar table and the sip tree table in force (Tables 13.1, 13.2, 15.4), digests,
stall deadlines (R340), sip packets (R361), slow-member notices (R372) and the abort of a group (R341). -/

namespace Sys2Proof.Machine

/-! ### Instances -/

/-- Group `g`. -/
def State.grp (s : State) (g : Nat) : Grp := s.groups.get {} g
/-- Replaces group `g`. -/
def State.setGrp (s : State) (g : Nat) (d : Grp) : State := { s with groups := s.groups.put {} g d }
/-- Changes group `g`. -/
def State.modGrp (s : State) (g : Nat) (f : Grp → Grp) : State := s.setGrp g (f (s.grp g))

/-- Changes SMV_DROP, SMV_SIP_DROP and the commit statuses. -/
def State.modSmv (s : State) (f : SmvStat → SmvStat) : State := { s with smv := f s.smv }

/-! ### The Samovar table (Tables 13.1, 13.2) -/

/-- A Samovar table as words by byte offset. -/
abbrev SmvTab := Nat → Word

/-- The table in force. -/
def State.smvTab (s : State) : SmvTab := fun o => s.tables.smv.get (smvReset o) o

def gValid (t : SmvTab) (g : Nat) : Bool := bit (t (64 * g)) 63
def gPart (t : SmvTab) (g : Nat) : Nat := bits (t (64 * g)) 59 4
/-- R. -/
def gRows (t : SmvTab) (g : Nat) : Nat := bits (t (64 * g)) 49 10 + 1
/-- K. -/
def gCols (t : SmvTab) (g : Nat) : Nat := bits (t (64 * g)) 45 4 + 1
def gBase (t : SmvTab) (g : Nat) : Nat := bits (t (64 * g)) 29 16
/-- S in bytes. -/
def gChunk (t : SmvTab) (g : Nat) : Nat := bits (t (64 * g)) 22 7 * 262144
def gWeight (t : SmvTab) (g : Nat) : Nat := bits (t (64 * g)) 18 4
def gBoard (t : SmvTab) (g : Nat) : Nat := bits (t (64 * g + 8)) 0 29 * 4096
def gRack (t : SmvTab) (g : Nat) : Nat := bits (t (64 * g + 16)) 0 29 * 4096
def gAltEn (t : SmvTab) (g : Nat) : Bool := bit (t (64 * g + 24)) 63
def gAlt (t : SmvTab) (g : Nat) : Nat := bits (t (64 * g + 24)) 0 29 * 4096

/-- Entry `i` of the order-table pool. -/
def gPool (t : SmvTab) (i : Nat) : Nat :=
  let o := 0x10000 + 2 * i
  bits (t (8 * (o / 8))) (8 * (o % 8)) 16

/-- The order table of a group: R x K entries. -/
def gOrder (t : SmvTab) (g : Nat) : List Nat :=
  (List.range (gRows t g * gCols t g)).map fun i => gPool t (gBase t g + i)

/-- The chip of member (r, c). -/
def gMember (t : SmvTab) (g r c : Nat) : Nat := gPool t (gBase t g + r * gCols t g + c) % 2048

/-- A bank image: words by byte offset. -/
abbrev Img := Tab Word

/-- The word at byte offset `o` of an image of the table of a code. -/
def imgWord (code : Nat) (m : Img) (o : Nat) : Word := m.get (tableReset code o) o

/-- The descriptor of a group differs between two tables. -/
def gDescChanges (t u : SmvTab) (g : Nat) : Bool := (List.range 4).any fun w => decide (t (64 * g + 8 * w) ≠ u (64 * g + 8 * w))

/-- The descriptor or order table of a group differs between two tables. -/
def gChanges (t u : SmvTab) (g : Nat) : Bool := gDescChanges t u g || decide (gOrder t g ≠ gOrder u g)

/-- A commit that has been accepted and is not yet in force changes the group (R18). -/
def State.gPending (s : State) (g : Nat) : Bool :=
  s.commit.busy && decide (s.commit.code = 6) && gChanges s.smvTab (imgWord 6 s.commit.image) g

/-- PB, the bound on one part (R334). -/
def gPb (t : SmvTab) (g : Nat) : Nat :=
  let k := gCols t g
  (gChunk t g + 32 * k + 4096 * k - 1) / (4096 * k) * 4096

/-- Bytes of one board slot and of one rack slot; zero for a level the shape does not use. -/
def gSlotB (t : SmvTab) (g : Nat) : Nat := if gCols t g = 1 then 0 else 12288 + (gCols t g - 1) * gPb t g
def gSlotR (t : SmvTab) (g : Nat) : Nat := if gRows t g = 1 then 0 else 12288 + 2 * gPb t g

/-- The areas a group uses: start and bytes of the board area, the rack area and the fallback area. -/
def gAreas (t : SmvTab) (g : Nat) : List (Nat × Nat) :=
  [(gBoard t g, 4 * gSlotB t g), (gRack t g, 4 * gSlotR t g)]
/-- The fallback area: board area, then rack area. -/
def gAltArea (t : SmvTab) (g : Nat) : Nat × Nat := (gAlt t g, if gAltEn t g then 4 * gSlotB t g + 4 * gSlotR t g else 0)

/-- Two areas overlap. -/
def areasMeet (a b : Nat × Nat) : Bool := decide (0 < a.2 ∧ 0 < b.2 ∧ a.1 < b.1 + b.2 ∧ b.1 < a.1 + a.2)

/-- Staging or fallback areas of two groups overlap (R330). -/
def groupsMeet (t : SmvTab) (g h : Nat) : Bool :=
  (gAltArea t g :: gAreas t g).any fun a => (gAltArea t h :: gAreas t h).any fun b => areasMeet a b

/-! ### Digests (R322, R337) -/

/-- One byte of the CRC-16 with polynomial x^16 + x^12 + x^5 + 1, most significant bit first. -/
def crc16Byte (c : BitVec 16) (b : Byte) : BitVec 16 :=
  (List.range 8).foldl (fun c i =>
    let top := c.getLsbD 15 != b.getLsbD (7 - i)
    if top then (c <<< 1) ^^^ 0x1021 else c <<< 1) c
/-- The CRC-16 of R322, from 0xFFFF. -/
def crc16 (b : Bytes) : BitVec 16 := b.foldl crc16Byte 0xFFFF

/-- OT_DIG. -/
def gDigest (t : SmvTab) (g : Nat) : BitVec 16 :=
  crc16 (leBytes 2 (gRows t g - 1) ++ leBytes 1 (gCols t g - 1) ++ (gOrder t g).flatMap fun e => leBytes 2 e)

/-- The digest of a scale. -/
def scaleDigest (x : BitVec 32) : BitVec 16 := crc16 (leBytes 4 x.toNat)

/-- A narrow float format: a float other than FP32 (R337, R358). -/
def narrowFmt (code : Nat) (f : Fmt) : Bool := !f.int && decide (code ≠ 0)

/-! ### The sip tree table (Table 15.4) -/

/-- A sip tree table as words by byte offset. -/
abbrev SipTab := Nat → Word
/-- The table in force. -/
def State.sipTab (s : State) : SipTab := fun o => s.tables.sip.get 0 o

def tValid (t : SipTab) (g : Nat) : Bool := bit (t (128 * g)) 63
def tRoot (t : SipTab) (g : Nat) : Bool := bit (t (128 * g)) 62
def tRelay (t : SipTab) (g : Nat) : Bool := bit (t (128 * g)) 61
def tParent (t : SipTab) (g : Nat) : Nat := bits (t (128 * g)) 48 11
def tKids (t : SipTab) (g : Nat) : Nat := bits (t (128 * g)) 40 6
def tRtag (t : SipTab) (g : Nat) : BitVec 16 := (t (128 * g + 8)).extractLsb' 0 16
/-- CHILD i. -/
def tChild (t : SipTab) (g i : Nat) : Nat := bits (t (128 * g + 64 + 8 * (i / 4))) (16 * (i % 4)) 11
/-- The children in list order. -/
def tChildren (t : SipTab) (g : Nat) : List Nat := (List.range (tKids t g)).map fun i => tChild t g i
/-- Every tree neighbour: the parent, then the children. -/
def tNear (t : SipTab) (g : Nat) : List Nat := (if tRoot t g then [] else [tParent t g]) ++ tChildren t g

/-- The tenancy tag of a group's PART. -/
def State.groupTag (s : State) (g : Nat) : BitVec 16 := (s.part (gPart s.smvTab g)).tag
/-- The tag sip packets of a group carry here: a relay has it in RTAG. -/
def State.sipTag (s : State) (g : Nat) : BitVec 16 := if tRelay s.sipTab g then tRtag s.sipTab g else s.groupTag g
/-- The GEN of a group here: a relay keeps its own (R366). -/
def State.sipGen (s : State) (g : Nat) : BitVec 4 :=
  if tRelay s.sipTab g then (s.grp g).relayGen else (s.grp g).gen

/-! ### Sip packets (R361) -/

/-- A sip packet of a group to a neighbour. -/
def State.sipPkt (s : State) (g : Nat) (op : BitVec 8) (seq : Nat) (down : Bool) (ctl : Word) (data : Bytes) (dst : Nat) :
    Pkt :=
  { op := op, ptag := s.sipTag g, src := s.chip, dst := BitVec.ofNat 11 dst
    tag := BitVec.ofNat 12 ((s.sipGen g).toNat * 256), len := 48
    addr := BitVec.ofNat 56 (g * 2 ^ 47 + seq % 4096 * 2 ^ 35 + b2n down * 2 ^ 34)
    data := slice data 0 32 ++ leBytes 8 ctl.toNat ++ zeros 8 }

/-- The control word of SIP_ABORT and SIP_SLOW. -/
def sipNoticeCtl (origin : BitVec 11) (cause : Nat) : Word := fields [(21, 11, origin.toNat), (17, 4, cause)]

/-- Sends a notice on along every tree edge but the one it came from (R372). -/
def State.sipSpread (s : State) (g : Nat) (op : BitVec 8) (ctl : Word) (from_ : Option Nat) : State :=
  if !tValid s.sipTab g then s
  else forEach ((tNear s.sipTab g).filter fun c => some c ≠ from_)
    (fun c s => s.sipSend (s.sipPkt g op 0 false ctl [] c)) s

/-! ### Stall deadlines (R340), on the core's clock, which curfew stops (Table 13.9) -/

/-- Milliseconds in units of 0.2 ns. -/
def ms5 (n : Nat) : Nat := 5000000 * n
/-- STALL_MS, in units of 0.2 ns. -/
def State.stall (s : State) : Nat := ms5 (max 1 (bits (s.reg 0x780000) 0 16))

/-- The deadline starts. -/
def State.startLimit (s : State) (g : Nat) : State :=
  s.modGrp g fun d => { d with limit := some (d.limit.getD (s.clk.core + s.stall)) }
/-- The group advances. -/
def State.advanceLimit (s : State) (g : Nat) : State :=
  s.modGrp g fun d => { d with limit := d.limit.map fun t => max t (s.clk.core + s.stall) }
/-- A slow-member notice moves the deadline. -/
def State.slowLimit (s : State) (g : Nat) : State :=
  let now := s.clk.core
  let f := fun t => min (max (t + s.stall) (now + ms5 100)) (max (now + 4 * s.stall) (now + ms5 100))
  s.modGrp g fun d => { d with limit := d.limit.map f }
/-- A slow-member notice of this chip for a group: it moves the deadline at every member, this one among them (R86, R340). -/
def State.slowNotice (s : State) (g : Nat) : State := (s.sipSpread g 5 (sipNoticeCtl s.chip 0) none).slowLimit g

/-- Slow-member notices for each group this chip is a member of. -/
def State.slowNotices (s : State) : State :=
  forEach ((List.range 512).filter fun g => gValid s.smvTab g) (fun g s => s.slowNotice g) s

/-- With nothing accepted and no sip operation there is no deadline. -/
def State.endLimit (s : State) (g : Nat) : State :=
  s.modGrp g fun d => if d.insns = [] ∧ d.sipOp = none then { d with limit := none } else d

/-! ### Abort (R341) -/

/-- Causes of Table 13.8. -/
def causeStall : Nat := 1
def causePark : Nat := 2
def causeScale : Nat := 3
def causeShape : Nat := 4
def causeOrder : Nat := 5
def causeReset : Nat := 6
def causeDriver : Nat := 7

/-- Requests to carrier memory that a predicate names are given up: commands not issued are dropped, and the results of
the others go nowhere. -/
def State.voidJobs (s : State) (f : JobFor → Bool) : State :=
  let dead := (s.jobs.filter fun j => f j.what).map (·.id)
  { s with cpq := s.cpq.filter fun a => !dead.contains a.job
           jobs := s.jobs.map fun j =>
             if f j.what then
               { j with what := .void, left := (s.cpOut.filter fun a => decide (a.job = j.id) && !a.dead).length }
             else j }

/-- The communication queue of a group (R275). -/
def State.commQueue (s : State) (g : Nat) : Option Nat :=
  (s.queues.find? fun e => e.2.valid && decide (e.2.st ≠ .unbound) && e.2.comm && decide (e.2.group = g)).map (·.1)

/-- A carrier access of group `g`. -/
def ofGroup (g : Nat) : JobFor → Bool
  | .smv h _ _ _ => decide (h = g)
  | _ => false

/-- A carrier access of group `g` that an abort gives up: every one but the record of a contribution that has come (R335). -/
def abortsJob (g : Nat) : JobFor → Bool
  | .smv h _ .header a => decide (h = g ∧ a ≠ 2)
  | w => ofGroup g w

/-- This member takes an abort of group `g`: it is sent on along the tree with its origin and cause, contents and
instructions are discarded, the comm queue faults with `code` at its next boundary, GEN advances and the group is IDLE. -/
def State.takeAbort (s : State) (g cause : Nat) (origin : BitVec 11) (from_ : Option Nat) (code : Nat := qfCollAbort) :
    State :=
  let failed := (s.grp g).insns.head?.map fun c => (c.pc, c.cnt)
  let s := s.sipSpread g 4 (sipNoticeCtl origin cause) from_
  let s := s.voidJobs (abortsJob g)
  let s := s.modGrp g fun d =>
    { myRow := d.myRow, myCol := d.myCol, otDig := d.otDig, chunks := d.chunks, relayGen := d.relayGen
      gen := d.gen + 1, cause := BitVec.ofNat 4 cause, aborts := satAdd d.aborts 1 }
  let s := match s.commQueue g with
    | some q => s.modQueue q fun d => { d with coll := some (code, failed) }
    | none => s
  (s.count 8 2 g (some (gPart s.smvTab g))).raise srcCollAbort

/-- This member aborts a group of its own. -/
def State.abortGroup (s : State) (g cause : Nat) (code : Nat := qfCollAbort) : State :=
  if !gValid s.smvTab g then s else s.takeAbort g cause s.chip none code

/-- Comm queues of aborted groups fault once they stand at a boundary: FAULT_PC names the oldest accepted collective, without
one the instruction that waits for the group (R293). -/
def State.faultComm (s : State) : State :=
  forEach ((s.queues.filter fun e => e.2.coll.isSome && decide (e.2.st ≠ .active)).map (·.1)) (fun q s =>
    let d := s.queue q
    let s := s.setQueue q { d with coll := none }
    match d.coll, d.present with
    | some (code, some at_), _ => s.queueFault q code 0 at_
    | some (code, none), some _ => s.execFault q code
    | some (code, none), none => s.queueFault q code 0 (d.pc, d.cnt)
    | none, _ => s) s

end Sys2Proof.Machine
end

