-- ==== Sys2Proof/Machine/Samovar.lean ====
section
/-! DEFINITION. The Samovar (chapter 13): chunks, parts and pieces (R324), slots and headers (R331, R334, R335), collective
packets (R332, R333), the two stages of RSC and AGT (R325, R326), parking (R339) and the instructions RSC and AGT
(R327, R329). -/

namespace Sys2Proof.Machine

/-! ### Chunks, parts and pieces (R324) -/

/-- `n` grains dealt into `k` shares: where share `j` starts, and its grains. -/
def deal (n k j : Nat) : Nat × Nat := (j * (n / k) + min j (n % k), n / k + (if j < n % k then 1 else 0))

/-- Element width of an instruction. -/
def Coll.width (c : Coll) : Nat := (Fmt.of c.desc).width
/-- Elements of chunk `i`. -/
def Coll.elems (c : Coll) (size i : Nat) : Nat := let n := size * 8 / c.width; min n (c.count - i * n)
/-- Chunks of an instruction. -/
def Coll.total (c : Coll) (size : Nat) : Nat := let n := size * 8 / c.width; max 1 ((c.count + n - 1) / n)
/-- Grains of chunk `i`. -/
def Coll.grains (c : Coll) (size i : Nat) : Nat :=
  let k := 256 / c.width
  (c.elems size i + k - 1) / k
/-- Bytes of `l` grains from grain `a` of chunk `i`: offset in the vector, and length. -/
def Coll.range (c : Coll) (size i a l : Nat) : Nat × Nat :=
  let n := (c.elems size i * c.width + 7) / 8
  let b := min (32 * a) n
  (i * size + b, min (32 * (a + l)) n - b)
/-- Part `j` of chunk `i` among `k`. -/
def Coll.part (c : Coll) (size k i j : Nat) : Nat × Nat :=
  let d := deal (c.grains size i) k j
  c.range size i d.1 d.2
/-- Piece `p` among `r` of part `j`: offset in the vector, offset in the part, length. -/
def Coll.piece (c : Coll) (size k r i j p : Nat) : Nat × Nat × Nat :=
  let d := deal (c.grains size i) k j
  let e := deal d.2 r p
  let x := c.range size i (d.1 + e.1) e.2
  (x.1, 32 * e.1, x.2)

/-- Elements in `len` bytes from byte `o` of the vector: the last byte of a 4-bit vector may hold one. -/
def Coll.count_ (c : Coll) (o len : Nat) : Nat := min (len * 8 / c.width) (c.count - o * 8 / c.width)

/-! ### Elements (R346) and additions -/

/-- The first `n` elements of `w` bits. -/
def elemsOf (w n : Nat) (b : Bytes) : List Nat :=
  (List.range n).map fun i =>
    if w < 8 then (b.getD (i / 2) 0).toNat / (if i % 2 = 0 then 1 else 16) % 16 else leNat (slice b (i * (w / 8)) (w / 8))

/-- Elements of `w` bits as bytes. -/
def bytesOf (w : Nat) (l : List Nat) : Bytes :=
  if w < 8 then (List.range ((l.length + 1) / 2)).map fun i =>
    BitVec.ofNat 8 (l.getD (2 * i) 0 % 16 + 16 * (l.getD (2 * i + 1) 0 % 16))
  else l.flatMap fun v => leBytes (w / 8) v

/-- Results as one: their codes and the flags any of them sets. -/
def gatherOut (l : List Out) : List Nat × Out :=
  (l.map (·.code), { code := 0, ovf := l.any (·.ovf), nan := l.any (·.nan) })

/-- Adds the elements of a list of vectors from left to right, each addition rounded (R325), with the flags set. -/
def sumElems (f : Fmt) (sgn : Bool) : List (List Nat) → List Nat × Out
  | [] => ([], { code := 0 })
  | [a] => (a, { code := 0 })
  | a :: b :: l =>
    let r := gatherOut (List.zipWith (f.sum sgn) a b)
    let t := l.foldl (fun (acc : List Nat × Out) v =>
      let x := gatherOut (List.zipWith (f.sum sgn) acc.1 v)
      (x.1, { code := 0, ovf := acc.2.ovf || x.2.ovf, nan := acc.2.nan || x.2.nan })) r
    t

/-! ### Slots and headers (R334, R335) -/

/-- The chunk a group has begun with a number. -/
def Grp.slot (d : Grp) (num : Nat) : Option SChunk := d.slots.find? fun k => k.num = num
/-- Changes a chunk. -/
def State.modSlot (s : State) (g num : Nat) (f : SChunk → SChunk) : State :=
  s.modGrp g fun d => { d with slots := d.slots.map fun k => if k.num = num then f k else k }

/-- First byte of a chunk's board slot and of its rack slot. -/
def slotB (t : SmvTab) (g : Nat) (k : SChunk) : Nat :=
  (if k.alt then gAlt t g else gBoard t g) + k.num % 4 * gSlotB t g
def slotR (t : SmvTab) (g : Nat) (k : SChunk) : Nat :=
  (if k.alt then gAlt t g + 4 * gSlotB t g else gRack t g) + k.num % 4 * gSlotR t g
/-- The region of column `j` in the board slot, for a member in column `c`. -/
def regionB (t : SmvTab) (g : Nat) (k : SChunk) (c j : Nat) : Nat :=
  slotB t g k + 12288 + (if j < c then j else j - 1) * gPb t g
/-- The own-part region and the receive region of the rack slot. -/
def regionP (t : SmvTab) (g : Nat) (k : SChunk) : Nat := slotR t g k + 12288
def regionX (t : SmvTab) (g : Nat) (k : SChunk) : Nat := regionP t g k + gPb t g

/-- Words 0 and 1 of a chunk header (Table 13.7). -/
def headerBytes (d : Grp) (c : Coll) (k : SChunk) (rack : Bool) (st : Nat) : Bytes :=
  leBytes 8 (fields [(52, 12, k.num), (48, 4, d.gen.toNat), (47, 1, b2n rack), (46, 1, b2n c.agt), (42, 4, c.fmt),
      (41, 1, b2n c.sgn), (38, 3, st), (0, 32, c.count)]).toNat ++
    leBytes 8 (fields [(48, 16, c.dig.toNat), (32, 16, d.otDig.toNat)]).toNat

/-- Writes the header of one level of a chunk, if the group's shape uses the level, with STATE `st` and the bytes of the
sender records `recs`. -/
def State.writeHeader (s : State) (g : Nat) (c : Coll) (k : SChunk) (rack : Bool) (st : Nat) (recs : Bytes) : State :=
  let t := s.smvTab
  if (if rack then gSlotR t g else gSlotB t g) = 0 then s
  else s.startJob (.smv g k.num .header (b2n rack)) []
    [(if rack then slotR t g k else slotB t g k, headerBytes (s.grp g) c k rack st ++ recs)]

/-- Writes a chunk's headers again with its present STATE, or with STATE parked; the sender records stand. -/
def State.writeHeaders (s : State) (g : Nat) (c : Coll) (k : SChunk) (parked : Bool) : State :=
  (s.writeHeader g c k false (if parked then 3 else k.bst) []).writeHeader g c k true (if parked then 3 else k.rst) []

/-- The headers of a slot that opens, with an empty record for each sender of a level (log 137). -/
def State.openHeaders (s : State) (g : Nat) (c : Coll) (k : SChunk) : State :=
  (s.writeHeader g c k false 0 (zeros (8 * gCols s.smvTab g))).writeHeader g c k true 0 (zeros (8 * (gRows s.smvTab g - 1)))

/-- A level's header STATE changes. -/
def State.setStage (s : State) (g : Nat) (c : Coll) (num : Nat) (rack : Bool) (st : Nat) : State :=
  let s := s.modSlot g num fun k => if rack then { k with rst := st } else { k with bst := st }
  match (s.grp g).slot num with
  | some k => s.writeHeader g c k rack st []
  | none => s

/-- Writes a sender's record when its contribution completes. -/
def State.writeRecord (s : State) (g : Nat) (k : SChunk) (rack : Bool) (j : Nat) (x : Contrib) : State :=
  let t := s.smvTab
  let a := (if rack then slotR t g k else slotB t g k) + 16 + 8 * j
  s.startJob (.smv g k.num .header 2) []
    [(a, leBytes 8 (fields [(63, 1, b2n x.done.isSome), (62, 1, b2n x.mismatch), (0, 32, x.bytes)]).toNat)]

/-! ### Packets (R332) -/

/-- The fields of ADDR (Table 13.5). -/
def clGroup (p : Pkt) : Nat := bits p.addr 47 9
def clChunk (p : Pkt) : Nat := bits p.addr 35 12
def clSub (p : Pkt) : Nat := bits p.addr 25 10
def clOfs (p : Pkt) : Nat := 16 * bits p.addr 0 21

/-- A collective packet of a group, not yet handed to the Porter. -/
def State.clPkt (s : State) (g : Nat) (op : Nat) (priv rack : Bool) (chunk sub ofs : Nat) (dst : Nat) (data : Bytes) : Pkt :=
  { op := BitVec.ofNat 8 (if priv then op - 0x60 else op), ptag := s.groupTag g, src := s.chip, dst := BitVec.ofNat 11 dst
    tag := BitVec.ofNat 12 ((s.grp g).gen.toNat * 256 + b2n rack), len := BitVec.ofNat 8 data.length
    addr := BitVec.ofNat 56 (g * 2 ^ 47 + chunk % 4096 * 2 ^ 35 + sub % 1024 * 2 ^ 25 + ofs / 16), data := data }

/-- The logical port whose queue a packet of a group waits in: the one R182 would choose now, 31 where no candidate is
eligible (log 137). -/
def State.clPort (s : State) (p : Pkt) : Nat :=
  ((s.leastQueued (s.candidates p.vc p.dst.toNat 0 none)).map candPort).getD 31

/-- Puts packets in the group's outgoing queues, one for each logical port (R336). -/
def State.clOut (s : State) (g : Nat) (l : List Pkt) : State :=
  forEach l (fun p s =>
    let port := s.clPort p
    s.modGrp g fun d => { d with out := d.out.put [] port (d.out.get [] port ++ [p]) }) s

/-- The packets of a group that wait for the Porter. -/
def Grp.waiting (d : Grp) : List Pkt := d.out.flatMap (·.2)

/-- The CL_DONE payload (Table 13.6). -/
def donePayload (d : Grp) (c : Coll) (rack : Bool) (n : Nat) : Bytes :=
  leBytes 2 c.dig.toNat ++ leBytes 2 d.otDig.toNat ++
    leBytes 1 (c.fmt * 16 + b2n c.sgn * 8 + b2n c.agt * 4 + b2n rack * 2) ++ zeros 3 ++ leBytes 4 n ++ leBytes 4 c.count

/-- Sends a part or piece and its CL_DONE: data cut at 224 bytes. `sub` is SUB of the data, `dsub` of the CL_DONE. -/
def State.clSend (s : State) (g : Nat) (c : Coll) (rack : Bool) (chunk sub dsub dst : Nat) (b : Bytes) : State :=
  let op := if rack then 0xA1 else 0xA0
  s.clOut g (((chunks b.length).map fun x => s.clPkt g op c.priv false chunk sub x.1 dst (slice b x.1 x.2)) ++
    [s.clPkt g 0xA2 c.priv false chunk dsub 0 dst (donePayload (s.grp g) c rack b.length)])

/-- The packets at the head of a queue that a deficit pays for, one after another, and what is left of the deficit. -/
def payable : List Pkt → Nat → List Pkt × Nat
  | [], n => ([], n)
  | p :: l, n => if p.size ≤ n then let r := payable l (n - p.size); (p :: r.1, r.2) else ([], n)

/-- A group's turn at a logical port: its deficit grows by WEIGHT × 256 bytes and pays for packets at the head of its queue
there, which go to the Porter. A group with none left keeps no deficit. -/
def State.clTurn (s : State) (port g : Nat) : State :=
  let d := s.grp g
  let q := d.out.get [] port
  let r := payable q (d.deficit.get 0 port + gWeight s.smvTab g * 256)
  let left := q.drop r.1.length
  let s := s.setGrp g { d with out := d.out.put [] port left
                               deficit := d.deficit.put 0 port (if left.isEmpty then 0 else r.2) }
  (forEach r.1 (fun p s => s.send p) s).modSmv fun v => { v with rot := v.rot.put 0 port g }

/-- One round of deficit weights at a logical port, over the groups with a packet ready there, beginning after the one
served last (R336). -/
def State.clRound (port : Nat) (s : State) : State :=
  let gs := (s.groups.filter fun e => !(e.2.out.get [] port).isEmpty).map (·.1)
  let last := s.smv.rot.get 0 port
  forEach (gs.filter (last < ·) ++ gs.filter (· ≤ last)) (fun g s => s.clTurn port g) s

/-- Rounds at a logical port until no group has a packet there. -/
def State.clDrainGo (port : Nat) : Nat → State → State
  | 0, s => s
  | n + 1, s => if (s.groups.any fun e => !(e.2.out.get [] port).isEmpty) then clDrainGo port n (s.clRound port) else s

/-- Hands the groups' packets to the Porter, unless a hold or a stop keeps them. -/
def State.clDrain (s : State) : State :=
  if !s.admits then s
  else forEach (List.range 32) (fun port s =>
    State.clDrainGo port ((s.groups.map fun e => ((e.2.out.get [] port).map fun p => p.size).sum).sum + 1) s) s

/-! ### Activity (R330) -/

/-- A group holds one of the active places. -/
def GSt.active : GSt → Bool
  | .running | .parking => true
  | _ => false

/-- Groups that are active. -/
def State.activeGroups (s : State) : Nat := (s.groups.filter fun e => e.2.st.active).length

/-- A WAITING group may become active. -/
def State.mayRun (s : State) (g : Nat) : Bool :=
  decide (s.activeGroups < 64) && !(s.groups.any fun e =>
    decide (e.1 ≠ g) && (e.2.st.active || decide (e.2.st = .parked)) && groupsMeet s.smvTab g e.1)

/-- A group begins to wait. -/
def State.waitGroup (s : State) (g : Nat) : State :=
  (s.modGrp g fun d => { d with st := .waiting, since := s.nextId }).fresh

/-- Waiting groups become active in the order they began to wait; one that was parked goes on from its headers. -/
def State.wakeGroups (s : State) : State :=
  let ws := (s.groups.filter fun e => decide (e.2.st = .waiting)).map fun e => (e.2.since, e.1)
  let ws := ws.foldl (fun l x => (l.takeWhile fun y => y.1 < x.1) ++ [x] ++ l.dropWhile fun y => y.1 < x.1)
    ([] : List (Nat × Nat))
  forEach ws (fun w s =>
    if !s.mayRun w.2 then s
    else
      let s := s.modGrp w.2 fun d => { d with st := .running }
      let d := s.grp w.2
      match d.insns with
      | c :: _ => forEach d.slots (fun k s => s.writeHeaders w.2 c k false) s
      | [] => s) s

/-! ### The running instruction -/

/-- Changes the running instruction. -/
def State.modColl (s : State) (g : Nat) (f : Coll → Coll) : State :=
  s.modGrp g fun d => { d with insns := match d.insns with
    | c :: l => f c :: l
    | [] => [] }

/-- The running instruction starts: it takes the format entry, the group's scale and its chunk numbers (R329, R359,
R360). -/
def State.startColl (s : State) (g : Nat) : State :=
  match (s.grp g).insns with
  | c :: _ =>
    if c.started then s
    else
      let w := s.fmtWord c.fmt
      let f := Fmt.of w
      let x := if narrowFmt c.fmt f then (s.grp g).scale else 0x3F800000
      s.modColl g fun c =>
        let c := { c with started := true, desc := w, dig := scaleDigest x }
        { c with chunks := c.total (gChunk s.smvTab g) }
  | [] => s

/-- Begins the next chunk, if its slot is free (R331): headers, and READY to those who send to this member. -/
def State.openSlot (s : State) (g : Nat) : State :=
  let d := s.grp g
  let t := s.smvTab
  match d.insns with
  | [] => s
  | c :: _ =>
    if !decide (d.st = .running) || decide (c.chunks ≤ c.next) || d.slots.any fun k => decide (k.num % 4 = d.next % 4) then s
    else
      let k : SChunk := { num := d.next, idx := c.next, alt := gAltEn t g && decide (s.pins.hot ≠ 0) }
      let s := s.modGrp g fun d => { d with slots := d.slots ++ [k], next := (d.next + 1) % 4096 }
      let s := s.modColl g fun c => { c with next := c.next + 1 }
      let s := s.openHeaders g c k
      let peers := ((List.range (gCols t g)).filter (· ≠ d.myCol)).map fun j => gMember t g d.myRow j
      let s := s.clOut g (peers.map fun p => s.clPkt g 0xA3 c.priv false k.num d.myCol 0 p [])
      let r := gRows t g
      let s := if r = 1 then s
        else s.clOut g [s.clPkt g 0xA3 c.priv true k.num 0 0 (gMember t g ((d.myRow + r - 1) % r) d.myCol) []]
      s.advanceLimit g

/-! ### The stages (R325, R326) -/

/-- Every row peer's contribution to a chunk is complete and in staging. -/
def SChunk.boardFull (k : SChunk) (cols c : Nat) : Bool :=
  decide (k.wr = 0) && ((List.range cols).filter (· ≠ c)).all fun j => (k.brd.get {} j).complete
/-- The contribution of step `t` is complete and in staging. -/
def SChunk.stepIn (k : SChunk) (t : Nat) : Bool := decide (k.wr = 0) && (k.ring.get {} (t - 1)).complete

/-- What every rule about one chunk uses: the group, its instruction, the chunk, the table, R, K, row, column. -/
structure Work where
  g : Nat
  c : Coll
  k : SChunk
  t : SmvTab
  r : Nat
  cols : Nat
  row : Nat
  col : Nat

/-- The work of a chunk. -/
def State.work_ (s : State) (g num : Nat) : Option Work :=
  match (s.grp g).insns, (s.grp g).slot num with
  | c :: _, some k =>
    some { g := g, c := c, k := k, t := s.smvTab, r := gRows s.smvTab g, cols := gCols s.smvTab g, row := (s.grp g).myRow
           col := (s.grp g).myCol }
  | _, _ => none

/-- S. -/
def Work.size (w : Work) : Nat := gChunk w.t w.g
/-- Part `j` of the chunk. -/
def Work.part (w : Work) (j : Nat) : Nat × Nat := w.c.part w.size w.cols w.k.idx j
/-- Piece `p` of this member's part. -/
def Work.piece (w : Work) (p : Nat) : Nat × Nat × Nat := w.c.piece w.size w.cols w.r w.k.idx w.col p
/-- The piece sent in step `t`. -/
def Work.sendPiece (w : Work) (t : Nat) : Nat := if w.c.agt then (w.row + 2 * w.r + 1 - t) % w.r else (w.row + 2 * w.r - t) % w.r
/-- The piece received in step `t`. -/
def Work.recvPiece (w : Work) (t : Nat) : Nat := (w.row + 2 * w.r - t - (if w.c.agt then 0 else 1)) % w.r
/-- The next member of the ring. -/
def Work.succ (w : Work) : Nat := gMember w.t w.g ((w.row + 1) % w.r) w.col
/-- READY has come for the chunk: level 0 from column `j`, level 1 from the next member. -/
def State.hasReady (s : State) (w : Work) (level j : Nat) : Bool := (s.grp w.g).readys.contains (level, j, w.k.num)

/-- Starts reads for a chunk. -/
def State.smvRead (s : State) (w : Work) (what : SmvJob) (a : Nat) (l : List (Nat × Nat)) : State :=
  s.startJob (.smv w.g w.k.num what a) l []
/-- Writes bytes at offset `o` of the destination, as piece or part `a`. The nibble of a 4-bit vector's last byte that holds
no element is a free value of COUNT and the element beside it (R338, log 84), and an empty piece writes nothing. -/
def State.destWrite (s : State) (w : Work) (a o : Nat) (b : Bytes) : State :=
  let s := s.modSlot w.g w.k.num fun k => { k with placed := Tab.insert k.placed a 1 }
  if b = [] then s.startJob (.smv w.g w.k.num .destWrite a) [] []
  else if w.c.agt = false ∧ w.c.width < 8 ∧ 2 * (o + b.length) = w.c.count + 1 then
    let x := b.getLast?.getD 0 &&& 15
    s.startJob (.smv w.g w.k.num .destWrite a) []
      [(w.c.dst + o, b.dropLast ++ [x ||| (Config.sumPad w.c.count x).zeroExtend 8 <<< 4])]
  else s.startJob (.smv w.g w.k.num .destWrite a) [] [(w.c.dst + o, b)]

/-- The board stage's sends: the part of each peer whose READY has come. -/
def State.goBoardSend (s : State) (w : Work) : State :=
  let full := w.r = 1 ∨ ((List.range (w.r - 1)).all fun t => w.k.stepIn (t + 1)) = true
  forEach ((List.range w.cols).filter (· ≠ w.col)) (fun j s =>
    if w.k.sentB.get 0 j ≠ 0 ∨ s.hasReady w 0 j = false ∨ (w.c.agt ∧ ¬full) then s
    else
      let s := s.modSlot w.g w.k.num fun k => { k with sentB := k.sentB.put 0 j 1 }
      if w.c.agt then
        let own := w.piece w.row
        s.smvRead w .sendBrd j ((w.c.src + own.1, own.2.2) ::
          (((List.range w.r).filter (· ≠ w.row)).map fun p =>
            let x := w.piece p
            (regionX w.t w.g w.k + x.2.1, x.2.2)))
      else
        let x := w.part j
        s.smvRead w .sendBrd j [(w.c.src + x.1, x.2)]) s

/-- RSC: the board sum of a chunk can be formed, once every contribution is in. -/
def Work.boardReady (w : Work) : Bool := !w.c.agt && decide (w.k.pst = 0) && w.k.boardFull w.cols w.col

/-- The board sum takes the adders. -/
def State.goSum (s : State) (w : Work) : State :=
  let x := w.part w.col
  let s := s.modSlot w.g w.k.num fun k => { k with pst := 1 }
  let s := if w.cols = 1 then s else s.setStage w.g w.c w.k.num false 1
  s.smvRead w .sumRead 0 ((w.c.src + x.1, x.2) ::
    ((List.range w.cols).filter (· ≠ w.col)).map fun j => (regionB w.t w.g w.k w.col j, x.2))

/-- The first step whose piece can be added to this member's own: P stands, the piece is in staging, and the next member
is READY for the sum unless it stays here. -/
def State.ringReady (s : State) (w : Work) : Option Nat :=
  if w.c.agt ∨ w.k.pst ≠ 3 then none
  else ((List.range (w.r - 1)).map (· + 1)).find? fun t =>
    w.k.stepIn t && (s.hasReady w 1 0 || decide (t = w.r - 1)) && !w.k.added.contains t

/-- The sum of step `t` takes the adders. -/
def State.goAdd (s : State) (w : Work) (t : Nat) : State :=
  let x := w.piece (w.recvPiece t)
  (s.modSlot w.g w.k.num fun k => { k with added := t :: k.added }).smvRead w .addRead t
    [(regionX w.t w.g w.k + x.2.1, x.2.2), (regionP w.t w.g w.k + x.2.1, x.2.2)]

/-- A sum of a chunk that is ready, for one chunk region, taken by the adders. -/
def State.takeSum (s : State) (w : Work) : Option State :=
  if w.boardReady then some (s.goSum w) else (s.ringReady w).map fun t => s.goAdd w t

/-- A group's turn at the adders (R336): one chunk region, that of its earliest chunk with a sum ready. -/
def State.addTurn (s : State) (g : Nat) : Option State :=
  if !(s.grp g).st.active then none
  else ((s.grp g).slots.findSome? fun k => (s.work_ g k.num).bind fun w => s.takeSum w).map fun s =>
    s.modSmv fun v => { v with adder := g }

/-- The adders go round the groups with a sum ready, beginning after the one served last, one chunk region at a time. -/
def State.addRounds : Nat → State → State
  | 0, s => s
  | n + 1, s =>
    let gs := (s.groups.filter fun e => e.2.slots ≠ []).map (·.1)
    match (gs.filter (s.smv.adder < ·) ++ gs.filter (· ≤ s.smv.adder)).findSome? fun g => s.addTurn g with
    | some s => addRounds n s
    | none => s

/-- Every sum that is ready takes the adders: at most one board sum and R − 1 ring sums in each open slot. -/
def State.goAdders (s : State) : State :=
  State.addRounds ((s.groups.map fun e => e.2.slots.length * gRows s.smvTab e.1).sum) s

/-- The ring: step 1's piece, and what each arrived step of AGT lets this member send on. -/
def State.goRing (s : State) (w : Work) : State :=
  if w.r = 1 then s
  else
    let rdy := s.hasReady w 1 0
    let s :=
      if !rdy || decide (w.k.sentR.get 0 1 ≠ 0) then s
      else if w.c.agt then
        let x := w.piece w.row
        (s.modSlot w.g w.k.num fun k => { k with sentR := k.sentR.put 0 1 1 }).smvRead w .sendRing 1 [(w.c.src + x.1, x.2.2)]
      else if w.k.pst = 3 then
        let x := w.piece (w.sendPiece 1)
        (s.modSlot w.g w.k.num fun k => { k with sentR := k.sentR.put 0 1 1 }).smvRead w .sendRing 1
          [(regionP w.t w.g w.k + x.2.1, x.2.2)]
      else s
    if !w.c.agt then s
    else forEach ((List.range (w.r - 1)).map (· + 1)) (fun t s =>
      if !w.k.stepIn t then s
      else
        let x := w.piece (w.recvPiece t)
        if t + 1 ≤ w.r - 1 ∧ rdy = true ∧ w.k.sentR.get 0 (t + 1) = 0 then
          (s.modSlot w.g w.k.num fun k => { k with sentR := k.sentR.put 0 (t + 1) 1 }).smvRead w .sendRing (t + 1)
            [(regionX w.t w.g w.k + x.2.1, x.2.2)]
        else s) s

/-- AGT: pieces and parts that can be copied to the destination: this member's own piece, arrived pieces, arrived parts
(numbered after the R pieces). -/
def State.goCopy (s : State) (w : Work) : State :=
  if !w.c.agt then s
  else
    let go := fun (a : Nat) (l : List (Nat × Nat)) (s : State) =>
      if w.k.placed.get 0 a ≠ 0 then s
      else (s.modSlot w.g w.k.num fun k => { k with placed := Tab.insert k.placed a 1 }).smvRead w .copyRead a l
    let own := w.piece w.row
    let s := go w.row [(w.c.src + own.1, own.2.2)] s
    let s := forEach ((List.range (w.r - 1)).map (· + 1)) (fun t s =>
      if w.k.stepIn t then
        let x := w.piece (w.recvPiece t)
        go (w.recvPiece t) [(regionX w.t w.g w.k + x.2.1, x.2.2)] s
      else s) s
    forEach ((List.range w.cols).filter (· ≠ w.col)) (fun j s =>
      if w.k.wr = 0 ∧ (w.k.brd.get {} j).complete = true then
        go (w.r + j) [(regionB w.t w.g w.k w.col j, (w.part j).2)] s
      else s) s

/-- Packets of a group that have not left this chip: with the group, held back by a brown-out, or in an output queue. -/
def State.clHere (s : State) (g : Nat) : List Pkt :=
  ((s.grp g).waiting ++ s.admitQ ++ (List.range 24).flatMap fun n =>
    ((s.link n).outq.filter fun o => o.arrival.isNone).map (·.pkt)).filter fun p =>
      decide (p.vc = 2 ∨ p.vc = 5) && decide (clGroup p = g)

/-- A packet of a chunk has not left this chip. -/
def State.clUnsent (s : State) (w : Work) : Bool := (s.clHere w.g).any fun p => decide (clChunk p = w.k.num)

/-- Every part and piece of a chunk has been read and its packets made. -/
def Work.allSent (w : Work) : Bool :=
  (((List.range w.cols).filter (· ≠ w.col)).all fun j => decide (w.k.sentB.get 0 j = 2)) &&
    ((List.range (w.r - 1)).all fun t => decide (w.k.sentR.get 0 (t + 1) = 2))
/-- Everything a chunk writes to the destination has been performed. -/
def Work.allPlaced (w : Work) : Bool :=
  if w.c.agt then
    ((List.range w.r).all fun p => decide (w.k.placed.get 0 p = 2)) &&
      (((List.range w.cols).filter (· ≠ w.col)).all fun j => decide (w.k.placed.get 0 (w.r + j) = 2))
  else decide (w.k.placed.get 0 0 = 2)

/-- A chunk is finished (R328) when all it writes has been performed and every packet of it has left this chip: the slot is free, the done object is updated, and the last one completes the instruction. -/
def State.goFinish (s : State) (w : Work) : State :=
  if !(w.allSent && w.allPlaced) || s.clUnsent w then s
  else
    let k := { w.k with bst := 2, rst := 2 }
    let s := s.writeHeaders w.g w.c k false
    let s := s.modGrp w.g fun d =>
      { d with slots := d.slots.filter fun k => decide (k.num ≠ w.k.num)
               readys := d.readys.filter fun r => decide (r.2.2 ≠ w.k.num), chunks := satAdd d.chunks 1 }
    let s := (s.modColl w.g fun c => { c with done := c.done + 1 }).advanceLimit w.g
    let s := s.count 8 0 w.g (some (gPart w.t w.g))
    let s := s.update w.c.obj false 1
    if w.c.done + 1 < w.c.chunks then s
    else
      let s := s.modGrp w.g fun d => { d with insns := d.insns.drop 1 }
      let s := s.modGrp w.g fun d => if d.insns = [] ∧ d.st = .running then { d with st := .idle } else d
      s.endLimit w.g

/-- Moves one chunk on, but for its sums. -/
def State.goChunk (s : State) (g num : Nat) : State :=
  let f := fun (a : State → Work → State) (s : State) => match s.work_ g num with
    | some w => a s w
    | none => s
  f State.goFinish (f State.goCopy (f State.goRing (f State.goBoardSend s)))

/-- An RSC or AGT that waits is accepted when the group holds fewer than two (R329). While a commit that changes its group stands
accepted it waits until the new table is in force, and begins under that (R18, log 44); a group that is then not VALID or of another
partition gives GROUP (R308). -/
def State.acceptColl (s : State) (g : Nat) : State :=
  let d := s.grp g
  match d.wait with
  | none => s
  | some c =>
    let q := s.queue c.queue
    if ¬(q.st = .waiting ∧ q.park = .answer ∧ q.present.map (·.seq) = some c.seq) then
      s.setGrp g { d with wait := none }
    else if decide (2 ≤ d.insns.length) || s.gPending g then s
    else if gValid s.smvTab g = false ∨ gPart s.smvTab g ≠ q.part then
      (s.setGrp g { d with wait := none }).insnFault c.queue c.seq qfGroup
    else
      let s := s.setGrp g { d with wait := none, insns := d.insns ++ [c] }
      let s := (s.startLimit g).answerQueue c.queue c.seq []
      if d.st = .idle then s.waitGroup g else s

/-- Moves one group on. -/
def State.goGroup (s : State) (g : Nat) : State :=
  let s := s.acceptColl g
  if !(s.grp g).st.active then s
  else
    let s := (s.startColl g).openSlot g
    let s := ((s.openSlot g).openSlot g).openSlot g
    forEach ((s.grp g).slots.map (·.num)) (fun n s => s.goChunk g n) s

/-- Moves the groups on that hold instructions, lets their sums take the adders, and hands their packets over. -/
def State.goGroups (s : State) : State :=
  if !s.admits then s
  else
    let s := s.wakeGroups
    let gs := (s.groups.filter fun e => !e.2.insns.isEmpty || e.2.wait.isSome).map (·.1)
    (forEach gs (fun g s => s.goGroup g) s).goAdders.clDrain

/-! ### Accesses end -/

/-- A Samovar access that failed stops the chunk: the group aborts with cause STALL, and a poisoned read gives this member's
queue POISON (R425). -/
def State.smvFailed (s : State) (g : Nat) (j : Job) : State :=
  s.abortGroup g causeStall (if j.poi then qfPoison else qfCollAbort)

/-- The elements a job read from `[a, a + n)`, which stand at byte `o` of the vector. -/
def Work.read (w : Work) (j : Job) (o a n : Nat) : List Nat := elemsOf w.c.width (w.c.count_ o n) (j.bytes a n)

/-- Sums are formed: flags, the count of additions, the group's advance. -/
def State.added (s : State) (w : Work) (o : Out) (n : Nat) : State :=
  let p := gPart w.t w.g
  ((s.setFlags p o).advanceLimit w.g).count 8 1 w.g (some p) n

/-- A Samovar access has ended well. -/
def State.smvEnd (s : State) (g num : Nat) (what : SmvJob) (a : Nat) (j : Job) : State :=
  match s.work_ g num with
  | none => s
  | some w =>
    let f := Fmt.of w.c.desc
    let mod := s.modSlot g num
    match what with
    | .stage => mod fun k => { k with wr := k.wr - 1 }
    | .sendBrd =>
      let s := mod fun k => { k with sentB := k.sentB.put 0 a 2 }
      let b := if w.c.agt then
          (List.range w.r).flatMap fun p =>
            let x := w.piece p
            j.bytes (if p = w.row then w.c.src + x.1 else regionX w.t g w.k + x.2.1) x.2.2
        else let x := w.part a; j.bytes (w.c.src + x.1) x.2
      s.clSend g w.c false num w.col w.col (gMember w.t g w.row a) b
    | .sumRead =>
      let x := w.part w.col
      let r := sumElems f w.c.sgn ((List.range w.cols).map fun i =>
        w.read j x.1 (if i = w.col then w.c.src + x.1 else regionB w.t g w.k w.col i) x.2)
      let s := s.added w r.2 ((w.cols - 1) * r.1.length)
      let b := slice (bytesOf w.c.width r.1) 0 x.2
      if w.r = 1 then (s.modSlot g num fun k => { k with pst := 3 }).destWrite w 0 x.1 b
      else (s.modSlot g num fun k => { k with pst := 2 }).startJob (.smv g num .sumWrite 0) []
        [(regionP w.t g w.k, b)]
    | .sumWrite => mod fun k => { k with pst := 3 }
    | .sendRing =>
      let p := w.sendPiece a
      let x := w.piece p
      let from_ := if w.c.agt then (if a = 1 then w.c.src + x.1 else regionX w.t g w.k + x.2.1)
        else regionP w.t g w.k + x.2.1
      (mod fun k => { k with sentR := k.sentR.put 0 a 2 }).clSend g w.c true num p (a - 1) w.succ (j.bytes from_ x.2.2)
    | .addRead =>
      let p := w.recvPiece a
      let x := w.piece p
      let r := sumElems f w.c.sgn [w.read j x.1 (regionX w.t g w.k + x.2.1) x.2.2,
        w.read j x.1 (regionP w.t g w.k + x.2.1) x.2.2]
      let s := s.added w r.2 r.1.length
      let b := slice (bytesOf w.c.width r.1) 0 x.2.2
      if a = w.r - 1 then s.destWrite w 0 x.1 b
      else (s.modSlot g num fun k => { k with sentR := k.sentR.put 0 (a + 1) 2 }).clSend g w.c true num p a w.succ b
    | .copyRead =>
      if a < w.r then
        let x := w.piece a
        s.destWrite w a x.1 (j.bytes (if a = w.row then w.c.src + x.1 else regionX w.t g w.k + x.2.1) x.2.2)
      else
        let x := w.part (a - w.r)
        s.destWrite w a x.1 (j.bytes (regionB w.t g w.k w.col (a - w.r)) x.2)
    | .destWrite => mod fun k => { k with placed := Tab.insert k.placed a 2 }
    | _ => s

/-! ### Packets arrive (R333) -/

/-- The member that the order table names as sender of a packet of opcode `op` (of VC5) on a level with a SUB: at the rack
level READY carries SUB 0, CL_DONE a step less 1 (0 to R − 2) and data a piece. -/
def State.clSender (s : State) (g : Nat) (rack : Bool) (sub op : Nat) : Option Nat :=
  let t := s.smvTab
  let d := s.grp g
  let r := gRows t g
  if rack then
    if op = 0xA3 then if sub = 0 then some (gMember t g ((d.myRow + 1) % r) d.myCol) else none
    else if (if op = 0xA2 then sub + 1 else sub) < r then some (gMember t g ((d.myRow + r - 1) % r) d.myCol) else none
  else if sub < gCols t g ∧ sub ≠ d.myCol then some (gMember t g d.myRow sub) else none

/-- The cases in which R333 discards a packet: the count to add to, none for a packet to take. CL_READY needs no open
slot. -/
def State.clRefuse (s : State) (p : Pkt) (rack : Bool) (op : Nat) : Option (SmvStat → SmvStat) :=
  let g := clGroup p
  if !gValid s.smvTab g then some fun v => { v with noGroup := satAdd v.noGroup 1 }
  else if bits p.tag 8 4 ≠ (s.grp g).gen.toNat then some fun v => { v with genOld := satAdd v.genOld 1 }
  else if p.ptag ≠ s.groupTag g ∨ s.clSender g rack (clSub p) op ≠ some p.src.toNat then
    some fun v => { v with role := satAdd v.role 1 }
  else if decide (op ≠ 0xA3) && ((s.grp g).slot (clChunk p)).isNone then some fun v => { v with noSlot := satAdd v.noSlot 1 }
  else none

/-- A row of a collective packet: the packet at the head of its VC is taken, discarded by R333, or acted on. -/
def State.clRow (s : State) (src op : Nat) (rack : Pkt → Bool) (act : Pkt → State → State) : State :=
  if !s.admits then s
  else
    match s.headOf src fun o => decide (o = op ∨ o + 0x60 = op) with
    | none => s
    | some p =>
      let s := s.consume src p
      match s.clRefuse p (rack p) op with
      | some f => s.modSmv f
      | none => act p s

/-- The key of a sender's contribution: its column, or for the ring the step less 1 of a piece. -/
def Work.stepOf (w : Work) (piece : Nat) : Option Nat :=
  (List.range (w.r - 1)).find? fun t => w.recvPiece (t + 1) = piece

/-- A contribution is complete when its CL_DONE has come and the bytes agree: its record is written, and the group
advances. -/
def State.clComplete (s : State) (g num : Nat) (rack : Bool) (key : Nat) : State :=
  match s.work_ g num with
  | none => s
  | some w =>
    let x := (if rack then w.k.ring else w.k.brd).get {} key
    if x.complete ∨ x.done ≠ some x.bytes then s
    else
      let x := { x with complete := true }
      let s := s.modSlot g num fun k =>
        if rack then { k with ring := k.ring.put {} key x } else { k with brd := k.brd.put {} key x }
      let s := (s.writeRecord g w.k rack key x).advanceLimit g
      match s.work_ g num with
      | none => s
      | some w =>
        if rack then
          if (List.range (w.r - 1)).all fun t => (w.k.ring.get {} t).complete then s.setStage g w.c num true 1 else s
        else if w.c.agt ∧ (((List.range w.cols).filter (· ≠ w.col)).all fun j => (w.k.brd.get {} j).complete) = true then
          s.setStage g w.c num false 1
        else s

/-- Data of a part or piece arrives: it is counted and written to staging. Bytes beyond the part or piece are counted and
not written. -/
def State.clData (s : State) (p : Pkt) (rack : Bool) : State :=
  let g := clGroup p
  let num := clChunk p
  match s.work_ g num with
  | none => s
  | some w =>
    let x : Nat × Nat × Option Nat :=
      if rack then let y := w.piece (clSub p); (regionX w.t g w.k + y.2.1, y.2.2, w.stepOf (clSub p))
      else (regionB w.t g w.k w.col (clSub p), (w.part (if w.c.agt then clSub p else w.col)).2, some (clSub p))
    match x.2.2 with
    | none => s.modSmv fun v => { v with role := satAdd v.role 1 }
    | some key =>
      let b := slice p.data 0 (min p.data.length (x.2.1 - clOfs p))
      let add := fun (c : Contrib) => { c with bytes := c.bytes + p.data.length }
      let s := s.modSlot g num fun k =>
        if rack then { k with wr := k.wr + 1, ring := k.ring.put {} key (add (k.ring.get {} key)) }
        else { k with wr := k.wr + 1, brd := k.brd.put {} key (add (k.brd.get {} key)) }
      let s := s.startJob (.smv g num .stage 0) [] (if b = [] then [] else [(x.1 + clOfs p, b)])
      s.clComplete g num rack key

/-- CL_DONE: compared with this member's own instruction (R333; SGN for an RSC of integers, R347) and noted; one that fails aborts the group, with its record written
where the contribution is complete (R335). -/
def State.clDoneRx (s : State) (p : Pkt) : State :=
  let g := clGroup p
  let num := clChunk p
  let rack := bit (word64 p.data 0) 33
  match s.work_ g num with
  | none => s
  | some w =>
    let d := s.grp g
    let m := word64 p.data 0
    let n := bits (word64 p.data 8) 0 32
    let sub := clSub p
    let expect :=
      if rack then (w.piece (w.recvPiece (sub + 1))).2.2 else (w.part (if w.c.agt then sub else w.col)).2
    let x := { (if rack then w.k.ring else w.k.brd).get {} sub with done := some n }
    let note := fun (x : Contrib) (s : State) => s.modSlot g num fun k =>
      if rack then { k with ring := k.ring.put {} sub x } else { k with brd := k.brd.put {} sub x }
    let fails := fun (s : State) =>
      let s := note { x with mismatch := true } s
      if x.bytes = n then s.writeRecord g w.k rack sub { x with mismatch := true } else s
    if m.extractLsb' 16 16 ≠ d.otDig then (fails s).abortGroup g causeOrder
    else if bit m 34 ≠ w.c.agt ∨ bits m 36 4 ≠ w.c.fmt ∨ (w.c.agt = false ∧ (Fmt.of w.c.desc).int = true ∧ bit m 35 ≠ w.c.sgn) ∨
        bits (word64 p.data 8) 32 32 ≠ w.c.count % 2 ^ 32 ∨ n ≠ expect then
      (fails s).abortGroup g causeShape
    else if w.c.agt = false ∧ m.extractLsb' 0 16 ≠ w.c.dig then
      ((fails s).raise srcScaleMismatch).abortGroup g causeScale qfScaleMismatch
    else (note { x with mismatch := false } s).clComplete g num rack sub

/-! ### Parking (R339) -/

/-- Nothing of a group is in flight at this member. -/
def State.groupQuiet (s : State) (g : Nat) : Bool :=
  (s.clHere g).isEmpty && !(s.jobs.any fun j => ofGroup g j.what)

/-- PARKED: headers with STATE parked, and the active place given up. -/
def State.parkGroup (s : State) (g : Nat) : State :=
  let d := s.grp g
  let s := match d.insns with
    | c :: _ => forEach d.slots (fun k s => s.writeHeaders g c k true) s
    | [] => s
  s.modGrp g fun d => { d with st := .parked }

/-! ### RSC and AGT (R308, R327, R329) -/

/-- Runs `k` for the communication queue of a group, and faults GROUP for any other (R308). -/
def State.commOnly (s : State) (q g : Nat) (k : State → State) : State :=
  if (s.queue q).comm = true ∧ (s.queue q).group = g then k s else s.execFault q qfGroup

/-- RSC and AGT. -/
def State.collective (agt : Bool) (q : Nat) (w : Fields) (s : State) : State :=
  let g := bits w.x 0 9
  let code := bits w.x 12 4
  s.legal q (w.only false true true true 0 0x1F1FF 0xFFF && s.fmtValid code) fun s =>
    s.commOnly q g fun s =>
      let p := (s.queue q).part
      if gValid s.smvTab g = false ∨ gPart s.smvTab g ≠ p then s.execFault q qfGroup
      else s.owned q (bits w.y 0 12) fun s =>
        let n := (s.gC q w).toNat
        let len := (n * (s.fmt code).width + 7) / 8
        let a := s.gA q w
        let b := s.gB q w
        s.checked q (if n = 0 then []
            else [lengthCheck (s.gC q w), if decide (a ≠ b) && decide (a.toNat < b.toNat + len ∧ b.toNat < a.toNat + len) then stMalformed
                else stOk, s.localCheck p a len 0, s.localCheck p b len 1]) fun s =>
          let c : Coll :=
            { queue := q, seq := s.seqOf q, pc := (s.queue q).pc, cnt := (s.queue q).cnt, agt := agt, fmt := code, sgn := bit w.x 16, src := a.toNat, dst := b.toNat
              count := n, obj := bits w.y 0 12, priv := decide ((s.queue q).prio = 0) }
          (s.modGrp g fun d => { d with wait := some c }).parkQueue q .answer

def insnRsc (q : Nat) (w : Fields) (s : State) : State := s.collective false q w
def insnAgt (q : Nat) (w : Fields) (s : State) : State := s.collective true q w

end Sys2Proof.Machine
end

