-- ==== Sys2Proof/Machine/Sip.lean ====
section
/-! DEFINITION. The sip path (chapter 15): operations at a member (R367 to R371) and at a relay (R366), notices and aborts
(R372), arrivals (R373), and SCALE (R358). -/

namespace Sys2Proof.Machine

/-! ### Packets read back (Tables 15.2, 15.3) -/

def sipGroup (p : Pkt) : Nat := bits p.addr 47 9
def sipSeqOf (p : Pkt) : Nat := bits p.addr 35 12
def sipDown (p : Pkt) : Bool := bit p.addr 34
def sipCtl (p : Pkt) : Word := word64 p.data 32
def sipData (p : Pkt) : Bytes := slice p.data 0 32

/-- The index of a child of a group's entry. -/
def State.childIdx (s : State) (g chip : Nat) : Option Nat := (tChildren s.sipTab g).findIdx? fun c => c = chip

/-! ### Combining (R369) -/

/-- Combines one element of a SIP_RED; `ty` and `op` as in SIPRED, `desc` the entry of FP32. -/
def sipElem (desc : Word) (ty op : Nat) (sgn : Bool) (a b : Nat) : Out :=
  match ty, op with
  | 0, 0 => (Fmt.of desc).add a b
  | 0, 1 => (Fmt.of desc).pick true a b
  | 0, _ => (Fmt.of desc).pick false a b
  | 1, 0 => intAdd 32 sgn a b
  | 1, 1 => intPick 32 sgn true a b
  | 1, _ => intPick 32 sgn false a b
  | _, 0 => intAdd 64 sgn a b
  | _, 1 => intPick 64 sgn true a b
  | _, _ => intPick 64 sgn false a b

/-- Combines the data of two contributions of an operation, with the flags that this sets. A member keeps the entry of FP32
that its operation took as it started (R18). -/
def sipCombine (desc : Word) (op : BitVec 8) (ctl : Word) (a b : Bytes) : Bytes × Out :=
  if op = 1 then
    let ty := bits ctl 5 2
    let w := if ty = 2 then 64 else 32
    let n := bits ctl 7 6 * 8 / w
    let r := gatherOut (List.zipWith (sipElem desc ty (bits ctl 2 2) (bit ctl 4)) (elemsOf w n a) (elemsOf w n b))
    (slice (bytesOf w r.1) 0 32, r.2)
  else if op = 3 then
    (leBytes 32 (max (leNat (slice a 0 4)) (leNat (slice b 0 4))), { code := 0 })
  else (a, { code := 0 })

/-! ### SCALE's arithmetic (R358) -/

/-- |decode(x) x s| rounded once to FP32: none for NaN and infinite elements, 0x7F7F_FFFF for one that overflows. -/
def scaleProduct (f : Fmt) (m : Nat) (e : Int) (x : Nat) : Option Nat :=
  match f.decode x with
  | .fin _ n k => some (if m * n = 0 then 0 else (fp32.round false (m * n) 1 (e + k)).code)
  | _ => none

/-- The common scale for a maximum M, as FP32 bits; `free` stands in where M is no finite number. -/
def commonScale (f : Fmt) (big : Nat) (free : Nat) : Nat :=
  match fp32.decode big, f.decode f.maxEM with
  | .fin _ m e, .fin _ n k =>
    if m = 0 then 0x3F800000
    else
      let q := (fp32.round false m n (e - k)).code
      if q = 0 then 0x00800000 else q
  | _, _ => free

/-- One element requantized: decode(x) x s / s_c rounded once under SAT. -/
def requant (f : Fmt) (sneg : Bool) (sm : Nat) (se : Int) (cm : Nat) (ce : Int) (x : Nat) : Out :=
  let f := { f with nonsat := false }
  match f.decode x with
  | .nan => f.nanOut
  | .inf neg => { code := f.code neg f.maxEM, ovf := true }
  | .fin neg m e =>
    let neg := neg != sneg
    if m * sm = 0 then { code := f.code neg 0 } else f.round neg (m * sm) cm (e + se - ce)

/-- One element requantized under scales of any kind: any NaN gives the canonical NaN (R350), an infinite element the largest finite
code of its sign, and so does a finite element times an infinite present scale; a finite element over an infinite common scale is
zero. DESIGN CHOICE (log 85): zero times an infinite scale, infinity over infinity and a common scale of zero, for which the spec
states no result, give the free value. -/
def requantAny (f : Fmt) (s c : Val) (free x : Nat) : Out :=
  match f.decode x, s, c with
  | .nan, _, _ | _, .nan, _ | _, _, .nan => f.nanOut
  | .inf neg, _, _ => { code := f.code neg f.maxEM, ovf := true }
  | .fin _ _ _, .fin sneg m e, .fin _ n k => if n = 0 then { code := free % 2 ^ f.width } else requant f sneg m e n k x
  | .fin neg _ _, .fin sneg _ _, .inf cneg => { code := f.code ((neg != sneg) != cneg) 0 }
  | .fin neg m _, .inf sneg, .fin _ _ _ =>
    if m = 0 then { code := free % 2 ^ f.width } else { code := f.code (neg != sneg) f.maxEM, ovf := true }
  | .fin _ _ _, .inf _, .inf _ => { code := free % 2 ^ f.width }

/-- What an element counts for in the search of the maximum, under a present scale of any kind: a finite element times an infinite
scale overflows FP32. DESIGN CHOICE (log 85): zero times an infinite scale, and any product with a NaN scale, count as the free
value. -/
def scaleTerm (f : Fmt) (s : Val) (free x : Nat) : Option Nat :=
  match f.decode x, s with
  | .fin _ _ _, .fin _ m e => scaleProduct f m e x
  | .fin _ n _, .inf _ => some (if n = 0 then free % 2 ^ 31 else 0x7F7FFFFF)
  | .fin _ _ _, .nan => some (free % 2 ^ 31)
  | _, _ => none

/-! ### An operation goes on (R368) -/

/-- Releases the comm queue with the result of an operation. -/
def State.sipRelease (s : State) (g : Nat) (o : SipOp) (writes : List (Nat × Word)) : State :=
  let s := (s.modGrp g fun d => { d with sipOp := none }).endLimit g
  (s.count 9 0 g (some (gPart s.smvTab g))).answerQueue o.queue o.insn writes

/-- The destination register of a queue's present instruction. -/
def State.destReg (s : State) (q : Nat) : Nat :=
  match (s.queue q).present with
  | some i => (wordFields i.word).d.toNat
  | none => 0

/-- Bytes of a SCALE's tensor. -/
def SipOp.bytes (o : SipOp) : Nat := (o.count * (Fmt.of o.desc).width + 7) / 8

/-- SCALE has its common scale: the scale is kept, and the queue released with it (R358, step 5). -/
def State.scaleDone (s : State) (g : Nat) (o : SipOp) (x : BitVec 32) : State :=
  (s.modGrp g fun d => { d with scale := x }).sipRelease g o [(s.destReg o.queue, x.zeroExtend 64)]

/-- The result of an operation at this member: it goes down to the children in list order, and the queue is released; a
SCALE requantizes first (R358, R371). -/
def State.sipResult (s : State) (g : Nat) (o : SipOp) (data : Bytes) : State :=
  let s := forEach (tChildren s.sipTab g) (fun c s => s.sipSend (s.sipPkt g o.op o.seq true o.ctl data c)) s
  if o.op = 3 then
    let f := Fmt.of o.desc
    let x := BitVec.ofNat 32 (commonScale f (leNat (slice data 0 4)) s.free.toNat)
    let s := s.drew
    let o := { o with common := some x, sent := true }
    let s := s.modGrp g fun d => { d with sipOp := some o }
    if o.count = 0 then s.scaleDone g o x
    else s.startJob (.smv g 0 .reqRead 0) [(o.base, o.bytes)] []
  else s.sipRelease g o (if o.op = 1 then regWrites (s.destReg o.queue) (slice data 0 (bits o.ctl 7 6)) else [])

/-- Combines once this member's own contribution and every child's have come; the root has the result, another member
sends it up. Arrivals that differ in opcode or control word abort the group with cause SHAPE (R373). -/
def State.sipGo (s : State) (g : Nat) : State :=
  let d := s.grp g
  match d.sipOp with
  | none => s
  | some o =>
    if d.arr.any fun a => decide (a.2.seq = o.seq) && !decide (a.2.op = o.op ∧ a.2.ctl = o.ctl) then s.abortGroup g causeShape
    else if !o.own || o.sent ||
        !((List.range (tKids s.sipTab g)).all fun i => d.arr.any fun a => decide (a.1 = i ∧ a.2.seq = o.seq)) then s
    else
      let r := d.arr.foldl (fun (r : Bytes × Out) a =>
        let x := sipCombine o.desc o.op o.ctl r.1 a.2.data
        (x.1, { code := 0, ovf := r.2.ovf || x.2.ovf, nan := r.2.nan || x.2.nan })) (o.data, { code := 0 })
      let s := s.setFlags (gPart s.smvTab g) r.2
      let o := { o with data := r.1, sent := true }
      let s := s.modGrp g fun d => { d with arr := [], sipOp := some o }
      if tRoot s.sipTab g then s.sipResult g o r.1
      else s.sipSend (s.sipPkt g o.op o.seq false o.ctl r.1 (tParent s.sipTab g))

/-- A relay sends up what every child has sent with one SEQ, combined from CHILD 0 on; packets that differ are discarded and
counted in ROLE, each of them (R366). -/
def State.relayGo (s : State) (g : Nat) : State :=
  let d := s.grp g
  match d.arr with
  | [] => s
  | (_, a) :: l =>
    if d.arr.length < tKids s.sipTab g ∨ l.any (fun b => decide (b.2.seq ≠ a.seq)) = true then s
    else
      let s := s.modGrp g fun d => { d with arr := [] }
      if l.any fun b => !decide (b.2.op = a.op ∧ b.2.ctl = a.ctl) then
        (s.modSmv fun v => { v with sipRole := satAdd v.sipRole d.arr.length }).count 9 1 g none d.arr.length
      else
        let x := l.foldl (fun r b => (sipCombine (s.fmtWord 0) a.op a.ctl r b.2.data).1) a.data
        (s.modGrp g fun d => { d with relayUp := some a.seq }).sipSend (s.sipPkt g a.op a.seq false a.ctl x (tParent s.sipTab g))

/-! ### Arrivals (R373) -/

/-- The case in which an arriving sip packet is discarded. A relay takes a GEN up to 7 ahead of its own (R366). -/
def State.sipRefuse (s : State) (p : Pkt) : Option (SmvStat → SmvStat) :=
  let g := sipGroup p
  let t := s.sipTab
  let ahead := (p.tag.extractLsb' 8 4 - s.sipGen g).toNat
  let notice := decide (p.op = 4 ∨ p.op = 5)
  let src := p.src.toNat
  if p.dst ≠ s.chip then some fun v => { v with sipNotMine := satAdd v.sipNotMine 1 }
  else if !tValid t g then some fun v => { v with sipNoTree := satAdd v.sipNoTree 1 }
  else if (if tRelay t g then decide (8 ≤ ahead) else decide (ahead ≠ 0)) then
    some fun v => { v with sipGenOld := satAdd v.sipGenOld 1 }
  else if p.ptag ≠ s.sipTag g ∨ (if notice then decide (src ∉ tNear t g)
      else if sipDown p then tRoot t g || decide (src ≠ tParent t g) else decide (src ∉ tChildren t g)) = true then
    some fun v => { v with sipRole := satAdd v.sipRole 1 }
  else none

/-- A row of a sip packet: the packet at the head of VC0 is taken, discarded by R373, or acted on. A relay first adopts a
GEN ahead of its own. -/
def State.sipRow (s : State) (src op : Nat) (act : Pkt → State → State) : State :=
  if !s.running then s
  else
    match s.headOf src fun o => decide (o = op) with
    | none => s
    | some p =>
      let s := s.consume src p
      let g := sipGroup p
      match s.sipRefuse p with
      | some f =>
        (s.modSmv f).count 9 1 g none
      | none =>
        let gen := p.tag.extractLsb' 8 4
        let s := if tRelay s.sipTab g ∧ gen ≠ s.sipGen g then
            s.modGrp g fun d => { d with relayGen := gen, arr := [], relayUp := none }
          else s
        act p s

/-- An up or down packet of an operation: one of the operation in progress advances the group (R374). -/
def State.sipOpRx (s : State) (p : Pkt) : State :=
  let g := sipGroup p
  if sipDown p then
    if tRelay s.sipTab g then
      forEach (tChildren s.sipTab g)
        (fun c s => s.sipSend (s.sipPkt g p.op (sipSeqOf p) true (sipCtl p) (sipData p) c))
        (s.modGrp g fun d => { d with relayUp := d.relayUp.filter fun n => decide (n ≠ sipSeqOf p) })
    else
      match (s.grp g).sipOp with
      | some o =>
        if o.seq ≠ sipSeqOf p then s
        else if o.op ≠ p.op ∨ o.ctl ≠ sipCtl p then s.abortGroup g causeShape
        else if o.sent ∧ o.common = none then (s.advanceLimit g).sipResult g o (sipData p)
        else s
      | none => s
  else
    match s.childIdx g p.src.toNat with
    | none => s
    | some i =>
      let a : SipArr := { op := p.op, ctl := sipCtl p, seq := sipSeqOf p, data := sipData p }
      let s := s.modGrp g fun d => { d with arr := Tab.insert d.arr i a }
      let s := if (s.grp g).sipOp.any fun o => decide (o.seq = a.seq) then s.advanceLimit g else s
      if tRelay s.sipTab g then s.relayGo g else s.sipGo g

/-- SIP_ABORT: a relay passes it on and adopts the next GEN; a member acts by R341. -/
def State.sipAbortRx (s : State) (p : Pkt) : State :=
  let g := sipGroup p
  if tRelay s.sipTab g then
    (s.sipSpread g 4 (sipCtl p) (some p.src.toNat)).modGrp g fun d => { d with relayGen := d.relayGen + 1, arr := [], relayUp := none }
  else if !gValid s.smvTab g then s.sipSpread g 4 (sipCtl p) (some p.src.toNat)
  else s.takeAbort g (bits (sipCtl p) 17 4) ((sipCtl p).extractLsb' 21 11) (some p.src.toNat)

/-- SIP_SLOW: it goes on along the tree and moves the group's deadline (R340). -/
def State.sipSlowRx (s : State) (p : Pkt) : State :=
  let g := sipGroup p
  (s.sipSpread g 5 (sipCtl p) (some p.src.toNat)).slowLimit g

/-! ### Accesses of SCALE end -/

/-- The first read gives m, and this member's contribution is ready. -/
def State.scaleMax (s : State) (g : Nat) (j : Job) : State :=
  match (s.grp g).sipOp with
  | none => s
  | some o =>
    let f := Fmt.of o.desc
    let l := elemsOf f.width o.count (j.bytes o.base o.bytes)
    let m := (l.filterMap (scaleTerm f (fp32.decode o.scale.toNat) s.free.toNat)).foldl max 0
    (s.drew.modGrp g fun d => { d with sipOp := some { o with own := true, data := leBytes 32 m } }).sipGo g

/-- The second read is requantized and written back. -/
def State.scaleWrite (s : State) (g : Nat) (j : Job) : State :=
  match (s.grp g).sipOp with
  | none => s
  | some o =>
    let f := Fmt.of o.desc
    let b := j.bytes o.base o.bytes
    let l := elemsOf f.width o.count b
    let r := l.zipIdx.map fun x =>
      requantAny f (fp32.decode o.scale.toNat) (fp32.decode (o.common.getD 0).toNat) (Config.freeWord (s.freeCtr + x.2)).toNat x.1
    let x := gatherOut r
    let w := bytesOf f.width x.1
    let w := if f.width < 8 ∧ o.count % 2 = 1 then
        w.dropLast ++ [(w.getLast?.getD 0 &&& 15) ||| (b.getLast?.getD 0 &&& 0xF0)]
      else w
    (State.setFlags { s with freeCtr := s.freeCtr + o.count } (gPart s.smvTab g) x.2).startJob (.smv g 0 .reqWrite 0) [] [(o.base, w)]

/-- An access of a group has ended: Samovar and SCALE. -/
def State.groupEnd (s : State) (g num : Nat) (what : SmvJob) (a : Nat) (j : Job) : State :=
  if what = .header then s
  else if j.status ≠ stOk then s.smvFailed g j
  else
    match what with
    | .maxRead => s.scaleMax g j
    | .reqRead => s.scaleWrite g j
    | .reqWrite =>
      match (s.grp g).sipOp with
      | some o => s.scaleDone g o (o.common.getD 0)
      | none => s
    | _ => s.smvEnd g num what a j

/-! ### SIPRED, SIPBAR, SCALE (R308, R309, R374) -/

/-- Runs `k` for a group whose tree entry is VALID, and faults GROUP otherwise (R374). -/
def State.treeOnly (s : State) (q g : Nat) (k : State → State) : State :=
  if tValid s.sipTab g then k s else s.execFault q qfGroup

/-- Issues a sip operation: it takes the next number, and the queue parks. -/
def State.sipIssue (s : State) (q g : Nat) (o : SipOp) : State :=
  let d := s.grp g
  let o := { o with seq := d.sipSeq, queue := q, insn := s.seqOf q }
  let s := s.setGrp g { d with sipOp := some o, sipSeq := (d.sipSeq + 1) % 4096 }
  ((s.startLimit g).parkQueue q .answer).sipGo g

def insnSipred (q : Nat) (w : Fields) (s : State) : State :=
  let g := bits w.x 0 9
  let ty := bits w.x 9 2
  let n := bits w.x 12 6
  let regs := (n + 7) / 8
  s.legal q (w.only true true false false 3 0x3FFFF && decide (ty ≠ 3 ∧ bits w.f 0 2 ≠ 3 ∧ n ≤ 32) &&
      decide (n % (if ty = 2 then 8 else 4) = 0) && decide (w.a.toNat + regs ≤ 16 ∧ w.d.toNat + regs ≤ 16)) fun s =>
    s.commOnly q g fun s => s.treeOnly q g fun s =>
      if n = 0 then s.finish q []
      else
        let ctl := fields [(7, 6, n), (5, 2, ty), (4, 1, b2n (bit w.x 11)), (2, 2, bits w.f 0 2)]
        s.sipIssue q g { op := 1, ctl := ctl, seq := 0, data := slice (s.regBytes q w.a.toNat n) 0 32, own := true
                         queue := q, insn := 0, desc := s.fmtWord 0 }

def insnSipbar (q : Nat) (w : Fields) (s : State) : State :=
  let g := bits w.x 0 9
  s.legal q (w.only false false false false 0 0x1FF) fun s => s.commOnly q g fun s => s.treeOnly q g fun s =>
    s.sipIssue q g { op := 2, ctl := 0, seq := 0, data := zeros 32, own := true, queue := q, insn := 0 }

def insnScale (q : Nat) (w : Fields) (s : State) : State :=
  let g := bits w.x 0 9
  let code := bits w.x 12 4
  s.legal q (w.only true true true true 0 0xF1FF && s.fmtValid code && narrowFmt code (s.fmt code)) fun s =>
    s.commOnly q g fun s => s.treeOnly q g fun s =>
      let n := (s.gB q w).toNat
      let a := s.gA q w
      let len := (n * (s.fmt code).width + 7) / 8
      let p := (s.queue q).part
      s.checked q (if n = 0 then [] else [lengthCheck (s.gB q w), s.localCheck p a len 0, s.localCheck p a len 1]) fun s =>
        let o : SipOp := { op := 3, ctl := fields [(13, 4, code)], seq := 0, data := zeros 32, own := decide (n = 0), queue := q
                           insn := 0, base := a.toNat, count := n, scale := (s.gC q w).extractLsb' 0 32
                           desc := s.fmtWord code }
        let s := s.sipIssue q g o
        if n = 0 then s else s.startJob (.smv g 0 .maxRead 0) [(a.toNat, len)] []

end Sys2Proof.Machine
end

