-- ==== Sys2Proof/Machine/ObsWork.lean ====
section
/-! DEFINITION. What observation does over several steps (chapter 18): the trace buffer (R437 to R440), the taste unit
(R444 to R447), the receiver of observation writes (R446), milestone-time measurement (R449, R450), and the instructions
TASTE and MARK (R317). -/

namespace Sys2Proof.Machine

/-! ### The trace buffer -/

/-- The eight words of a record (Table 18.3). -/
def Rec.words (r : Rec) : List Word :=
  fields [(58, 6, r.type_.toNat), (57, 1, b2n r.pv), (53, 4, r.part.toNat), (48, 5, r.unit_.toNat), (32, 16, r.inst.toNat),
    (16, 16, r.seq.toNat), (0, 16, r.aux.toNat)] :: r.time :: bytesWords (slice r.pay 0 48)

def State.spillEn (s : State) : Bool := bit s.traceCtl 60

/-- The capacity N (R439). -/
def State.traceCap (s : State) : Nat :=
  if s.spillEn then min (bits (s.reg 0x20028) 0 29) 8388608 * 64 else 65536

/-- POST_PCT; values outside 1 to 99 act as 50. -/
def State.postPct (s : State) : Nat :=
  let p := bits s.traceCtl 50 7
  if 1 ≤ p ∧ p ≤ 99 then p else 50

/-- The buffer after it has taken a record at index `next`, of capacity `n` in mode `mode` with `p` records to follow a
trigger (R439). -/
def Trace.take (t : Trace) (mode n p : Nat) (act : Bool) : Trace :=
  let i := t.next
  let t := { t with next := (i + 1) % max n 1 }
  let stop := fun (t : Trace) => { t with recording := false, fifo := [] }
  if mode = 2 then
    if t.triggered then
      let t := { t with count := t.count + 1, post := t.post - 1 }
      if t.post = 0 then { stop t with full := true } else t
    else
      let t := if t.count < n - p then { t with count := t.count + 1 } else { t with oldest := (t.oldest + 1) % max n 1 }
      if !act then t
      else
        let t := { t with triggered := true, trigIdx := i, post := p }
        if p = 0 then { stop t with full := true } else t
  else
    let t := if t.count < n then { t with count := t.count + 1 } else { t with oldest := (t.oldest + 1) % max n 1 }
    if mode = 1 ∧ t.count = n then { stop t with full := true }
    else if act then stop t
    else t

/-- The buffer takes the next record of the capture FIFO (R438 to R440). -/
def State.takeRecord (s : State) : State :=
  let t := s.obs.trace
  let n := s.traceCap
  match t.fifo with
  | [] => s
  | r :: l =>
    if !t.recording || s.obs.curfew.on || (s.spillEn && decide (65536 ≤ t.staged.length)) then s
    else
      let t' := Trace.take { t with fifo := l } (bits s.traceCtl 61 2) n (n * s.postPct / 100) r.act
      let s :=
        if s.spillEn then
          (s.setTrace { t' with staged := t'.staged ++ [(t.next, r.words)] }).startJob (.spill t.next) []
            [(bits (s.reg 0x20028) 29 29 * 4096 + 64 * t.next, wordsBytes r.words)] 0 false true
        else s.setTrace { t' with buf := t'.buf.put [] t.next r.words }
      s.tally 0

/-- A write of OBS_TRACE_CTL (R439): EN from 0 to 1 starts recording with an empty buffer, unless SPILL_EN finds no room;
EN 0 stops it. -/
def State.writeTraceCtl (s : State) (v : Word) : State :=
  let bad := bit v 60 && decide (bits (s.reg 0x20028) 0 29 = 0)
  let v := if bad then v &&& 0x7FFFFFFFFFFFFFFF else v
  let was := bit s.traceCtl 63
  let s := s.setReg 0x20010 v
  let t := s.obs.trace
  if !bit v 63 then s.setTrace { t with recording := false, fifo := [] }
  else if was then s
  else
    s.setTrace { recording := true, held := t.held, seq := t.seq, staged := t.staged, lost := t.lost, tallied := t.tallied }

/-- Word `w` of the on-chip buffer: eight words a record. -/
def State.traceWord (s : State) (w : Nat) : Word := (s.obs.trace.buf.get [] (w / 8)).getD (w % 8) 0

/-! ### The taste unit -/

/-- Changes the taste or export with a number. -/
def State.modTst (s : State) (id : Nat) (f : Taste → Taste) : State :=
  { s with obs := { s.obs with tastes := s.obs.tastes.map fun t => if t.id = id then f t else t } }

/-- A taste or export ends with an outcome: 0 done, 4 too big, 5 aborted (Table 18.4). -/
def State.endTaste (s : State) (t : Taste) (outcome : Nat) : State :=
  let s : State := { s with obs := { s.obs with tastes := s.obs.tastes.filter fun x => decide (x.id ≠ t.id) } }
  let s := s.modTaste fun c =>
    if outcome = 0 then { c with done := satAdd c.done 1 }
    else if outcome = 4 then { c with tooBig := satAdd c.tooBig 1 }
    else { c with aborted := satAdd c.aborted 1 }
  let s := if outcome = 0 ∧ t.exp = false then s.count 0xD 2 0xFFFF (some t.part.toNat) else s
  s.tasteRec outcome t.part.toNat t.name.toNat t.step t.len

/-- Sends bytes of an entry at offset `o` of it (R445, R446). -/
def State.sendOb (s : State) (t : Taste) (o : Nat) (last : Bool) (data : Bytes) : State :=
  let a := bits (s.reg 0x20408) 29 29 * 4096 + t.base + o
  (s.modTst t.id fun t => { t with open_ := t.open_ + 1 }).addReq
    { id := 0, who := .taste t.id last, write := true
      pkt := { op := 0xC8, ptag := s.p0Tag, dst := (s.reg 0x20400).extractLsb' 48 11, len := BitVec.ofNat 8 data.length
               addr := BitVec.ofNat 56 a, data := data } }

/-- Header words 0 to 6 (Table 18.7). -/
def State.tasteHeader (s : State) (t : Taste) : List Word :=
  [fields [(60, 4, if t.exp then 2 else 1), (56, 4, t.part.toNat), (52, 4, t.fmt.toNat), (41, 11, s.chip.toNat),
      (0, 32, t.name.toNat)],
    t.step, t.time, BitVec.ofNat 64 t.len, t.shape, BitVec.ofNat 64 t.seq.toNat, 0]

/-- The entry's place in the ring is taken (R445). -/
def State.startTaste (s : State) (t : Taste) : State :=
  let ring := bits (s.reg 0x20408) 0 29 * 4096
  let total := 64 + (t.len + 63) / 64 * 64
  let at_ := 64 * s.obs.tasteNext.toNat
  if !bit (s.reg 0x20400) 63 then s.endTaste t 5
  else if ring < total then s.endTaste t 4
  else
    let base := if ring < at_ + total then 0 else at_
    let seq := s.obs.tasteSeq + 1
    let s : State := { s with obs := { s.obs with tasteNext := BitVec.ofNat 29 ((base + total) / 64), tasteSeq := seq } }
    s.modTst t.id fun t => { t with base := base, seq := seq, phase := 1, time := s.now }

/-- The taste at the front of the unit goes on: its next read, the header, word 7 (R445). One read is under way at a
time. -/
def State.tasteGo (s : State) : State :=
  match s.obs.tastes with
  | [] => s
  | t :: _ =>
    let n := min 224 (t.len - t.at_)
    if !s.admits then s
    else if t.phase = 0 then s.startTaste t
    else if (s.jobs.any fun j => decide (j.what = .tasteRead t.id t.at_ n)) then s
    else if t.bad then if t.open_ = 0 then s.endTaste t 5 else s
    else if t.phase = 1 then
      if n = 0 then
        (s.modTst t.id fun t => { t with phase := 2 }).sendOb t 0 false (wordsBytes (s.tasteHeader t))
      else if t.exp then
        (s.modTst t.id fun t => { t with at_ := t.at_ + n }).sendOb t (64 + t.at_) false
          (slice (wordsBytes t.snap) t.at_ n)
      else
        let s := if t.at_ = 0 then s.modTst t.id fun t => { t with time := s.now } else s
        s.startJob (.tasteRead t.id t.at_ n) [(t.lpa + t.at_, n)] [] 0 false true
    else if t.open_ ≠ 0 then s
    else if t.phase = 2 then
      (s.modTst t.id fun t => { t with phase := 3 }).sendOb t 56 true (leBytes 8 (2 ^ 63 + t.seq.toNat))
    else s.endTaste t 0

/-- Steps the taste unit while it can go on. -/
def State.tasteLoop : Nat → State → State
  | 0, s => s
  | n + 1, s => if s.obs.tastes = [] then s else State.tasteLoop n s.tasteGo

/-- A data read has ended: its packet is sent, or the entry stops. -/
def State.tasteData (s : State) (id ofs n : Nat) (j : Job) : State :=
  match s.obs.tastes.find? fun t => t.id = id with
  | none => s
  | some t =>
    if j.status ≠ stOk then s.modTst id fun t => { t with bad := true }
    else (s.modTst id fun t => { t with at_ := ofs + n }).sendOb t (64 + ofs) false (j.bytes (t.lpa + ofs) n)

/-- A write of an entry has completed; any status but OK stops the entry. -/
def State.tasteAnswer (s : State) (id st : Nat) : State :=
  s.modTst id fun t => { t with open_ := t.open_ - 1, bad := t.bad || decide (st ≠ stOk) }

/-- A counter export (R447). -/
def State.export_ (s : State) : State :=
  s.takeTaste { id := 0, exp := true, part := 0, fmt := 0, name := 0, step := 0, shape := 0x0200000100010001, lpa := 0
                len := 4096, snap := (List.range 512).map fun i => s.obs.cnt.get 0 i }

/-- An OB_WRITE at the receiver (R446). -/
def State.obRx (s : State) (p : Pkt) : State :=
  let w := s.reg 0x20410
  if p.len = 0 then s.refuse p stMalformed
  else if p.ptag = s.p0Tag ∧ bit w 63 = true ∧ p.addr.toNat + p.len.toNat ≤ bits w 0 29 * 4096 then
    s.startJob (.obWrite p) [] [(bits w 29 29 * 4096 + p.addr.toNat, slice p.data 0 p.len.toNat)] 0 false true
  else (s.modTaste fun c => { c with rxRef := satAdd c.rxRef 1 }).refuse p stDenied

/-! ### TASTE and MARK (R317, R444) -/

/-- The lowest-indexed valid menu entry with a name, of a partition or of any. -/
def State.menuFind (s : State) (part : Option Nat) (name : Nat) : Option Nat :=
  (List.range 512).find? fun i =>
    let w := s.menuWord i 0
    bit w 63 && decide (bits w 0 32 = name) && (part.isNone || part == some (bits w 58 4))

def insnTaste (q : Nat) (w : Fields) (s : State) : State :=
  s.legal q (w.only false true false false 0 (2 ^ 32 - 1)) fun s =>
    let p := (s.queue q).part
    let name := w.x.toNat
    let step := s.gA q w
    let s :=
      if p ≠ 0 ∧ (s.part p).tasteOk = false then
        (s.modTaste fun c => { c with denied := satAdd c.denied 1 }).tasteRec 2 p name step 0
      else
        match s.menuFind (if p = 0 then none else some p) name with
        | some i => s.tasteEntry i step (some (q, s.seqOf q))
        | none => (s.modTaste fun c => { c with noEntry := satAdd c.noEntry 1 }).tasteRec 1 p name step 0
    s.finish q []

def insnMark (q : Nat) (w : Fields) (s : State) : State :=
  s.legal q (w.only false true false false 0 (2 ^ 32 - 1)) fun s =>
    let p := (s.queue q).part
    let v := s.gA q w
    let s :=
      if !s.obs.trace.recording then s
      else
        let s := if s.traceSrc 0 then
            s.offer { type_ := 1, pv := true, part := BitVec.ofNat 4 p, unit_ := 7, inst := BitVec.ofNat 16 q
                      pay := leBytes 4 w.x.toNat ++ zeros 4 ++ leBytes 8 v.toNat ++ leBytes 2 q }
          else s
        s.fireWhere fun t => decide (t.kind = 4) && decide (t.value.extractLsb' 0 32 = w.x)
    s.finish q []

/-! ### Milestone time (R449, R450) -/

/-- Changes the measurement. -/
def State.modMs (s : State) (f : Ms → Ms) : State := { s with obs := { s.obs with ms := f s.obs.ms } }

/-- OBS_MS_CTL.GROUP. -/
def State.msGroup (s : State) : Nat := bits (s.reg 0x20108) 16 9

/-- The next turn of the measurement: another request, or the end (R449). -/
def State.msTry (s : State) : State :=
  let m := s.obs.ms
  if max 1 (bits (s.reg 0x20108) 0 8) ≤ m.good then
    let b := m.best.getD (0, 0)
    let s : State := { s with clk := { s.clk with ofs := s.clk.ofs + b.2 / 2 } }
    s.modMs fun m => { m with busy := false, asking := false, valid := true, delay := BitVec.ofInt 32 (b.1 / 2) }
  else if 1000 ≤ m.tries then s.modMs fun m => { m with busy := false, asking := false, fail := true }
  else
    let g := s.msGroup
    let s := s.modMs fun m =>
      { m with tries := m.tries + 1, t1 := s.now.toInt, asking := true, waitAt := s.clk.core + us5 10 }
    s.sipSend (s.sipPkt g 6 s.obs.ms.tries false 0 [] (tParent s.sipTab g))

/-- GO is refused (R450). -/
def State.msRefused (s : State) : Bool :=
  s.obs.ms.busy || s.obs.curfew.on || !tValid s.sipTab s.msGroup || (List.range 1024).any s.segValid

/-- GO: the root takes the time given and is valid; another chip measures towards its parent. -/
def State.msStart (s : State) : State :=
  if s.msRefused then s.modMs fun m => { m with rej := true }
  else if tRoot s.sipTab s.msGroup then
    let s : State := { s with clk := { s.clk with ofs := (s.reg 0x20120).toNat - (s.clk.ms / 5 : Nat) } }
    s.modMs fun m => { m with valid := true, root := true, rej := false, fail := false }
  else
    (s.modMs fun m => { m with busy := true, root := false, rej := false, fail := false, good := 0, tries := 0
                               best := none }).msTry

/-- A SIP_TIME packet (R449): a request is answered at once, a response is taken by the running measurement. -/
def State.sipTimeRx (s : State) (p : Pkt) : State :=
  let g := sipGroup p
  if !sipDown p then
    let t := leBytes 8 s.now.toNat
    s.sipSend (s.sipPkt g 6 (sipSeqOf p) true 0 (zeros 8 ++ t ++ t ++ leBytes 8 (b2n s.obs.ms.valid)) p.src.toNat)
  else
    let m := s.obs.ms
    if !m.busy || !m.asking || decide (g ≠ s.msGroup) || decide (sipSeqOf p ≠ m.tries % 4096) then s
    else if !bit (word64 p.data 24) 0 then
      s.modMs fun m => { m with asking := false, waitAt := s.clk.core + us5 10 }
    else
      let t2 := (word64 p.data 8).toInt
      let t3 := (word64 p.data 16).toInt
      let t4 := s.now.toInt
      let d := (t4 - m.t1) - (t3 - t2)
      let x : Int × Int := (d, (t2 - m.t1) + (t3 - t4))
      let better := match m.best with
        | none => true
        | some b => decide (d < b.1)
      (s.modMs fun m => { m with asking := false, good := m.good + 1, best := if better then some x else m.best }).msTry

/-- A wait of the measurement ends: for a response that has not come another 10 us follow, then another request. -/
def State.msWaited (s : State) : State :=
  let m := s.obs.ms
  if !m.busy || decide (s.clk.core < m.waitAt) then s
  else if m.asking then s.modMs fun m => { m with asking := false, waitAt := s.clk.core + us5 10 }
  else s.msTry

end Sys2Proof.Machine
end

