-- ==== Sys2Proof/Machine/Plan.lean ====
section
/-! DEFINITION. The installed plan (R129 to R131, R141) and the Guestbook's comparison (R133 to R135). -/

namespace Sys2Proof.Machine

/-! ### The image (Tables 5.14 to 5.16) -/

/-- The bank of a code as it stands: its words that differ from the reset contents, by offset. -/
def State.bank (s : State) (code : Nat) : Img :=
  (s.win.filter fun e => decide (bankBase code ≤ e.1 ∧ e.1 < bankBase code + bankExtent code)).map fun e =>
    (e.1 - bankBase code, e.2)

def planIds (m : Img) : Nat := bits (imgWord 2 m 8) 0 16
def planEntries (m : Img) : Nat := bits (imgWord 2 m 8) 16 16
def planShape (m : Img) : Nat := bits (imgWord 2 m 8) 32 8
def planSerial (m : Img) : BitVec 32 := (imgWord 2 m 0).extractLsb' 32 32

/-- Bytes `[o, o + 8 n)` of an image. -/
def imgBytes (m : Img) (o n : Nat) : Bytes := wordsBytes ((List.range n).map fun i => imgWord 2 m (o + 8 * i))

/-- Word 0 of identity record `i`, and its digest. -/
def planRec (m : Img) (i : Nat) : Word := imgWord 2 m (64 + 64 * i)
def recKind (w : Word) : Nat := bits w 11 2
def recId (w : Word) : Nat := bits w 0 11
def planDig (m : Img) (i : Nat) : BitVec 384 := BitVec.ofNat 384 (leNat (imgBytes m (80 + 64 * i) 6))

/-- Link entry `i`. -/
def planEnt (m : Img) (i : Nat) : Word := imgWord 2 m (64 + 64 * planIds m + 8 * i)
def entChip (e : Word) : Nat := bits e 53 11
def entLink (e : Word) : Nat := bits e 48 5
def entKind (e : Word) : Nat := bits e 46 2
def entFar (e : Word) : Nat := bits e 35 11
def entPort (e : Word) : Nat := bits e 28 7
def entClass (e : Word) : Nat := bits e 25 3
def entFec (e : Word) : Nat := bits e 23 2
def entWidth (e : Word) : Nat := bits e 19 2
def entLport (e : Word) : Nat := bits e 13 5

/-- Bytes before the signature. -/
def planLen (m : Img) : Nat := 64 + 64 * planIds m + 8 * planEntries m

/-- The bits of the staged plan's word at byte offset `o` that belong to fields (Tables 5.14 to 5.16), as the counts in its
header lay it out (log 127). -/
def planFields (m : Img) (o : Nat) : Word :=
  if o < 16 then BitVec.allOnes 64
  else if o < 64 then 0
  else if o < 64 + 64 * planIds m then
    (if o % 64 = 0 then 0x1FFF else if o % 64 = 8 then 0 else BitVec.allOnes 64)
  else if o < planLen m then 0xFFFFFFFFFFFFE000
  else BitVec.allOnes 64

/-- The records and entries. -/
def planRecs (m : Img) : List Word := (List.range (planIds m)).map (planRec m)
def planEnts (m : Img) : List Word := (List.range (planEntries m)).map (planEnt m)

/-- The plan digest: SHA-384 of everything before the signature. -/
def planSha (m : Img) : Bytes := sha384 (imgBytes m 0 (planLen m / 8))

/-- The operator key (R411): byte 8i + k of x then y, each big-endian, in bits [8k + 7:8k] of word i. -/
def State.opKey (s : State) : Nat × Nat :=
  let b := wordsBytes ((List.range 12).map fun i => s.reg (0x30080 + 8 * i))
  (beNat (b.take 48), beNat (b.drop 48))

/-- No value repeats. -/
def noRepeat (l : List Nat) : Bool := decide l.Nodup

/-- Check 1: the header. -/
def planHeaderOk (m : Img) : Bool :=
  decide (bits (imgWord 2 m 0) 0 32 = 0x4E414C50) && decide (bits (imgWord 2 m 8) 40 8 = 1) &&
    decide (planShape m = 8 ∨ planShape m = 16) && decide (1 ≤ planIds m ∧ planIds m ≤ 2096) &&
    decide (1 ≤ planEntries m ∧ planEntries m ≤ 49152) &&
    (List.range 6).all fun i => decide (imgWord 2 m (16 + 8 * i) = 0)

/-- Check 2: the signature (R130). -/
def State.planSigOk (s : State) (m : Img) : Bool :=
  let g := imgBytes m (planLen m) 12
  ecdsaVerify s.opKey (beNat (planSha m)) (beNat (g.take 48)) (beNat (g.drop 48))

/-- A record's own fields. -/
def recOk (m : Img) (i : Nat) : Bool :=
  let w := planRec m i
  decide (bits w 13 51 = 0) && decide (imgWord 2 m (72 + 64 * i) = 0) && decide (recKind w ≠ 0) &&
    (decide (recKind w ≠ 2) || decide (recId w ≤ 47))

/-- A record of a space: switch records have their own (R130). -/
def hasRec (l : List Word) (kind id : Nat) : Bool :=
  l.any fun w => decide (recId w = id) && decide ((recKind w = 2) = (kind = 2))

/-- An entry's own fields. -/
def entOk (l : List Word) (e : Word) : Bool :=
  decide (entLink e ≤ 23 ∧ entClass e < 5 ∧ entFec e ≠ 3 ∧ entWidth e ≠ 3 ∧ bits e 0 13 = 0) &&
    (decide (entKind e ≠ 1) || decide (entPort e ≤ 23)) && hasRec l 1 (entChip e) &&
    (decide (entKind e = 0) || hasRec l (entKind e) (entFar e)) &&
    (!decide (entClass e = 2 ∨ entClass e = 3) || bit e 18)

/-- What the links of one logical port share (R141): FAR_KIND, FAR_ID, CLASS, FEC, GRADE_MAX, ENC. -/
def entShared (e : Word) : Nat := bits e 35 13 * 2 ^ 8 + bits e 21 7 * 2 + b2n (bit e 18)

/-- The logical port of an entry obeys R141. -/
def lportOk (l : List Word) (e : Word) : Bool :=
  let mates := l.filter fun f => decide (entClass f ≠ 0 ∧ entChip f = entChip e ∧ entLport f = entLport e)
  decide (entClass e = 0) || (decide (mates.length ≤ 8) && mates.all fun f => entShared f = entShared e)

/-- Check 5. -/
def planShapeOk (m : Img) : Bool :=
  let rs := planRecs m
  let es := planEnts m
  ((List.range (planIds m)).all (recOk m)) && (es.all (entOk rs)) &&
    noRepeat ((rs.filter fun w => recKind w = 2).map recId) && noRepeat ((rs.filter fun w => recKind w ≠ 2).map recId) &&
    noRepeat (es.map fun e => bits e 48 16) && es.all (lportOk es)

/-- Check 6. -/
def planSymmetric (m : Img) : Bool :=
  let es := planEnts m
  es.all fun e => decide (entKind e ≠ 1) || es.any fun f =>
    decide (entKind f = 1 ∧ entChip f = entFar e ∧ entLink f = entPort e ∧ entFar f = entChip e ∧ entPort f = entLink e)

/-- The records that list this block. -/
def State.planMine (s : State) (m : Img) : List Nat :=
  (List.range (planIds m)).filter fun i => decide (recKind (planRec m i) = 1) && decide (planDig m i = s.passport)

/-- ERR of the first check of R130 that fails, 0 for none. -/
def State.planErr (s : State) (m : Img) : Nat :=
  if !planHeaderOk m then 4
  else if !s.planSigOk m then 1
  else if s.plan.valid && decide (planSerial m < s.plan.serial) then 2
  else if (s.planMine m).length ≠ 1 then 3
  else if !planShapeOk m then 4
  else if !planSymmetric m then 5
  else 0

/-- The plan a good image gives this block (R131). DESIGN CHOICE (log 161): the far digest of an entry is zero where the record of that
ID has another KIND, which check 5 lets pass. -/
def State.planOf (s : State) (m : Img) : Plan :=
  let me := (s.planMine m).headD 0
  let chip := recId (planRec m me)
  let far := fun (e : Word) => (List.range (planIds m)).find? fun i =>
    decide (recKind (planRec m i) = entKind e ∧ recId (planRec m i) = entFar e)
  { valid := true, chip := BitVec.ofNat 11 chip, serial := planSerial m, rack := (imgWord 2 m 8).extractLsb' 48 16
    err := s.plan.err, shape := BitVec.ofNat 8 (planShape m), dig := BitVec.ofNat 384 (leNat (planSha m))
    imgDig := BitVec.ofNat 384 (leNat (sha384 (imgBytes m 0 (planLen m / 8 + 12))))
    ids := (planRecs m).map fun w => (w.extractLsb' 11 2, w.extractLsb' 0 11)
    links := ((planEnts m).filter fun e => entChip e = chip).map fun e =>
      (entLink e,
        { farKind := e.extractLsb' 46 2, farId := e.extractLsb' 35 11, farPort := e.extractLsb' 28 7
          cls := e.extractLsb' 25 3, fec := e.extractLsb' 23 2, gradeMax := e.extractLsb' 21 2
          minWidth := e.extractLsb' 19 2, enc := bit e 18, lport := e.extractLsb' 13 5
          farDig := ((far e).map (planDig m)).getD 0 }) }

/-! ### The Guestbook (R133 to R135) -/

/-- Fields of a HELLO (Table 5.19). -/
def helloKind (h : Bytes) : BitVec 2 := (word64 h 0).extractLsb' 54 2
def helloId (h : Bytes) : BitVec 11 := (word64 h 0).extractLsb' 43 11
def helloPort (h : Bytes) : BitVec 7 := (word64 h 0).extractLsb' 36 7
def helloClass (h : Bytes) : BitVec 3 := (word64 h 0).extractLsb' 33 3
def helloPclass (h : Bytes) : Nat := bits (word64 h 0) 30 3
def helloAck (h : Bytes) : Bool := bit (word64 h 0) 29
def helloPassport (h : Bytes) : BitVec 384 := BitVec.ofNat 384 (leNat (slice h 16 48))
def helloPlan (h : Bytes) : BitVec 384 := BitVec.ofNat 384 (leNat (slice h 64 48))

/-- The PASSPORT of a HELLO as LNK_GUEST_DIG0 to 5 show it (R135). -/
def passportWords (h : Bytes) : List Word := (List.range 6).map fun i => word64 h (16 + 8 * i)

/-- The comparison of a HELLO with the plan entry of link `n` (R133). -/
def State.compare (s : State) (n : Nat) (h : Bytes) : Verdict :=
  if helloPclass h = 1 ∧ s.fuses.bench = false then .qBench
  else
    match s.planLink n with
    | none => .qUnexpected
    | some e =>
      if e.farKind = 0 then .qUnexpected
      else if helloKind h ≠ e.farKind ∨ helloId h ≠ e.farId ∨ helloPort h ≠ e.farPort then .qWrongPeer
      else if helloPassport h ≠ e.farDig then .qIdentity
      else if helloClass h ≠ e.cls then .qClass
      else .match_

/-- A quarantine verdict. -/
def Verdict.quarantine : Verdict → Bool
  | .qUnexpected | .qWrongPeer | .qIdentity | .qBench | .qClass | .qHostile => true
  | _ => false

/-- The verdict that a comparison gives a link: Q_HOSTILE stays (R403). DESIGN CHOICE (log 141): ADMITTED survives a later
comparison that would give Q_UNEXPECTED or Q_WRONG_PEER, the two verdicts ADMIT lifts (R135). -/
def Verdict.after (old new : Verdict) : Verdict :=
  if old = .qHostile then .qHostile
  else if old = .admitted ∧ (new = .qUnexpected ∨ new = .qWrongPeer) then .admitted
  else new

/-- Compares a HELLO: the verdict, with the source QUAR when it becomes a quarantine verdict, and PLAN_SKEW
with its source (R133). DESIGN CHOICE (log 140): with no plan in force there is no digest to differ from, and PLAN_SKEW is
0. -/
def State.judge (s : State) (n : Nat) (h : Bytes) : State :=
  let skew := s.plan.valid && decide (helloPlan h ≠ s.plan.dig)
  let old := (s.link n).guest.verdict
  let v := old.after (s.compare n h)
  let s := s.modLink n fun l => { l with guest := { l.guest with verdict := v, skew := skew } }
  let s := if v ≠ old ∧ v.quarantine = true then s.raise srcQuar else s
  if skew then s.raise srcPlanSkew else s

/-- A new plan re-evaluates every link from its stored HELLO (R135). DESIGN CHOICE (log 51): a link whose VERDICT is ABSENT is left as it
is, its PLAN_SKEW too. -/
def State.reevaluate (s : State) : State :=
  forEach (List.range 24) (fun n s =>
    let l := s.link n
    match l.guest.hello with
    | none => s
    | some h =>
      if l.guest.verdict = .none ∨ l.guest.verdict = .absent then s
      else
        let s := s.judge n h
        let v := (s.link n).guest.verdict
        if l.train.state = 4 ∧ ((v ≠ .match_ ∧ v ≠ .admitted) ∨ s.unused n = true) then s.failLink n
        else if l.train.state = 5 ∧ v = .match_ then s.modTrain n fun t => { t with admitNow := true }
        else s) s

/-- A link in DATA has a class that carries what PEER links do. -/
def State.fullClass (s : State) (n : Nat) : Bool := s.inData n && (s.planLink n).all fun e => decide (e.cls ≠ 3)

/-- A plan comes into force (R131): a link that it makes UNUSED or ADAPTER leaves the candidate set at once, so that what waits there
goes ahead of what follows it (R22, R364); each link takes its FEC class request, links are re-evaluated, and pins of logical ports that
no longer are what they were are released (R183). -/
def State.installPlan (s : State) (m : Img) : State :=
  let p := s.planOf m
  let left := (List.range 24).filter fun n => s.fullClass n && !State.fullClass { s with plan := p } n
  let s : State := forEach left (fun n s => s.leaveSet n) { s with plan := p }
  (forEach p.links (fun e s => s.modLink e.1 fun l => { l with fec := { l.fec with req := e.2.fec } }) s).reevaluate.dropPins

end Sys2Proof.Machine
end

