-- ==== Sys2Proof/Machine/Commit.lean ====
section
/-! DEFINITION. Commits (R468 to R472): each table's own checks (R119, R130, R180, R202, R250, R323, R356, R363, R443), the
start and the end of a commit, and the instructions TLOAD and TCOMMIT (R313 to R315). -/

namespace Sys2Proof.Machine

/-- A table as words by byte offset. -/
abbrev Words := Nat → Word

/-- The first failure of a list of checks. -/
def firstFail {α β : Type} (l : List α) (f : α → Option β) : Option β := l.findSome? f

/-- ERR of the first condition that holds, in order. -/
def errOf (l : List (Bool × Nat)) : Option Nat := (l.find? (·.1)).map (·.2)

/-! ### Training table (R119) -/

def rowNext (w : Word) : Nat := bits w 56 8
def rowTmoNext (w : Word) : Nat := bits w 48 8
def rowState (w : Word) : Nat := bits w 44 4
def rowCond (w : Word) : Nat := bits w 38 6
def rowAction (w : Word) : Nat := bits w 32 6
def rowArg (w : Word) : Nat := bits w 16 16
def rowUnit (w : Word) : Nat := bits w 14 2
def rowCount (w : Word) : Nat := bits w 4 10
def rowAlt (w : Word) : Bool := bit w 3

/-- The ALT rows that follow a row. -/
def altRows (t : Nat → Word) : Nat → Nat → List Nat
  | 0, _ => []
  | n + 1, r => if r < 256 && rowAlt (t r) then r :: altRows t n (r + 1) else []

/-- A row breaks R119. -/
def rowBad (t : Nat → Word) (r : Nat) : Bool :=
  let w := t r
  let conds := rowCond w :: (altRows t 255 (r + 1)).map fun k => rowCond (t k)
  decide (0x16 < rowCond w) || decide (0x0B < rowAction w) || (decide (r = 0) && rowAlt w) ||
    rowAlt (t (rowNext w)) || rowAlt (t (rowTmoNext w)) ||
    (!rowAlt w && decide (rowCond w = 0) && decide (r < 255) && rowAlt (t (r + 1))) ||
    (rowAlt w && decide (rowCount w ≠ 0)) ||
    (decide (rowCond w = 0x08 ∨ rowCond w = 0x0A ∨ rowCond w = 0x0E) && decide (rowAction w = 2)) ||
    (decide (rowAction w = 1) && decide (rowArg w % 256 = 0)) ||
    (!rowAlt w && decide (rowState w = 4 ∨ rowState w = 5) && decide (rowCond w ≠ 0) &&
      !(conds.contains 0x11 && conds.contains 0x12))

/-- The first row that breaks R119. -/
def trainFail (t : Words) : Option Nat := (List.range 256).find? fun r => rowBad (fun r => t (8 * r)) r

/-! ### Routing table (R180) -/

/-- A candidate breaks R180. -/
def State.candBad (s : State) (c : BitVec 32) : Bool :=
  bit c 31 && (decide (s.lportMembers (candPort c) = []) || decide (candWeight c = 0) || decide (bits c 9 7 = 0) ||
    decide (bits c 16 4 ≠ 0 ∨ bits c 0 8 ≠ 0))

def State.routeFail (s : State) (t : Words) : Bool :=
  (List.range 2048).any fun d => (List.range 8).any fun i =>
    let w := t (64 * d + 8 * i)
    s.candBad (w.extractLsb' 0 32) || s.candBad (w.extractLsb' 32 32)

/-! ### Scheduling table (R202) -/

/-- SCH_COMMIT_STAT (Table 8.8). -/
def schStatWord (err link slot vc : Nat) : Word := fields [(60, 4, err), (55, 5, link), (50, 5, slot), (47, 3, vc)]

/-- NOM of link `n` at the plan entry's FEC and GRADE_MAX; 0 without an entry. -/
def State.planNom (s : State) (n : Nat) : Nat :=
  match s.planLink n with
  | some e => nom e.fec.toNat e.gradeMax.toNat
  | none => 0

/-- The conditions of a link as a whole. Table 8.8 gives SLOT and VC no value for a failure of the whole link: both are 0, with the
VC of a zero weight; DESIGN CHOICE (log 154). -/
def State.schLinkFail (s : State) (t : Words) (n : Nat) : Option Word :=
  let b := 0x4000 * n
  let sum := ((List.range 85).map fun i =>
    let w := t (b + 0x100 + 16 * i)
    if bit w 63 then bits w 0 17 else 0).sum
  let zero := (List.range 5).find? fun v => decide (bits (t b) (8 * v) 8 = 0)
  let pct := bits (t b) 40 8
  if 9 * s.planNom n / 10 < sum then some (schStatWord 1 n 0 0)
  else if zero.isSome then some (schStatWord 2 n 0 (zero.getD 0 + 3))
  else if pct < 1 ∨ 25 < pct then some (schStatWord 6 n 0 0)
  else none

/-- The conditions of one shaper, slot by slot and VC by VC. -/
def schShpFail (t : Words) (n i : Nat) : Option Word :=
  let a := t (0x4000 * n + 0x100 + 16 * i)
  let b := t (0x4000 * n + 0x108 + 16 * i)
  let en := bit a 63
  (errOf [(en && decide (bits b 0 16 = 0 ∨ bits a 48 8 = 0 ∨ bits a 24 17 = 0), 2),
    (en && decide (bits a 24 17 < bits a 0 17), 3), (decide (i % 5 = 3 ∧ bits a 0 17 ≠ 0), 4),
    (decide (i / 5 = 16) && !en, 5)]).map fun e => schStatWord e n (i / 5) (i % 5 + 3)

/-- The conditions of one toll gate. -/
def schGateFail (t : Words) (j : Nat) : Option Word :=
  let a := t (0x60000 + 32 * j)
  let b := t (0x60008 + 32 * j)
  (errOf [(bit a 63 && decide (bits b 0 16 = 0 ∨ bits b 16 16 = 0 ∨ bits a 17 17 = 0), 2),
    (bit a 63 && decide (bits a 17 17 < bits a 0 17), 3)]).map fun e => schStatWord e 31 (j / 2) (if j % 2 = 0 then 4 else 7)

def State.schFail (s : State) (t : Words) : Option Word :=
  (firstFail (List.range 24) fun n => (s.schLinkFail t n).or (firstFail (List.range 85) (schShpFail t n))).or
    (firstFail (List.range 32) (schGateFail t))

/-! ### Innkeeper table (R250) -/

/-- The home region of a segment on this chip, in frames: first and number (R247). -/
def State.homeRegion (s : State) (g : Nat) : Nat × Nat :=
  let m := s.msCount (s.segMset g)
  if s.segValid g && decide (0 < m ∧ m ≤ 1024) && s.isMember g s.chip.toNat then
    (s.segHome g, (s.segPages g + m - 1) / m)
  else (0, 0)

/-- A pool in bytes, first and number: the scratchpad pool need not begin at a multiple of 2 MiB (R42). -/
def State.poolBytes (s : State) (spad : Bool) : Nat × Nat := ((s.pool spad).2, (s.pool spad).1 * mib2)

/-- INN_COMMIT_STAT. -/
def innStatWord (err seg mset : Nat) : Word := fields [(60, 4, err), (50, 10, seg), (43, 7, mset)]

/-- The first condition a segment of table `n` breaks, `s` being the state with the table in force. -/
def State.innSegFail (s n : State) (g : Nat) : Option Word :=
  let m := n.segMset g
  let r := n.homeRegion g
  let b := (r.1 * mib2, r.2 * mib2)
  let live := s.segValid g && n.segValid g &&
    decide (s.segMset g ≠ m ∨ s.segPages g ≠ n.segPages g ∨ s.segHome g ≠ n.segHome g)
  let copies := s.inn.lodge.any fun e =>
    decide (keySeg e.2.key = g) && (decide (e.2.kind = kReplica) || (decide (e.2.kind = kDir) && decide (e.2.repl ≠ [])))
  (errOf [(n.segValid g && decide (n.segPages g = 0 ∨ n.msCount m = 0), 1),
    (((List.range g).any fun h => areasMeet r (n.homeRegion h)) || areasMeet b (n.poolBytes false) ||
      areasMeet b (n.poolBytes true), 3),
    (live, 4), (s.segRo g && !n.segRo g && copies, 5)]).map fun e => innStatWord e g m

/-- A member set breaks MSET. -/
def State.innSetFail (n : State) (m : Nat) : Option Word :=
  let c := n.msCount m
  let l := (List.range c).map (n.member m)
  if 1024 < c ∨ noRepeat l = false ∨ (l.any fun x => !n.isKreup x) = true then some (innStatWord 2 0 m) else none

/-- The pools break OVERLAP or LIVE. -/
def State.innPoolFail (s n : State) : Option Word :=
  let sp := n.pool true
  let a := s.spadBase
  let b := s.spadBase + s.spadSize
  let live := fun (x : Bool) =>
    let held := s.heldFrames x
    decide (held ≠ []) && (decide ((s.pool x).2 ≠ (n.pool x).2) || held.any fun i => decide ((n.pool x).1 < i + 1))
  (errOf [(areasMeet (n.poolBytes false) (a, b - a), 3),
    (decide (0 < sp.1 ∧ ¬ (a ≤ sp.2 ∧ sp.2 + sp.1 * mib2 ≤ b)), 3), (live false || live true, 4)]).map fun e =>
      innStatWord e 0 0

/-- A curve entry is outside its range. -/
def State.innCurveFail (n : State) : Option Word :=
  let bad := ([1, 2].any fun d => (List.range 17).any fun i => decide (n.mcurve d i = 0)) ||
    (List.range 4).any fun i => decide (n.rcurve i = 0 ∨ n.rcurve i = 65535)
  if bad then some (innStatWord 6 0 0) else none

def State.innFail (s : State) (m : Img) : Option Word :=
  let n := s.withInn m
  ((firstFail (List.range 1024) (s.innSegFail n)).or (firstFail (List.range 128) n.innSetFail)).or
    ((s.innPoolFail n).or n.innCurveFail)

/-! ### Samovar table (R323) -/

/-- A group breaks a condition of Table 13.3. -/
def State.smvGroupFail (s : State) (t : SmvTab) (g : Nat) : Option Word :=
  let n := gRows t g * gCols t g
  let o := gOrder t g
  let chips := o.map (· % 2048)
  let alt := gAltArea t g
  let as := gAreas t g
  let split := (List.range (gRows t g)).any fun r => (List.range (gCols t g)).any fun c =>
    !sameBoard (gMember t g r 0) (gMember t g r c)
  let chunk := bits (t (64 * g)) 22 7
  let v := gValid t g
  (errOf [(v && decide (chunk = 0 ∨ gWeight t g = 0), 1),
    (v && (decide (64 < chunk ∨ 1024 < n ∨ 65536 < gBase t g + n) ||
      (gAltEn t g && !decide (s.spadBase ≤ alt.1 ∧ alt.1 + alt.2 ≤ s.spadBase + s.spadSize))), 2),
    (v && (!noRepeat chips || (chips.any fun c => !s.isKreup c) || split), 3),
    (v && !chips.contains s.chip.toNat, 4),
    (v && ((match as with
        | [a, b] => areasMeet a b
        | _ => false) || as.any (areasMeet alt)), 5),
    (decide ((s.grp g).st ≠ .idle) && gChanges s.smvTab t g, 6)]).map fun e => fields [(60, 4, e), (51, 9, g)]

/-- The accepted table is in force: the registers of a group whose descriptor changes, which is IDLE, return to their reset values
(R342); a changed group numbers its sip operations from 0 (R367) and has no READY of the old table; MY_ROW, MY_COL and OT_DIG of every
valid group are found (R322). Whatever else the group holds stays (log 45). -/
def State.installSmv (s : State) (m : Img) : State :=
  let old := s.smvTab
  let s : State := { s with tables := { s.tables with smv := m } }
  let t := s.smvTab
  forEach (List.range 512) (fun g s =>
    let d := s.grp g
    let d := if gChanges old t g then { d with sipSeq := 0, readys := [] } else d
    let d := if gDescChanges old t g then
        { d with gen := 0, cause := 0, next := 0, scale := 0x3F800000, chunks := 0, aborts := 0, myRow := 0, myCol := 0, otDig := 0 }
      else d
    if gValid t g then
      let i := ((gOrder t g).findIdx? fun e => e % 2048 = s.chip.toNat).getD 0
      s.setGrp g { d with myRow := i / gCols t g, myCol := i % gCols t g, otDig := gDigest t g }
    else s.setGrp g d) s

/-! ### Format table (R356) -/

/-- The fixed entries (Table 14.4). -/
def fmtFixed (i : Nat) : Bool := decide (i ≤ 5 ∨ i = 8 ∨ i = 9 ∨ i = 10)

/-- An entry breaks R356. -/
def fmtEntryFail (t : Words) (i : Nat) : Option Word :=
  let w := t (16 * i)
  let f := Fmt.of w
  let extra := decide (t (16 * i + 8) ≠ 0)
  let e :=
    if fmtFixed i then
      errOf [(decide (w &&& 0xFDFFFFFFFFFFFFFF ≠ fmtReset (16 * i)) || extra, 1)]
    else if !bit w 63 then none
    else
      errOf [(f.int || decide (bits w 60 2 = 3 ∨ 1 + f.ew + f.mw ≠ f.width), 2),
        (decide (f.ew = 0 ∨ 8 < f.ew ∨ 2 ^ f.ew - 1 < f.bias ∨ f.special = 3 ∨ (f.mw = 0 ∧ f.special ≤ 1) ∨
          (f.ew = 1 ∧ f.special = 0) ∨ bits w 52 4 ≠ 0 ∨ bits w 0 35 ≠ 0) || extra, 3)]
  e.map fun e => fields [(60, 4, e), (56, 4, i)]

/-! ### Sip tree (R363) -/

/-- Two tables' entries of a group differ. -/
def sipChanges (t u : SipTab) (g : Nat) : Bool := (List.range 16).any fun w => decide (t (128 * g + 8 * w) ≠ u (128 * g + 8 * w))

/-- A sip operation of a group is in progress here: a member's own, or a relay's until the down packet has passed. -/
def State.sipBusy (s : State) (g : Nat) : Bool :=
  (s.grp g).sipOp.isSome || decide ((s.grp g).arr ≠ []) || (s.grp g).relayUp.isSome

/-- An entry breaks R363. -/
def State.sipFail (s : State) (t : SipTab) (g : Nat) : Option Word :=
  let w := t (128 * g)
  let v := tValid t g
  let slot := fun i => bits (t (128 * g + 64 + 8 * (i / 4))) (16 * (i % 4)) 16
  let near := (if tRoot t g then [] else [tParent t g]) ++ (List.range (min (tKids t g) 32)).map fun i => slot i % 2048
  (errOf [(v && decide (32 < tKids t g ∨ bits w 59 2 ≠ 0 ∨ bits w 46 2 ≠ 0 ∨ bits w 0 40 ≠ 0 ∨
      bits (t (128 * g + 8)) 16 48 ≠ 0) || (v && ((List.range 6).any fun i => decide (t (128 * g + 16 + 8 * i) ≠ 0))) ||
      (v && (List.range 32).any fun i => decide (2048 ≤ slot i)), 1),
    (v && (!noRepeat near || near.contains s.chip.toNat), 2), (v && near.any fun c => !s.isKreup c, 3),
    (s.sipBusy g && sipChanges s.sipTab t g, 4)]).map fun e => fields [(60, 4, e), (51, 9, g)]

/-- A sip operation that has begun since the checks is in progress in a group that the accepted table changes: the table waits for its
end, as the operation completes under the old one (R18, log 44). -/
def State.commitWaits (s : State) : Bool :=
  let t := imgWord s.commit.code.toNat s.commit.image
  (List.range 512).any fun g => s.sipBusy g &&
    (decide (s.commit.code = 6) && gChanges s.smvTab t g || decide (s.commit.code = 8) && sipChanges s.sipTab t g)

/-- The accepted sip tree is in force: every group numbers its operations from 0 (R367), and a changed one has no arrivals. -/
def State.installSip (s : State) (m : Img) : State :=
  let old := s.sipTab
  let s : State := { s with tables := { s.tables with sip := m } }
  forEach (List.range 512) (fun g s =>
    if sipChanges old s.sipTab g then s.modGrp g fun d => { d with sipSeq := 0, relayGen := 0, arr := [], relayUp := none }
    else s.modGrp g fun d => { d with sipSeq := 0 }) s

/-! ### Tasting menu (R443) -/

/-- Entry `i` of a table breaks a condition of Table 18.6. -/
def State.menuFail (s : State) (t : Words) (i : Nat) : Option Word :=
  let n : State := s
  let w := t (32 * i)
  let d := t (32 * i + 16)
  let v := bit w 63
  let code := bits w 54 4
  let len := (bits d 48 16 * bits d 32 16 * bits d 16 16 * bits d 0 16 * (n.fmt code).width + 7) / 8
  let same := fun j => decide (j ≠ i) && bit (t (32 * j)) 63 && decide (bits (t (32 * j)) 58 4 = bits w 58 4) &&
    decide (bits (t (32 * j)) 0 32 = bits w 0 32)
  let used := s.obs.tastes.any fun x => decide (x.entry = some i) && !x.exp
  let changes := (List.range 4).any fun k => decide (t (32 * i + 8 * k) ≠ s.menuWord i k)
  (errOf [(v && decide (2 ^ 41 < bits (t (32 * i + 8)) 0 41 + len ∨ bits w 32 10 ≠ 0 ∨ bits (t (32 * i + 8)) 41 23 ≠ 0), 1),
    (v && (List.range 512).any same, 2), (v && !s.fmtValid code, 3),
    (v && bit w 62 && !s.syncOwned (bits w 42 12) (bits w 58 4), 4), (used && changes, 5)]).map fun e =>
      fields [(60, 4, e), (51, 9, i)]

/-! ### Checks of a commit (R470) -/

/-- TBL_PDIG of a bank image. -/
def imgPdig (code : Nat) (m : Img) : BitVec 384 :=
  BitVec.ofNat 384 (leNat (wordsBytes ((List.range 6).map fun i => imgWord code m (bankExtent code - 64 + 8 * i))))

/-- Check 7, the table's own: what reports the first failure, none when it passes. An accepted commit leaves the status of the last
failure as it stands; DESIGN CHOICE (log 154), R202 and the other tables' rules say nothing of that. -/
def State.tableFail (s : State) (code : Nat) (m : Img) : Option (State → State) :=
  let t := imgWord code m
  match code with
  | 1 => (trainFail t).map fun r s => { s with commit := { s.commit with detail := BitVec.ofNat 16 r } }
  | 2 => let e := s.planErr m
         if e = 0 then none else some fun s => { s with plan := { s.plan with err := BitVec.ofNat 4 e } }
  | 3 => if s.routeFail t then some id else none
  | 4 => (s.schFail t).map fun w s => { s with schStat := w }
  | 5 => (s.innFail m).map fun w s => s.modInn fun i => { i with stat := w }
  | 6 => (firstFail (List.range 512) (s.smvGroupFail t)).map fun w s => s.modSmv fun v => { v with commit := w }
  | 7 => (firstFail (List.range 16) (fmtEntryFail t)).map fun w s => { s with fmtStat := w }
  | 8 => (firstFail (List.range 512) (s.sipFail t)).map fun w s => s.modSmv fun v => { v with sipCommit := w }
  | _ => (firstFail (List.range 512) (s.menuFail t)).map fun w s => { s with obs := { s.obs with menuStat := w } }

/-- RESULT of the checks in order, and what the table's own check reports. -/
def State.commitCheck (s : State) (code : Nat) (m : Img) : Nat × (State → State) :=
  if code = 0 ∨ 9 < code then (2, id)
  else if s.boot.stage ≠ .ready then (3, id)
  else if s.fc.safe then (4, id)
  else if s.spadSize = 0 then (5, id)
  else if code ≠ 2 ∧ (s.plan.valid = false ∨ imgPdig code m ≠ s.plan.dig) then (6, id)
  else if s.commit.unc.any fun a => decide (bankOf a = code) then (7, id)
  else
    match s.tableFail code m with
    | some f => (8, f)
    | none => (1, id)

/-- Changes GBL_TCOMMIT_STAT. -/
def State.modCommit (s : State) (f : Commit → Commit) : State := { s with commit := f s.commit }

/-- A commit of a code starts (R469, R470), and a GO that starts one clears REJ (Table 19.5): accepted, it is BUSY until COMMIT_DONE; refused, the source CONFIG is recorded,
and the TCOMMIT of `who` faults CONFIG (R315). -/
def State.startCommit (s : State) (code : BitVec 8) (who : Option (Nat × Nat)) : State :=
  let m := s.bank code.toNat
  let r := s.commitCheck code.toNat m
  let s := s.modCommit fun c =>
    { c with rej := c.rej && who.isSome, byInstr := who.isSome, code := code, result := BitVec.ofNat 4 r.1, detail := 0
             pend := if code.toNat < 10 then c.pend &&& ~~~(BitVec.ofNat 10 (1 <<< code.toNat)) else c.pend }
  if r.1 = 1 then
    let s : State := { s with sec := { s.sec with opLock := s.sec.opLock || decide (code = 2) } }
    s.modCommit fun c => { c with busy := true, locked := true, image := m, queue := who }
  else
    let s := (r.2 s).raise srcConfig
    match who with
    | some (q, n) => s.insnFault q n qfConfig
    | none => s

/-! ### Banks (R468, R469) -/

/-- The byte offsets of a bank at which the owning chapter stages a word of its table. -/
def tableHas (code o : Nat) : Bool :=
  match code with
  | 1 => decide (o < 0x800)
  | 2 => true
  | 3 => decide (o < 0x20000)
  | 4 =>
    if o < 0x60000 then decide (o % 0x4000 = 0 ∨ 0x100 ≤ o % 0x4000 ∧ o % 0x4000 < 0x650)
    else decide (o < 0x60400 ∧ o % 32 < 16)
  | 5 =>
    decide (o = 0x40 ∨ o = 0x48 ∨ 0x100 ≤ o ∧ o < 0x148 ∨ o = 0x200 ∨ 0x1000 ≤ o ∧ o < 0x9000 ∧ o % 32 < 16 ∨
      0x9000 ≤ o ∧ o < 0x9400 ∨ 0x10000 ≤ o ∧ o < 0x50000)
  | 6 => decide (o < 0x8000 ∧ o % 64 < 32 ∨ 0x10000 ≤ o ∧ o < 0x30000)
  | 7 => decide (o < 0x100)
  | 8 => decide (o < 0x10000)
  | 9 => decide (o < 0x4000)
  | _ => false

/-- A bank address that holds neither a word of its table nor a word of TBL_PDIG is reserved (R464, R468). -/
def bankReserved (a : Nat) : Bool :=
  let c := bankOf a
  let o := a - bankBase c
  !tableHas c o && !(decide (c ≠ 2 ∧ bankExtent c - 64 ≤ o ∧ o < bankExtent c - 16))

/-- The bits of a table's word at a byte offset that belong to fields (Tables 5.2, 7.9, 8.3, 8.5, 8.7, 10.1, 10.2, 10.14,
13.1, 13.2, 14.3, 15.4, R443). -/
def tableFields (code o : Nat) : Word :=
  match code with
  | 1 => 0xFFFFFFFFFFFFFFF8
  | 3 => 0xFFF0FF00FFF0FF00
  | 4 =>
    if o < 0x60000 then
      (if o % 0x4000 = 0 then 0xFFFFFFFFFFFF else if o % 16 = 0 then 0x80FF01FFFF01FFFF else 0xFFFF)
    else if o % 32 = 0 then 0xC0000003FFFFFFFF
    else 0xFFFFFFFF
  | 5 =>
    if o = 0x40 then 0x0FFFFF00000FFFFF
    else if o = 0x48 then 0xFFF000007FF
    else if o = 0x140 then 0xFFFFFFFF
    else if o < 0x1000 then BitVec.allOnes 64
    else if o < 0x9000 then (if o % 32 = 0 then 0xFF00FFFFFFFF8000 else 0xFFFFF)
    else if o < 0x9400 then 0x7FF
    else 0x07FF07FF07FF07FF
  | 6 =>
    if o < 0x8000 then
      (if o % 64 = 0 then 0xFFFFFFFFFFFC0000 else if o % 64 = 24 then 0x800000001FFFFFFF else 0x1FFFFFFF)
    else 0x07FF07FF07FF07FF
  | 7 => if o % 16 = 0 then 0xFF0FFFF800000000 else 0
  | 8 =>
    if o % 128 = 0 then 0xE7FF3F0000000000
    else if o % 128 = 8 then 0xFFFF
    else if o % 128 < 64 then 0
    else 0x07FF07FF07FF07FF
  | 9 => if o % 32 = 0 then 0xFFFFFC00FFFFFFFF else if o % 32 = 8 then 0x1FFFFFFFFFF else BitVec.allOnes 64
  | _ => BitVec.allOnes 64

/-- The bits of a bank word that read back (R11); the words of TBL_PDIG read back whole, and a word of the plan's image by `planFields`. -/
def bankFields (a : Nat) : Word :=
  let c := bankOf a
  let o := a - bankBase c
  if tableHas c o then tableFields c o else BitVec.allOnes 64

/-- A table's own checks look at reserved fields: their bank keeps the bits written there for the checks of R130, R180, R356,
R363 and Table 18.6, and shows them as zero (log 127). -/
def keepsReserved (code : Nat) : Bool := decide (code = 2 ∨ code = 3 ∨ code = 7 ∨ code = 8 ∨ code = 9)

/-- The requests that a placement held meet their checks again, and find their segment gone (R248, R261, R268). -/
def State.admitHeld (s : State) (id : Nat) : State :=
  let mine := s.onward.filter fun x => decide (x.2.hold = some id)
  let s : State := { s with onward := s.onward.filter fun x => decide (x.2.hold ≠ some id) }
  forEach mine (fun x s => s.admitReq x.2.arrival x.2.pkt) s

/-- A table comes into force (R18), and TBL_PDIG stays with its image. -/
def State.install (s : State) (code : Nat) (m : Img) : State :=
  let s : State := { s with tables := { s.tables with pdig := s.tables.pdig.put 0 code (imgPdig code m) } }
  let size := fun (n : Nat) => m.filter fun e => decide (e.1 < n)
  let m := (size (bankExtent code - 64)).map fun e => (e.1, e.2 &&& tableFields code e.1)
  let m := m.filter fun e => decide (e.2 ≠ tableReset code e.1)
  match code with
  | 1 => { s with tables := { s.tables with train := m } }
  | 2 => s
  | 3 => { s with tables := { s.tables with route := m }
                  flows := (s.flows.map fun e => (e.1, { e.2 with pin := none })).filter fun e => decide (e.2 ≠ {}) }
  | 4 => { s with tables := { s.tables with schNext := some m } }
  | 5 =>
    let s := s.withInn m
    let gone := s.inn.placements.filter fun l => !s.segValid (keySeg l.key)
    let s := s.modInn fun i =>
      { i with lodge := i.lodge.filter fun e => s.segValid (keySeg e.2.key)
               placements := i.placements.filter fun l => s.segValid (keySeg l.key) }
    forEach gone (fun l s => (s.modInnCnt fun c => { c with abandoned := satAdd c.abandoned 1 }).admitHeld l.id) s
  | 6 => s.installSmv m
  | 7 => { s with tables := { s.tables with fmt := m } }
  | 8 => s.installSip m
  | _ => { s with tables := { s.tables with menu := m } }

/-- The first waiting TCOMMIT starts when no commit runs (R471). One whose queue no longer waits for it is dropped. -/
def State.nextCommit (s : State) : State :=
  if s.commit.busy || !s.admits then s
  else
    match s.commit.waiting with
    | [] => s
    | (q, n, code) :: l =>
      let s := s.modCommit fun c => { c with waiting := l }
      let d := s.queue q
      if d.st = .waiting ∧ d.park = .answer ∧ (d.present.map (·.seq)) = some n then s.startCommit code (some (q, n)) else s

/-- The committed table is in force or stands ready (R470): BUSY clears, the TCOMMIT that waits retires, and the next one
starts. Nothing happens while it still waits (`commitWaits`). -/
def State.commitDone (s : State) : State :=
  if !s.commit.busy || !s.admits || s.commitWaits then s
  else
    let c := s.commit
    let s := if c.code = 2 then s.installPlan c.image else s.install c.code.toNat c.image
    let s := s.modCommit fun c => { c with busy := false, image := [], queue := none }
    let s := match c.queue with
      | some (q, n) => s.answerQueue q n []
      | none => s
    s.nextCommit

/-- A write of GO (R470, R471). -/
def State.goCommit (s : State) (code : BitVec 8) : State :=
  if s.commit.busy then s.modCommit fun c => { c with rej := true } else s.startCommit code none

/-! ### Writes to banks (R469) -/

/-- A write to a bank word; it marks the bank as written, and the word is whole again. -/
def State.writeBank (s : State) (a : Nat) (v : Word) : State :=
  let c := bankOf a
  if c = 0 ∨ bankReserved a then s
  else (s.setReg a (if keepsReserved c then v else v &&& bankFields a)).modCommit fun k =>
    { k with pend := k.pend ||| BitVec.ofNat 10 (1 <<< c), unc := k.unc.filter fun b => decide (b ≠ a) }

/-! ### TLOAD and TCOMMIT -/

/-- Runs `k` for a queue of P0, and faults CONFIG otherwise (R313). -/
def State.tableOnly (s : State) (q : Nat) (k : State → State) : State :=
  if (s.queue q).part = 0 then k s else s.execFault q qfConfig

/-- A table code that Table 12.11 does not reserve. -/
def codeOk (w : Fields) : Bool := decide (1 ≤ bits w.x 0 8 ∧ bits w.x 0 8 ≤ 9)

def insnTload (q : Nat) (w : Fields) (s : State) : State :=
  s.legal q (w.only false true true true 0 0xFF && codeOk w) fun s => s.tableOnly q fun s =>
    let code := bits w.x 0 8
    let a := s.gA q w
    let n := (s.gB q w).toNat
    let o := (s.gC q w).toNat
    s.checked q [lengthCheck (s.gB q w)] fun s =>
      if n = 0 then s.finish q []
      else if n % 8 ≠ 0 ∨ o % 8 ≠ 0 ∨ bankExtent code < o + n then s.execFault q qfConfig
      else s.checked q [s.localCheck 0 a n 0] fun s =>
        let i := s.seqOf q
        (s.modInsn q fun i => { i with dst := BitVec.ofNat 64 (bankBase code + o), src := a, len := n }).startJob
          (.tload q i) [(a.toNat, n)] []

/-- TLOAD's source has been read: the words before the first one that failed are written (R314). -/
def State.tloaded (s : State) (q seq : Nat) (j : Job) : State :=
  match (s.queue q).insns.find? fun i => decide (i.seq = seq) && !i.retired with
  | none => s
  | some i =>
    let words := List.range (i.len / 8)
    let a := i.src.toNat
    let has := fun (b : Nat) => j.got.any fun e => decide (e.1 ≤ b ∧ b < e.1 + e.2.length)
    let got := fun (k : Nat) => has (a + 8 * k) && has (a + 8 * k + 7)
    let good := words.takeWhile got
    let s := forEach good (fun k s => s.writeBank (i.dst.toNat + 8 * k) (word64 (j.bytes (a + 8 * k) 8) 0)) s
    if j.status = stOk then s.finish q []
    else if j.status = stBadaddr then s.execFault q qfRequest stBadaddr
    else s.execFault q qfPoison

def insnTcommit (q : Nat) (w : Fields) (s : State) : State :=
  s.legal q (w.only false false false false 0 0xFF && codeOk w) fun s => s.tableOnly q fun s =>
    let n := s.seqOf q
    ((s.parkQueue q .answer).modCommit fun c =>
      { c with waiting := c.waiting ++ [(q, n, w.x.extractLsb' 0 8)] }).nextCommit

end Sys2Proof.Machine
end

