-- ==== Sys2Proof/Machine/Scrub.lean ====
section
/-! DEFINITION. Scrubbing (R410): the start of a scrub, the writes of zeros it issues, and its end. -/

namespace Sys2Proof.Machine

/-- A range lies wholly inside or wholly outside the scratchpad window (R272). -/
def State.wholly (s : State) (a n : Nat) : Bool :=
  decide (s.spadSize = 0 ∨ a + n ≤ s.spadBase ∨ s.spadBase + s.spadSize ≤ a ∨
    (s.spadBase ≤ a ∧ a + n ≤ s.spadBase + s.spadSize))

/-- Changes the scrub. -/
def State.modScrub (s : State) (f : Scrub → Scrub) : State := { s with sec := { s.sec with scrub := f s.sec.scrub } }

/-- What a SEGMENT scrub zeroes: the home region, then the frames that GUEST and REPLICA entries hold. -/
def State.segRanges (s : State) (g : Nat) : List (Nat × Nat) :=
  let r := s.homeRegion g
  let held := (s.inn.lodge.filter fun e => decide (keySeg e.2.key = g ∧ (e.2.kind = kGuest ∨ e.2.kind = kReplica))).map
    fun e => (s.frameAddr e.2, mib2)
  (if r.2 = 0 then [] else [(r.1 * mib2, r.2 * mib2)]) ++ held

/-- The range of MODE RANGE in local physical addresses. -/
def State.scrubRange (s : State) : Nat × Nat :=
  let w := s.reg 0x30060
  let a := bits w 29 29 * 4096
  (if bit (s.reg 0x30058) 61 then s.spadBase + a else a, bits w 0 29 * 4096)

/-- GO with the present settings. -/
def State.scrubGo (s : State) : State :=
  let c := s.reg 0x30058
  let g := bits c 0 10
  let r := s.scrubRange
  let bad :=
    if bit c 62 then !s.wholly r.1 r.2
    else !s.segValid g || s.inn.lodge.any fun e => e.2.busy && decide (keySeg e.2.key = g)
  if s.sec.scrub.busy || bad then s.modScrub fun x => { x with rej := true, done := false }
  else if bit c 62 && decide (r.2 = 0) then s.modScrub fun _ => { done := true }
  else s.modScrub fun _ => { busy := true, todo := if bit c 62 then [r] else s.segRanges g }

/-- The writes of a scrub go on, 4 KiB at a time. The head of the ranges still to zero is being written while a write of the
scrub is under way. -/
def State.pumpScrub (s : State) : State :=
  let x := s.sec.scrub
  match x.todo with
  | [] => s
  | (a, n) :: l =>
    let k := min n 4096
    match s.jobs.find? fun j => j.what = .scrub with
    | some j =>
      if j.left ≠ 0 then s
      else
        let rest := if n ≤ 4096 then l else (a + 4096, n - 4096) :: l
        let s : State := { s with jobs := s.jobs.filter fun i => decide (i.id ≠ j.id) }
        let s := s.modScrub fun x => { x with bytes := x.bytes + k, todo := rest }
        match rest with
        | [] => s
        | (b, m) :: _ => if s.admits then s.startJob .scrub [] [(b, zeros (min m 4096))] else s
    | none => if s.admits then s.startJob .scrub [] [(a, zeros k)] else s

/-- A scrub that has zeroed everything ends. -/
def State.scrubEnd (s : State) : State :=
  if s.running && s.sec.scrub.busy && decide (s.sec.scrub.todo = []) then
    s.modScrub fun x => { x with busy := false, done := true }
  else s

end Sys2Proof.Machine
end

