-- ==== Sys2Proof/Machine/Finish.lean ====
section
/-! DEFINITION. What follows from an access or a request that has ended: completions of requests performed here (R177,
R226, R265, R491), completions received (R177, R187, R216, R221, R244), and the pass in which everything that has become
possible happens before a command ends. -/

namespace Sys2Proof.Machine

/-! ### Requests performed here -/

/-- The first address a job has read. -/
def Job.base (j : Job) : Nat :=
  match j.got with
  | [] => 0
  | e :: l => l.foldl (fun a e => min a e.1) e.1

/-- Bytes a job has read in all. -/
def Job.size (j : Job) : Nat := (j.got.map fun e => e.2.length).sum

/-- A request's access has ended: its completion (R177, R491). A read of a read-only page lodged here that met poison asks for
a repair first (R265). -/
def State.served (s : State) (p : Pkt) (loc : Option Nat) (src : Nat) (at_ : List (Nat × Nat)) (j : Job) : State :=
  let s := s.markDirty p
  let fail := fun (s : State) =>
    (if j.poiSeen then s.raise srcCpPoison else s).reply p { status := j.status, loc := loc } []
  if j.status = stOk then
    s.reply p { loc := loc } (if p.writes then [] else at_.flatMap fun x => j.bytes x.1 x.2)
  else if j.poiSeen && decide (j.status = stPoison) && s.repairable p then
    match s.askRepair p src with
    | some s => s
    | none => fail s
  else fail s

/-- An atomic's read has ended: the operation, its flags, and the write back (R226, R305, R306). -/
def State.atomDo (s : State) (p : Pkt) (loc : Option Nat) (desc : Word) (j : Job) : State :=
  let w := word64 p.data 0
  let n := 2 ^ rcwSize w
  if j.status ≠ stOk then
    (s.reply p { status := j.status, loc := loc } []).modJob j.id
      fun k => { k with what := .void }
  else
    let old := leNat (j.bytes j.base n)
    let r := atomNew (AtomOp.of p.op.toNat) desc (rcwFmt w) (rcwSize w) (rcwSgn w) old (word64 p.data 16).toNat
      (word64 p.data 24).toNat
    let s := match s.tagPart p.ptag with
      | some q => s.setFlags q r
      | none => s
    s.moreJob j (.atomWrite p loc (BitVec.ofNat 64 old)) [(j.base, leBytes n r.code)]

/-! ### Requests of this chip end -/

/-- The next packet of a request's flow synchronises (R187). -/
def State.syncFlow (s : State) (r : Req) : State :=
  let key := flowKey r.pkt.dst.toNat r.pkt.vc
  if !r.numbered then s else { s with flows := s.flows.put {} key { s.flows.get {} key with sync := true } }

/-- A flow's pin is released when every numbered request of it has completed, with TIMEOUT too (R183). -/
def State.unpinFlow (s : State) (r : Req) : State :=
  if !r.numbered || (s.reqs.any fun e => e.numbered && !e.timedOut && decide (e.id ≠ r.id) &&
      decide (e.pkt.dst = r.pkt.dst ∧ e.pkt.vc = r.pkt.vc)) then s
  else s.setPin (flowKey r.pkt.dst.toNat r.pkt.vc) none

/-- A refused packet that cannot go out again has completed for its flow's pin, and leaves a gap in the flow, whose next packet
synchronises (R183, log 31). -/
def State.giveUp (s : State) (r : Req) : State :=
  match r.stage with
  | .again _ => (s.syncFlow r).unpinFlow r
  | _ => s

/-- A request of an instruction fails: the instruction's queue faults (R293, R318). -/
def State.reqFails (s : State) (r : Req) (st : Nat) : State :=
  let s := (s.giveUp r).endReq r.id
  let s := match r.fills with
    | some id =>
      let s := match s.req id with
        | some e => s.giveUp e
        | none => s
      s.endReq id
    | none => s
  match r.who with
  | .insn q seq => if r.dropped then s else s.insnFault q seq (statusFault r.pkt.op st).1 (statusFault r.pkt.op st).2
  | _ => s

/-- The class and opcode of an instruction in a queue's list, with its destination register. -/
def State.insnAt (s : State) (q seq : Nat) : Option (Nat × Nat) :=
  ((s.queue q).insns.find? fun i => i.seq = seq).map fun i => (wordClass i.word, (wordFields i.word).d.toNat)

/-- The data of a read comes back to an instruction, or its write is complete. -/
def State.insnDone (s : State) (r : Req) (q seq : Nat) (data : Bytes) : State :=
  match r.leg with
  | .get lpa =>
    (s.modReq r.id fun r => { r with stage := .landing }).startJob (.reqWrite r.id) [] [(lpa, data)]
  | .copyRe id => (s.endReq r.id).giveData id data
  | _ =>
    let s := s.endReq r.id
    match s.insnAt q seq with
    | some (2, d) => s.answerQueue q seq [(d, word64 data 0)]
    | some (5, d) =>
      let w := word64 r.pkt.data 0
      let v := leNat (slice data 0 1)
      let s := if v = vGranted then s else s.modInnCnt fun c => { c with refused := satAdd c.refused 1 }
      if plKind w = kHint then s else s.answerQueue q seq [(d, BitVec.ofNat 64 v)]
    | _ => s

/-- An E-port's completion is queued (R40). -/
def State.ePortDone (s : State) (n tag st : Nat) (data : Bytes) : State :=
  let p := s.eport n
  if !(p.flight.any fun c => decide (c.1 = tag ∧ c.2.stage = .issued)) then s
  else
    s.setEPort n
      { p with flight := p.flight.map fun c => if c.1 = tag then (c.1, { c.2 with stage := .answered }) else c
               cplQ := p.cplQ ++ [(tag, BitVec.ofNat 4 st, data)] }

/-- Whether BUSY is retried by this chip itself (R244): the requests of instructions, and the Innkeeper's notifications
(DESIGN CHOICE, log 36). -/
def Req.retries (r : Req) : Bool :=
  match r.who with
  | .insn _ _ | .none => true
  | _ => false

/-- The status reaches whoever made the request. -/
def State.deliver (s : State) (r : Req) (st : Nat) (data : Bytes) : State :=
  match r.who with
  | .eport n tag =>
    let part := s.cmdPart r
    let s := (s.endReq r.id).ePortDone n tag st data
    if st = stBusy then s.count 5 1 n part else s
  | .insn q seq => if st = stOk then s.insnDone r q seq data else s.reqFails r st
  | .placement id what =>
    let s := s.endReq r.id
    if what = 0xC1 then
      if st = stOk then s else s.endAtHash (pageKey r.pkt.addr) (word64 r.pkt.data 0) 2
    else s.plAnswer id what st (leNat (slice data 0 1))
  | .ask id => (s.endReq r.id).askAnswer id (pageKey r.pkt.addr) (word64 r.pkt.data 0) st data
  | .taste t _ => (s.endReq r.id).tasteAnswer t st
  | .none => s.endReq r.id

/-- A request refused BUSY is issued again (R244): data that came from memory is read again (R187). -/
def State.reissueReq (s : State) (r : Req) : State :=
  match r.leg with
  | .copyWr src => (s.modReq r.id fun r => { r with numbered := false, stage := .reading }).refetch r src
  | _ => s.modReq r.id fun r => { r with numbered := false, stage := .held }

/-- The request is a placement instruction's ask. -/
def Req.asks (r : Req) : Bool :=
  decide (r.pkt.op = 0xC0) && match r.who with
    | .insn _ _ => true
    | _ => false

/-- The verdict on a placement instruction's ask: a granted placement proceeds whatever has become of the queue (R259). -/
def State.askVerdict (s : State) (r : Req) (data : Bytes) : State :=
  let k := pageKey r.pkt.addr
  let w := word64 r.pkt.data 0
  let v := leNat (slice data 0 1)
  let s := s.verdictSeen k w v
  if v = vGranted then s.granted k w else s

/-- A read that fills a refused packet of a flow again: the flow keeps the packet's number, so the packet still goes out. -/
def State.owed (s : State) (r : Req) : Bool :=
  r.reread && s.reqs.any fun e => decide (r.fills = some e.id) && match e.stage with
    | .again _ => true
    | _ => false

/-- A completion of a request of this chip (R187, R216, R244). A packet refused with RETRY or RESYNC is sent again even when
its queue has abandoned it, since its flow keeps its number; every other completion of an abandoned request is discarded (R245). -/
def State.completed (s : State) (r : Req) (c : CplAddr) (data : Bytes) : State :=
  if (c.retry ∨ c.resync) ∧ r.timedOut = false then
    let s := if c.resync then s.syncFlow r else s
    s.modReq r.id fun r => { r with stage := .again c.resync }
  else
    let k := pageKey r.fab
    let s := match r.cache with
      | some n =>
        if c.loc.isSome then s.fillLoc n k (BitVec.ofNat 11 (c.loc.getD 0)) r.leaseFrom
        else if c.status = stBusy ∧ c.policed = false ∧ c.retry = false ∧ c.resync = false then s.dropLoc n k
        else s
      | none => s
    let s := if c.status = stTimeout ∨ c.status = stUnreach then s.syncFlow r else s
    let s := s.unpinFlow r
    let s := if r.asks = true ∧ c.status = stOk then s.askVerdict r data else s
    if r.timedOut ∨ (r.dropped = true ∧ s.owed r = false) then s.endReq r.id
    else if c.status = stBusy ∧ r.retries = true then
      if c.policed then
        (s.modReq r.id fun r =>
          { r with numbered := false, policed := r.policed + 1
                   stage := .backoff (s.clk.core + s.backoff (r.policed + 1)) }).drew
      else s.reissueReq r
    else s.deliver r c.status data

/-- The lodging's completion for onward entry `i` is relayed (R221). -/
def State.relay (s : State) (i : Nat) (e : Onward) (c : CplAddr) (data : Bytes) : State :=
  let s : State := { s with onward := s.onward.filter fun x => decide (x.1 ≠ i) }
  let stale := decide (c.status = stBusy) && c.loc.isNone
  s.reply e.pkt { status := c.status, policed := c.policed, loc := if stale then none else some e.lodging.toNat } data

/-- A completion is taken: for an onward entry, for a request of this chip, or for nothing any more. -/
def State.takeCpl (s : State) (p : Pkt) : State :=
  let c := CplAddr.of p.addr
  let data := slice p.data 0 p.len.toNat
  if p.sqm = 3 then
    match s.onward.find? fun x => decide (x.1 = p.tag.toNat) && x.2.sent && decide (x.2.lodging.toNat = c.rdst ∧ rvcOf x.2.pkt.vc = c.rvc) with
    | some (i, e) => s.relay i e c data
    | none => s
  else
    match s.reqs.find? fun r => decide (r.stage = .sent) && decide (r.pkt.dst.toNat = c.rdst ∧ r.pkt.sqm = p.sqm ∧
        r.pkt.tag = p.tag ∧ rvcOf r.pkt.vc = c.rvc) with
    | some r => s.completed r c data
    | none => s

/-! ### Accesses end -/

/-- What an access was for goes on (the job itself has left the list). -/
def State.jobDone (s : State) (j : Job) : State :=
  match j.what with
  | .serve p loc src at_ => s.served p loc src at_ j
  | .atomRead _ _ _ => s
  | .atomWrite p loc old =>
    let s := s.markDirty p
    if j.status = stOk then s.reply p { loc := loc } (leBytes 8 old.toNat)
    else s.reply p { status := j.status, loc := loc } []
  | .ringLine _ _ _ => s
  | .ctxLoad n q =>
    if j.status = stOk then s.loadedFrom n q (j.bytes (s.queue q).saveAt 256)
    else
      (s.modStw n fun w => { w with ctxs := w.ctxs.filter fun e => decide (e.2.queue ≠ q) }).queueFault q qfFetch 0
        ((s.queue q).pc, (s.queue q).cnt)
  | .ctxSave _ q =>
    if j.status = stOk then s else s.queueFault q qfFetch 0 ((s.queue q).pc, (s.queue q).cnt)
  | .reqRead id =>
    match s.req id with
    | some r => if j.status = stOk then s.giveData id (j.bytes j.base r.n) else s.reqFails r j.status
    | none => s
  | .reqWrite id =>
    match s.req id with
    | some r => if j.status = stOk then s.endReq id else s.reqFails r j.status
    | none => s
  | .tload q seq => s.tloaded q seq j
  | .plRead pl ofs => s.plReadDone pl ofs j j.size
  | .plWrite p => s.reply p { status := j.status } []
  | .tasteRead t ofs n => s.tasteData t ofs n j
  | .obWrite p => s.reply p { status := j.status } []
  | .spill i => s.setTrace { s.obs.trace with staged := s.obs.trace.staged.eraseP fun e => e.1 = i }
  | .smv g num what a => s.groupEnd g num what a j
  | .scrub | .void => if j.poiSeen then s.raise srcCpPoison else s

/-- A job has nothing outstanding, and its result is for the block to take at once (a ring line waits for IFETCH_LINE). -/
def Job.ripe (j : Job) : Bool :=
  decide (j.left = 0) && match j.what with
    | .ringLine _ _ _ => false
    | .scrub => false
    | _ => true

/-- The first job that has ended goes on. -/
def State.settleJob (s : State) : State :=
  match s.jobs.find? Job.ripe with
  | none => s
  | some j =>
    match j.what with
    | .atomRead p loc desc =>
      let s := s.atomDo p loc desc j
      { s with jobs := s.jobs.filter fun k => !(decide (k.id = j.id) && decide (k.what = .void)) }
    | _ => State.jobDone { s with jobs := s.jobs.filter fun k => decide (k.id ≠ j.id) } j

/-- Jobs that have ended go on, in order. -/
def State.settleJobs : Nat → State → State
  | 0, s => s
  | n + 1, s => if s.jobs.any Job.ripe then State.settleJobs n s.settleJob else s

/-! ### The pass -/

/-- Ring lines that resident queues wait for are fetched. -/
def State.fetchAll (s : State) : State :=
  if !s.admits then s else forEach ((s.stws.filter fun e => e.2.ctxs ≠ []).map (·.1)) (fun n s => s.fetchLines n) s

/-- One round of everything that has become possible: accesses that have ended, queues that go on, requests, onward packets,
placements, groups, commits, tastes, fetches, a scrub and commands to the carrier. -/
def State.round (s : State) : State :=
  let s := s.settleJobs (s.jobs.length + 1)
  let s := (s.faultComm.settleQueues).nextCommit
  let s := ((s.pumpReqs.pumpOnward).pumpPls).goGroups
  ((((State.tasteLoop 24 s).fetchAll).pumpScrub).pumpPorts).settleJobs (s.jobs.length + 1)

/-- What a command sets free happens before it ends: two rounds, since what the second half of a round frees concerns the
first half. In curfew and in the safe state nothing moves. -/
def State.kick (s : State) : State :=
  let s := s.fireTallied
  if s.running then s.round.round else s

end Sys2Proof.Machine
end

