-- ==== Sys2Proof/Machine/MemSpace.lean ====
section
/-! DEFINITION. The commands of the rack memory space (chapter 9) and of placement (chapter 10): requests and completions
received, and the timers of requests and of the Innkeeper. -/

namespace Sys2Proof.Machine

/-- GBL_CPORT_TMO.FABRIC_US and CARRIER_US in units of 0.2 ns; below 10 they act as 10 (R47). -/
def State.fabricTmo (s : State) : Nat := us5 (max 10 (bits (s.reg 0x118) 32 20))
def State.carrierTmo (s : State) : Nat := us5 (max 10 (bits (s.reg 0x118) 0 20))

/-! ### Requests (R190, R211, R223) -/

/-- The row of requests with one opcode. -/
def State.reqRow (s : State) (src op : Nat) : State := (s.requestRow src fun o => o == op).kick

def execRd (src : SrcId) (s : State) : Res := .next (s.reqRow src.val 0x80)
def execWr (src : SrcId) (s : State) : Res := .next (s.reqRow src.val 0x81)
def execAtom (src : SrcId) (s : State) : Res := .next (s.requestRow src.val fun o => o / 8 == 0x11).kick
def execRdBf (src : SrcId) (s : State) : Res := .next (s.reqRow src.val 0x90)
def execWrBf (src : SrcId) (s : State) : Res := .next (s.reqRow src.val 0x91)
def execAtomBf (src : SrcId) (s : State) : Res := .next (s.requestRow src.val fun o => o / 8 == 0x13).kick
def execBrd (src : SrcId) (s : State) : Res := .next (s.reqRow src.val 0xE0)
def execBwr (src : SrcId) (s : State) : Res := .next (s.reqRow src.val 0xE1)
def execBrdBf (src : SrcId) (s : State) : Res := .next (s.reqRow src.val 0xF0)
def execBwrBf (src : SrcId) (s : State) : Res := .next (s.reqRow src.val 0xF1)
def execFillRequest (src : SrcId) (s : State) : Res := .next (s.reqRow src.val 0xCC)

/-- An RSIG at its target (R214, R290, R307): layout, a partition here that holds its tag, and the object's owner; then the
update. -/
def State.rsigRx (s : State) (p : Pkt) : State :=
  let w := word64 p.data 0
  if !p.wellLaid then s.refuse p stMalformed
  else
    match s.tagPart p.ptag with
    | some q =>
      if s.syncOwned (bits w 0 12) q then (s.update (bits w 0 12) (bit w 12) (word64 p.data 8)).reply p {} []
      else s.refuse p stDenied
    | none => s.refuse p stDenied

/-- RSIG. -/
def State.rsigRow (s : State) (src : Nat) : State :=
  if !s.admits then s
  else
    match s.headOf src fun o => o == 0x82 with
    | some p => s.arrive src p fun s => s.rsigRx p
    | none => s

def execRsigPacket (src : SrcId) (s : State) : Res := .next (s.rsigRow src.val).kick

/-! ### Completions -/

/-- A completion at the head of its VC is taken. -/
def State.cplRow (s : State) (src op : Nat) : State :=
  if !s.admits then s
  else
    match s.headOf src fun o => o == op with
    | some p => (s.consume src p).takeCpl p
    | none => s

def execCpl (src : SrcId) (s : State) : Res := .next (s.cplRow src.val 0x60).kick
def execCplD (src : SrcId) (s : State) : Res := .next (s.cplRow src.val 0x61).kick

/-! ### Timers of requests -/

/-- An onward entry whose completion is overdue is freed (R221). -/
def State.onwardExpire (s : State) (i : Nat) : State :=
  match s.onward.find? fun x => x.1 = i with
  | some (_, e) =>
    if e.sent && decide (e.at5 + s.fabricTmo ≤ s.clk.core) then
      { s with onward := s.onward.filter fun x => decide (x.1 ≠ i) }
    else s
  | none => s

def execOnwardTimeout (i : Fin 512) (dt : Nat) (s : State) : Res := .next ((s.passNs dt).onwardExpire i.val).kick

/-- A backoff is over (R244). -/
def State.busyRetry (s : State) (id : Nat) : State :=
  match s.req id with
  | some r =>
    match r.stage with
    | .backoff t => if t ≤ s.clk.core then s.reissueReq r else s
    | _ => s
  | none => s

def execBusyRetry (req : Nat) (dt : Nat) (s : State) : Res := .next ((s.passNs dt).busyRetry req).kick

/-- A request times out: its requester has TIMEOUT, the flow synchronises (R187), and the request keeps its number until a
late completion comes (log 31). -/
def State.timeOutReq (s : State) (r : Req) : State :=
  let s := (s.syncFlow r).unpinFlow r
  let s := if r.dropped then s.endReq r.id else s.deliver r stTimeout []
  let s := s.endReq r.id
  match r.stage with
  | .sent => { s with reqs := s.reqs ++ [{ r with timedOut := true }] }
  | _ => s

/-- A request of a steward, or of the block itself, that has waited FABRIC_US since its first issue (R244). -/
def State.stewardTimeout (s : State) (id : Nat) : State :=
  match s.req id with
  | some r =>
    let port := match r.who with
      | .eport _ _ => true
      | _ => false
    match r.firstAt with
    | some t =>
      if !port && !r.timedOut && decide (r.stage ≠ .landing) && decide (t + s.fabricTmo ≤ s.clk.core) then s.timeOutReq r
      else s
    | none => s
  | none => s

def execStewardRequestTimeout (req : Nat) (dt : Nat) (s : State) : Res :=
  .next ((s.passNs dt).stewardTimeout req).kick

/-! ### The Innkeeper's timers -/

/-- A millisecond boundary of milestone time has passed: the epoch ends (R256). In a hold and in curfew it waits (R87, R270).
A milestone time set back begins the count anew. -/
def State.epochTick (s : State) : State :=
  let n := s.msIndex
  if !s.admits then s
  else
    let e := s.inn.epoch
    let s := s.modInn fun i => { i with epoch := n }
    if e < n then s.epochEnd else s

def execInnkeeperEpoch (dt : Nat) (s : State) : Res := .next (s.passNs dt).epochTick.kick

/-- NOTE entries whose expiry is `gone` are freed. -/
def State.dropNotes (s : State) (gone : Nat → Bool) : State :=
  let past := fun (e : Lodge) => decide (e.kind = kNote) && gone e.until_
  let n := (s.inn.lodge.filter fun e => past e.2).length
  let s := s.modInn fun i => { i with lodge := i.lodge.filter fun e => !past e.2 }
  if n = 0 then s else s.count 0xA 3 0xFFFF none n

/-- NOTE entries are freed at the first 4.096 us tick at or after their expiry (R253). -/
def State.freeNotes (s : State) : State := s.dropNotes fun t => decide ((t + 4095) / 4096 * 4096 ≤ s.now.toNat)

def execNoteExpiry (dt : Nat) (s : State) : Res :=
  let s := s.passNs dt
  .next (if s.running then s.freeNotes.kick else s)

/-- DIR entries of pages that lodge here, with no pin, replica or placement, are freed once their hold has ended (R253). -/
def State.freeDirs (s : State) : State :=
  s.modInn fun i =>
    { i with lodge := i.lodge.filter fun e =>
        !(decide (e.2.kind = kDir ∧ e.2.chip = s.chip ∧ e.2.repl = []) && !e.2.pin && !e.2.busy &&
          decide (e.2.until_ ≤ s.now.toNat)) }

def execDirHoldEnd (dt : Nat) (s : State) : Res :=
  let s := s.passNs dt
  .next (if s.running then s.freeDirs.kick else s)

/-! ### Placement (Table 10.7) -/

def execPlAsk (src : SrcId) (s : State) : Res := .next (s.plRow src.val 0xC0 fun p s => s.ask p).kick
def execPlMove (src : SrcId) (s : State) : Res := .next (s.plRow src.val 0xC1 fun p s => s.plMove p).kick
def execPlOpen (src : SrcId) (s : State) : Res :=
  .next (if s.openHeld src.val then s else s.plRow src.val 0xC2 fun p s => s.plOpen p).kick
def execPlData (src : SrcId) (s : State) : Res := .next (s.plRow src.val 0xC3 fun p s => s.plDataRx p).kick
def execPlCommit (src : SrcId) (s : State) : Res := .next (s.plRow src.val 0xC4 fun p s => s.plCommit p).kick
def execPlDir (src : SrcId) (s : State) : Res := .next (s.plRow src.val 0xC5 fun p s => s.plDir p).kick
def execPlDrop (src : SrcId) (s : State) : Res := .next (s.plRow src.val 0xC6 fun p s => s.plDrop p).kick

/-- A PL_DIR is repeated after its backoff (R260). -/
def State.dirRetry (s : State) (id : Nat) : State :=
  match s.inn.placements.find? fun l => l.id = id with
  | some l =>
    match l.retryAt with
    | some t =>
      if !s.admits || decide (s.clk.core < t) then s
      else
        let kind := if l.phase = .cancelling then kCancel else plKind l.word
        (s.modPl id fun l => { l with retryAt := none }).sendPl (.placement id 0xC5) 0xC5 l.key 0
          (BitVec.ofNat 11 (s.hashChip l.key)) (plData (plWith l.word kind))
    | none => s
  | none => s

def execPlDirRetry (pl : Nat) (dt : Nat) (s : State) : Res := .next ((s.passNs dt).dirRetry pl).kick

end Sys2Proof.Machine
end

