-- ==== Sys2Proof/Machine/Resets.lean ====
section
/-! DEFINITION. Cold and warm reset (R57, R58, R62): what each leaves of the state. The queue of commands that wait, and the
model's own records, are not the block's and stay. -/

namespace Sys2Proof.Machine

/-- FC_FIRST as a register (Table 17.4). -/
def FirstRec.word (f : FirstRec) : Word :=
  fields [(63, 1, b2n f.valid), (62, 1, b2n f.ovf), (61, 1, b2n f.inj), (59, 2, f.cls.toNat), (53, 6, f.source.toNat)]

/-- A cold reset: the state right after reset, with TESTMODE as sampled (R52, R57). -/
def State.coldReset (s : State) (testmode : Bool) : State :=
  { State.reset with
    pending := s.pending, sent := s.sent, freeCtr := s.freeCtr, nextId := s.nextId
    boot := { testmode := testmode } }

/-- A warm reset: the fuse shadow, milestone time and its offset are kept, FC_STATUS and FC_FIRST are copied to the FC_LAST
registers, and responses the carrier owes are awaited only to be discarded (R57, R62). The boot goes on at SRAM_INIT. DESIGN CHOICE
(log 152): the TAP's instruction register, data register and read position return to their reset values, as the rest of the
state does, where the spec names TRST_N alone. DESIGN CHOICE (log 160): the TAGs of commands that are outstanding
stay taken until their responses come. -/
def State.warmReset (s : State) (cause : BitVec 2) : State :=
  { State.reset with
    pending := s.pending, sent := s.sent, freeCtr := s.freeCtr, nextId := s.nextId
    fuses := s.fuses, clk := s.clk
    boot := { stage := .sramInit, lastReset := cause, testmode := s.boot.testmode, released := s.clk.up }
    cpOut := s.cpOut.map fun a => { a with dead := true }
    fc := { lastStatus := s.fc.status, lastFirst := s.fc.first.word, lastTime := s.fc.first.time } }

end Sys2Proof.Machine
end

