-- ==== Sys2Proof/Machine/Window.lean ====
section
/-! DEFINITION. The management port (R49 to R51): responses, and when a write takes effect (R50, R454). -/

namespace Sys2Proof.Machine

/-- A BLOCK_RST is due once the responses that wait and its own have left (R59), those of later commands not among them. -/
def State.oweReset (s : State) : State :=
  { s with boot := { s.boot with due := some (s.boot.due.getD (s.mgQ.length + 1)) } }

/-- Responses leave while the block holds RSP credits, in issue order (R29, R49); a BLOCK_RST begins after its response
(R59). -/
def State.mgPump (s : State) : State :=
  let n := min (min s.mgCrd s.mgQ.length) (s.boot.due.getD s.mgQ.length)
  let s : State := { s with sent := s.sent ++ (s.mgQ.take n).map fun r => Emit.mgRsp r.1 r.2, mgQ := s.mgQ.drop n, mgCrd := s.mgCrd - n }
  match s.boot.due with
  | none => s
  | some k => if k ≤ n then s.warmReset 2 else { s with boot := { s.boot with due := some (k - n) } }

/-- Statuses of the management port (R49). -/
def mgOk : BitVec 2 := 0
def mgBooting : BitVec 2 := 1
def mgMalformed : BitVec 2 := 2

/-- Answers a management command, whose beat has left the receiver: its CMD credit is returned (R30). -/
def State.mgReply (s : State) (data : Word) (st : BitVec 2) : State :=
  State.mgPump { (s.emit (.mgCredit 1)).crossEvents mgXing .cmd 1 with mgQ := s.mgQ ++ [(data, st)] }

/-- A management command beat: without a CMD credit it is a carrier port protocol error (R33). Its credit goes back with the
answer. -/
def State.mgBeat (s : State) (k : State → State) : State := if s.mgCmd = 0 then (s.portProto mgXing).kick else k s

/-- A write that takes effect at once in curfew (R454): OBS_CURFEW_CTL, OBS_SCAN_CTL, OBS_TRACE_IDX, and BLOCK_RST. -/
def curfewOpen (addr : Nat) (size8 : Bool) (data : Word) : Bool :=
  decide (addr / 8 * 8 = 0x20200 ∨ addr / 8 * 8 = 0x20300 ∨ addr / 8 * 8 = 0x20030) ||
    (decide (addr / 8 * 8 = 0x100) && if size8 then bit data 63 else decide (addr % 8 = 4) && bit data 31)

/-- A write joins the hold list of 256, or is discarded and counted (R454). -/
def State.holdWrite (s : State) (addr : BitVec 26) (size8 : Bool) (data : Word) : State :=
  let c := s.obs.curfew
  let c := if c.hold.length < 256 then { c with hold := c.hold ++ [(addr, size8, data)] }
    else { c with holdLost := satAdd c.holdLost 1 }
  { s with obs := { s.obs with curfew := c } }

/-- A management write whose effect is `act`: BOOTING before MGMT_OPEN (R50), held in curfew (R454), otherwise performed; and
what it sets free. DESIGN CHOICE (log 160): the data bytes of its response are zero, as are those of a MALFORMED one and bytes [7:4] of
the response to a 4-byte read; R49 gives them no value. -/
def State.mgWrite (s : State) (addr : Nat) (size8 : Bool) (data : Word) (act : State → State) : State :=
  s.mgBeat fun s =>
  if !s.mgmtOpen then s.mgReply 0 mgBooting
  else
    let s := if s.obs.curfew.on && !curfewOpen addr size8 data then s.holdWrite (BitVec.ofNat 26 addr) size8 data else act s
    (s.mgReply 0 mgOk).kick

end Sys2Proof.Machine
end

