-- ==== Sys2Proof/Machine/PortRows.lean ====
section
/-! DEFINITION. The commands at the carrier ports (chapter 2): credits, E-port commands and data, completions, the
responses of carrier memory, and the port timeouts. -/

namespace Sys2Proof.Machine

/-! ### Credits (R29, R33) -/

/-- The HCLK crossing of a channel. -/
def channelXing : Channel → Nat
  | .eCpl n => n.val
  | .rcmd p | .wcmd p | .wd p => cportXing p
  | .ncmd n => cportXing (.n n)
  | .mgRsp => mgXing
/-- The events of a channel's credits (R80). -/
def channelEvents : Channel → EvCh
  | .eCpl _ => .cpl
  | .rcmd _ | .ncmd _ => .rcmd
  | .wcmd _ => .wcmd
  | .wd _ => .wdata
  | .mgRsp => .rsp

/-- One credit more than `n` comes on a channel: above 255 outstanding is a protocol error. While the port is in reset its
counters stay zero (R30). -/
def State.credited (s : State) (ch : Channel) (n : Nat) (f : State → State) : State :=
  let x := channelXing ch
  if s.portReset x then s else if 255 ≤ n then s.portProto x else f (s.crossEvents x (channelEvents ch) 1)

/-- A credit comes back on a channel on which the block is the sender. -/
def State.takeCredited (s : State) (ch : Channel) : State :=
  let port := fun (p : CPort) (i : Nat) => s.credited ch (s.crd p i) fun s => s.modCrd p i (· + 1)
  match ch with
  | .eCpl n => s.credited ch (s.eport n.val).cplCrd fun s => s.modEPort n.val fun p => { p with cplCrd := p.cplCrd + 1 }
  | .rcmd p => port p 0
  | .wcmd p => port p 1
  | .wd p => port p 2
  | .ncmd n => port (.n n) 0
  | .mgRsp => s.credited ch s.mgCrd fun s => State.mgPump { s with mgCrd := s.mgCrd + 1 }

def execChannelCredit (ch : Channel) (s : State) : Res := .next (s.takeCredited ch).kick

/-! ### E-port commands (Tables 2.3, 2.4) -/

/-- The fields of a command beat. -/
def beatOp (b : BitVec 128) : Nat := bits b 122 6
def beatLen (b : BitVec 128) : Nat := bits b 116 6 + 1
def beatStream (b : BitVec 128) : Nat := bits b 104 8
def beatTag (b : BitVec 128) : Nat := bits b 95 9
def beatFmt (b : BitVec 128) : Nat := bits b 91 4
def beatSgn (b : BitVec 128) : Bool := bit b 90
def beatAddr (b : BitVec 128) : Word := b.extractLsb' 0 64

/-- A beat with an operation in OP: a reserved OP stays as it came. -/
def beatWith (b : BitVec 128) (op : Nat) : BitVec 128 :=
  if 0x0A ≤ beatOp b then b else BitVec.ofNat 128 (op * 2 ^ 122 + b.toNat % 2 ^ 122)

/-- A WD beat belongs to the command (R37). -/
def beatHasWd (b : BitVec 128) : Bool := decide (1 ≤ beatOp b ∧ beatOp b ≤ 9)
/-- The operation of an atomic. -/
def beatAtom (b : BitVec 128) : AtomOp := AtomOp.of (beatOp b - 2)
/-- FMT and SGN as used: zero where the operation does not use them (R36, R305). -/
def beatFs (b : BitVec 128) : Nat × Bool := if (beatAtom b).arith then (beatFmt b, beatSgn b) else (0, false)

/-- SIZE of an atomic of LEN + 1 bytes. -/
def beatSize (b : BitVec 128) : Nat := Nat.log2 (beatLen b)

/-- R36. -/
def beatOk (b : BitVec 128) : Bool :=
  let a := beatAddr b
  let n := beatLen b
  decide (beatOp b < 0x0A) && decide (bits b 64 26 = 0) && oneLine a.toNat n &&
    (decide (beatOp b < 2) || (decide (2 ^ beatSize b = n ∧ n ≤ 8 ∧ a.toNat % n = 0) &&
      atomAccepts (beatAtom b) (beatFs b).1 (beatSize b) (beatFs b).2))

/-- The status a command completes with at this chip, OK for one that goes to the fabric (R213). -/
def State.beatCheck (s : State) (b : BitVec 128) : Nat :=
  if !beatOk b then stMalformed
  else s.issueCheck (beatPart b) (beatAddr b) (beatLen b) (if beatOp b = 0 then 0 else if beatOp b = 1 then 1 else 2)

/-- The request of an accepted command with its WD beat (Table 9.3). -/
def State.beatReq (s : State) (n : Nat) (b : BitVec 128) (wd : Bytes) : State :=
  let a := beatAddr b
  let len := beatLen b
  let rack := rackGlobal a
  let op := beatOp b
  let x : Nat × Nat × Bytes :=
    if op = 0 then (0x80, 0x90, readRcw len)
    else if op = 1 then (0x81, 0x91, slice wd (a.toNat % 64) len)
    else
      let sz := beatSize b
      let m := 2 ^ (8 * len)
      (0x88 + (op - 2), 0x98 + (op - 2),
        leBytes 16 (sz <<< 12 + (beatFs b).1 <<< 15 + b2n (beatFs b).2 <<< 19) ++ leBytes 8 (leNat (slice wd 0 8) % m) ++
          leBytes 8 (if beatAtom b = .acas then leNat (slice wd 8 8) % m else 0))
  s.addReq { id := 0, who := .eport n (beatTag b), stream := some (256 * n + beatStream b)
             cache := if rack then some n else none, fab := a, n := len, write := decide (op ≠ 0), ordered := decide (op ≠ 0)
             pkt := { op := BitVec.ofNat 8 (if rack then x.1 else x.2.1), ptag := (s.part (beatPart b)).tag
                      dst := if rack then 0 else s.slotChip a, len := BitVec.ofNat 8 x.2.2.length
                      addr := a.extractLsb' 0 56, data := x.2.2 } }

/-- Changes the command in flight with a TAG. -/
def EPort.modCmd (p : EPort) (tag : Nat) (f : ECmd → ECmd) : EPort :=
  { p with flight := p.flight.map fun c => if c.1 = tag then (tag, f c.2) else c }

/-- An earlier command of the same stream and 64-byte line is not yet a request (R230); one that completes early never
becomes one. -/
def EPort.heldBack (p : EPort) (tag : Nat) (c : ECmd) : Bool :=
  c.early.isNone && (p.flight.takeWhile fun e => decide (e.1 ≠ tag)).any fun e =>
    decide (e.2.stage = .needWd ∨ e.2.stage = .queued) && e.2.early.isNone &&
      decide (beatStream e.2.beat = beatStream c.beat ∧ (beatAddr e.2.beat).toNat / 64 = (beatAddr c.beat).toNat / 64)

/-- A command with all its beats goes on: its early completion, or the request, for which it waits behind an earlier command
of its stream and line. -/
def State.beatGo (s : State) (n tag : Nat) : State :=
  match (s.eport n).flight.find? fun c => c.1 = tag with
  | none => s
  | some (_, c) =>
    if (s.eport n).heldBack tag c then s.modEPort n fun p => p.modCmd tag fun c => { c with stage := .queued } else
    let s := s.modEPort n fun p => p.modCmd tag fun c => { c with stage := .issued }
    match c.early with
    | some st => s.ePortDone n tag st.toNat []
    | none => s.beatReq n c.beat c.wd

/-- Commands that waited behind an earlier one become requests, in command order. -/
def State.beatsAfter (s : State) (n : Nat) : State :=
  forEach (((s.eport n).flight.filter fun c => c.2.stage = .queued).map (·.1)) (fun tag s => s.beatGo n tag) s

/-- The oldest WD beat goes to the oldest command that waits for one; that of a command already completed is discarded. -/
def State.matchWd (s : State) (n : Nat) : State :=
  let p := s.eport n
  match p.wdWait, p.wdBuf with
  | tag :: ts, d :: ds =>
    let s := s.setEPort n { p with wdWait := ts, wdBuf := ds }
    match p.flight.find? fun c => some c.1 = tag with
    | some (t, c) =>
      if c.stage = .needWd then ((s.modEPort n fun p => p.modCmd t fun c => { c with wd := d }).beatGo n t).beatsAfter n
      else s
    | none => s
  | _, _ => s

/-- A command beat (R33, R35, R36, R213, R423). DESIGN CHOICE (log 152): R33 names only the fault of a beat whose TAG is in flight; the
beat is dropped, has no completion, and neither takes nor returns a CMD credit. -/
def State.eportCmd (s : State) (n op : Nat) (beat : BitVec 128) : State :=
  let p := s.eport n
  let b := beatWith beat op
  let tag := beatTag b
  if p.cmdCrd = 0 ∨ (p.flight.any fun c => c.1 = tag) = true then s.portProto n
  else
    let st := s.beatCheck b
    let c : ECmd := { beat := b, stage := if beatHasWd b then .needWd else .issued, at5 := s.clk.core
                      early := if st = stOk then none else some (BitVec.ofNat 4 st) }
    let s := s.setEPort n
      { p with cmdCrd := p.cmdCrd - 1, flight := p.flight ++ [(tag, c)]
               wdWait := if beatHasWd b then p.wdWait ++ [some tag] else p.wdWait }
    let s := (s.oweEPort n false 1).count 5 0 n (some (beatPart b))
    if s.fc.safe then (s.modEPort n fun p => p.modCmd tag fun c => { c with stage := .issued }).ePortDone n tag stPoison []
    else if beatHasWd b then s.matchWd n else s.beatGo n tag

/-- The row of an operation. -/
def State.eportRow (s : State) (n op : Nat) (beat : BitVec 128) : State := (s.eportCmd n op beat).kick

def execEportLoad (port : EPortId) (beat : BitVec 128) (s : State) : Res := .next (s.eportRow port.val 0 beat)
def execEportStore (port : EPortId) (beat : BitVec 128) (s : State) : Res := .next (s.eportRow port.val 1 beat)
def execEportAadd (port : EPortId) (beat : BitVec 128) (s : State) : Res := .next (s.eportRow port.val 2 beat)
def execEportAmin (port : EPortId) (beat : BitVec 128) (s : State) : Res := .next (s.eportRow port.val 3 beat)
def execEportAmax (port : EPortId) (beat : BitVec 128) (s : State) : Res := .next (s.eportRow port.val 4 beat)
def execEportAand (port : EPortId) (beat : BitVec 128) (s : State) : Res := .next (s.eportRow port.val 5 beat)
def execEportAor (port : EPortId) (beat : BitVec 128) (s : State) : Res := .next (s.eportRow port.val 6 beat)
def execEportAxor (port : EPortId) (beat : BitVec 128) (s : State) : Res := .next (s.eportRow port.val 7 beat)
def execEportAswp (port : EPortId) (beat : BitVec 128) (s : State) : Res := .next (s.eportRow port.val 8 beat)
def execEportAcas (port : EPortId) (beat : BitVec 128) (s : State) : Res := .next (s.eportRow port.val 9 beat)

/-- A WD beat. -/
def State.eportWd (s : State) (n : Nat) (d : Bytes) : State :=
  let p := s.eport n
  if p.wdCrd = 0 then s.portProto n
  else
    let s := s.setEPort n { p with wdCrd := p.wdCrd - 1, wdBuf := p.wdBuf ++ [slice d 0 64] }
    (s.oweEPort n true 1).matchWd n

def execEportWdBeat (port : EPortId) (data : Bytes) (s : State) : Res := .next (s.eportWd port.val data).kick

/-! ### Completions (R39, R40) -/

/-- The data of a CPL beat: a load's bytes at their positions in the line, an atomic's old value in bytes [7:0]; zero for a
store and for any status but OK. -/
def cplBeat (b : BitVec 128) (st : BitVec 4) (data : Bytes) : Bytes :=
  if st ≠ 0 ∨ beatOp b = 1 then zeros 64
  else if beatOp b = 0 then slice (zeros ((beatAddr b).toNat % 64) ++ slice data 0 (beatLen b)) 0 64
  else slice (slice data 0 8) 0 64

/-- The oldest queued completion is driven, if a CPL credit is held; its TAG is free from then on, and a WD beat it never took
belongs to no later command. Curfew stops the completions, but not those of the safe state (R423, Table 1.4). -/
def State.driveCpl (s : State) (n : Nat) : State :=
  let p := s.eport n
  match p.cplQ with
  | [] => s
  | (tag, st, data) :: l =>
    if p.cplCrd = 0 ∨ (s.obs.curfew.on && !s.fc.safe) = true then s
    else
      let b := ((p.flight.find? fun c => c.1 = tag).map fun c => c.2.beat).getD 0
      (s.setEPort n
        { p with cplQ := l, cplCrd := p.cplCrd - 1, flight := p.flight.filter fun c => decide (c.1 ≠ tag)
                 wdWait := p.wdWait.map fun t => if t = some tag then none else t }).emit
        (.eCpl n (BitVec.ofNat 32 (tag <<< 23 + st.toNat <<< 19)) (cplBeat b st data))

def execEportCompletion (port : EPortId) (s : State) : Res := .next (s.driveCpl port.val).kick

/-- A command has waited FABRIC_US for its completion (R47): TIMEOUT, and no fault. -/
def State.eportExpire (s : State) (n tag : Nat) : State :=
  match (s.eport n).flight.find? fun c => c.1 = tag with
  | none => s
  | some (_, c) =>
    if !s.running || decide (c.stage = .answered) || decide (s.clk.core < c.at5 + s.fabricTmo) then s
    else
      match s.reqs.find? fun r => decide (r.who = .eport n tag) && !r.timedOut with
      | some r => s.timeOutReq r
      | none =>
        ((s.modEPort n fun p => p.modCmd tag fun c => { c with stage := .issued }).ePortDone n tag stTimeout []).beatsAfter n

def execEportFabricTimeout (port : EPortId) (tag : BitVec 9) (dt : Nat) (s : State) : Res :=
  .next ((s.passNs dt).eportExpire port.val tag.toNat).kick

/-! ### Responses (Tables 2.8, 2.9) -/

def execCarrierReadData (port : CPort) (tag : BitVec 9) (status : BitVec 2) (data : Bytes) (s : State) : Res :=
  .next (s.respond port (some false) tag.toNat status data).kick

def execCarrierWriteAck (port : CPort) (tag : BitVec 9) (status : BitVec 2) (s : State) : Res :=
  .next (s.respond port (some true) tag.toNat status []).kick

def execNPortResponse (port : Fin 4) (tag : BitVec 7) (status : BitVec 2) (data : Bytes) (s : State) : Res :=
  .next (s.respond (.n port) none tag.toNat status data).kick

/-- A command has waited CARRIER_US for its response (R47, R48): in the safe state too, where the port still owes it
(R423). -/
def State.carrierExpire (s : State) (port : CPort) (write : Bool) (tag : Nat) : State :=
  match s.cpOut.find? fun a => decide (a.port = port ∧ a.tag = tag) && (isNPort port || a.write == write) && !a.dead with
  | some a => if !s.obs.curfew.on && decide (a.at5 + s.carrierTmo ≤ s.clk.core) then s.expire a else s
  | none => s

def execCarrierPortTimeout (port : CPort) (write : Bool) (tag : BitVec 9) (dt : Nat) (s : State) : Res :=
  .next ((s.passNs dt).carrierExpire port write tag.toNat).kick

end Sys2Proof.Machine
end

