-- ==== Sys2Proof/Machine/QueueRows.lean ====
section
/-! DEFINITION. The commands of queues, stewards and sync objects (chapter 11): binding, Q_CTL, doorbells, STW_CTL, sync
words, ring lines, and the steward's choice. -/

namespace Sys2Proof.Machine

/-! ### Binding (R273, Table 11.3) -/

/-- Address of word `w` of queue `q`'s descriptor. -/
def queueAddr (q w : Nat) : Nat := 0x500000 + 64 * q + 8 * w

/-- The writable bits of words 0 to 2 (Table 11.1). -/
def bindMask : Nat → Word
  | 0 => 0xFFFFFFFFE0000000
  | 1 => 0x0FFFFF07FFFFFFFF
  | _ => 0x00000007FFFFFFFF

/-- A descriptor with word `w` replaced. -/
def Queue.withWord (d : Queue) (w : Nat) (v : Word) : Queue :=
  let v := v &&& bindMask w
  if w = 0 then { d with bind := v } else if w = 1 then { d with ring := v } else { d with save := v }

/-- The queue rests, so that it can be bound again or unbound. -/
def State.resting (s : State) (q : Nat) : Bool :=
  decide ((s.queue q).st = .idle ∨ (s.queue q).st = .halted ∨ (s.queue q).st = .faulted) && decide (s.outstanding q = 0)

/-- The first check that refuses a bind, 0 for none. -/
def State.bindErr (s : State) (q : Nat) (d : Queue) : Nat :=
  let others := s.queues.filter fun e => decide (e.1 ≠ q) && e.2.valid && decide (e.2.st ≠ .unbound)
  if d.lines = 0 then 1
  else if 262144 < d.lines ∨ bits d.save 0 2 ≠ 0 ∨ s.wholly d.base (64 * d.lines) = false ∨ s.wholly d.saveAt 256 = false then 2
  else if min 8192 (bits (s.quota d.part) 50 14) ≤ (others.filter fun e => e.2.part = d.part).length then 3
  else if d.comm && others.any fun e => e.2.comm && decide (e.2.group = d.group) then 4
  else if d.fsyncEn && !s.syncOwned d.fsync d.part then 5
  else if d.program && decide (8128 ≤ q) && decide (d.part ≠ 0) then 7
  else 0

/-- Binds queue `q` with a checked descriptor. -/
def State.bindQueue (s : State) (q : Nat) (d : Queue) : State :=
  (s.dropLines q fun _ => true).setQueue q
    { bind := d.bind, ring := d.ring, save := d.save, st := .idle, nextSeq := d.nextSeq, fresh := some (List.replicate 16 0) }

/-- A write of word 0, 1 or 2, without what an error in the descriptor leaves. -/
def State.rebind (s : State) (q w : Nat) (v : Word) : State :=
  let d := s.queue q
  let n := d.withWord w v
  let bound := decide (d.st ≠ .unbound)
  if bound && !s.resting q then s.setQueue q { d with bindErr := 6 }
  else if w = 0 ∧ n.valid = false then if bound then (s.setQueue q n).unbind q else s.setQueue q n
  else if w ≠ 0 ∧ bound = false then s.setQueue q n
  else
    let e := s.bindErr q n
    if e = 0 then s.bindQueue q n
    else
      let s := if bound then (s.setQueue q n).unbind q else s
      s.setQueue q { (if bound then s.queue q else n) with
        bind := n.bind &&& 0x7FFFFFFFFFFFFFFF, bindErr := BitVec.ofNat 4 e }

/-- A write of word 0, 1 or 2. After an uncorrectable error in the descriptor only one of word 0 makes Q_CTL effective again
(Table 17.1, bit 26). -/
def State.writeBind (s : State) (q w : Nat) (v : Word) : State :=
  let lost := (s.queue q).bad && decide (w ≠ 0)
  let s := s.rebind q w v
  if lost then s.modQueue q fun d => { d with bad := true } else s

/-- QUEUE_BIND: an 8-byte write of word 0, 1 or 2. -/
def execQueueBind (q : QueueId) (word : Fin 3) (data : BitVec 64) (s : State) : Res :=
  .next (s.mgWrite (queueAddr q.val word.val) true data fun s => s.writeBind q.val word.val data)

/-- QUEUE_UNBIND: word 0 written back with VALID 0. -/
def execQueueUnbind (q : QueueId) (s : State) : Res :=
  let v := (s.queue q.val).bind &&& 0x7FFFFFFFFFFFFFFF
  .next (s.mgWrite (queueAddr q.val 0) true v fun s => s.writeBind q.val 0 v)

/-! ### Q_CTL (R279, R295, Table 11.8, Table 12.14) -/

/-- START. -/
def State.doStart (s : State) (q : Nat) : State :=
  let d := s.queue q
  match d.st with
  | .halted => (s.setQueue q { d with halt := false }).resumeQueue q
  | .idle => if d.program then s.startProgram q 0 else if d.cnt ≠ d.tail then s.setQueue q { d with st := .ready } else s
  | _ => s

/-- CLEAR. -/
def State.doClear (s : State) (q : Nat) : State :=
  let d := s.queue q
  if d.st = .faulted then
    (s.setQueue q { d with st := .halted, code := 0, info := 0, ovf := false, faultPc := 0, dbRej := false, hold := none }
      ).settleHead q
  else s

/-- SKIP: PC passes one entry; an instruction not yet retired is given up there. -/
def State.doSkip (s : State) (q : Nat) : State :=
  let d := s.queue q
  if d.st = .halted ∧ (d.program = true ∨ d.cnt ≠ d.tail) then
    (s.setQueue q { d with pc := (d.pc + 1) % (max d.size 1), cnt := d.cnt + 1
                           insns := d.insns.map fun i => { i with retired := true } }).settleHead q
  else s

/-- HALT: at once at a boundary, or when the present instruction or piece ends; a WAIT leaves its list and is executed again
at START. -/
def State.doHalt (s : State) (q : Nat) : State :=
  let d := s.queue q
  match d.st, d.park with
  | .ready, _ => (s.setQueue q { d with st := .halted }).leave q
  | .waiting, .sync _ _ _ => ((s.unwait q).modQueue q fun d => { d with st := .halted, park := .none }).leave q
  | .waiting, _ | .active, _ => s.setQueue q { d with halt := true }
  | _, _ => s

/-- A write of Q_CTL. Bits set together act in the order CLEAR, SKIP, START, RESTART, HALT (DESIGN CHOICE, log 40). -/
def State.writeQctl (s : State) (q : Nat) (v : Word) : State :=
  let act := fun (i : Nat) (f : State → State) (s : State) => if bit v i && !(s.queue q).bad then f s else s
  act 59 (fun s => s.doHalt q) (act 62 (fun s => s.restartQueue q) (act 63 (fun s => s.doStart q)
    (act 60 (fun s => s.doSkip q) (act 61 (fun s => s.doClear q) s))))

/-- A write of Q_CTL with one bit set. -/
def State.qctlRow (s : State) (q i : Nat) : State :=
  s.mgWrite (queueAddr q 6) true (BitVec.ofNat 64 (2 ^ i)) fun s => s.writeQctl q (BitVec.ofNat 64 (2 ^ i))

def execStart (q : QueueId) (s : State) : Res := .next (s.qctlRow q.val 63)
def execRestart (q : QueueId) (s : State) : Res := .next (s.qctlRow q.val 62)
def execQueueClear (q : QueueId) (s : State) : Res := .next (s.qctlRow q.val 61)
def execSkip (q : QueueId) (s : State) : Res := .next (s.qctlRow q.val 60)
def execQueueHalt (q : QueueId) (s : State) : Res := .next (s.qctlRow q.val 59)

/-! ### Doorbells (R277, R278) -/

/-- A ring line holds one of the `n` entries from ring index `a` on. -/
def lineHas (size a n l : Nat) : Bool := (List.range 4).any fun k => decide ((4 * l + k + size - a) % size < n)

/-- A doorbell. -/
def State.ring (s : State) (q : Nat) (v : BitVec 32) : State :=
  let d := s.queue q
  if d.st = .unbound then s.setQueue q { d with dbRej := true }
  else if d.program then
    if d.st = .idle then s.startProgram q v else s.setQueue q { d with tail := v, pend := true }
  else if (v - d.head).toNat ≤ d.size ∧ (d.tail - d.head).toNat ≤ (v - d.head).toNat then
    let n := (v - d.tail).toNat
    let a := (d.pc + (d.tail - d.cnt).toNat) % (max d.size 1)
    (s.dropLines q fun l => lineHas d.size a n l).setQueue q
      { d with tail := v, st := if d.st = .idle ∧ d.cnt ≠ v then .ready else d.st }
  else s.setQueue q { d with dbRej := true }

/-- Queue `q` is bound and belongs to partition `p` (R291). -/
def State.ownsQueue (s : State) (p q : Nat) : Bool := decide ((s.queue q).st ≠ .unbound) && decide ((s.queue q).part = p)

/-- A doorbell is an event of the management port's crossing (Table 3.5). From a tenant's window it has no effect on a queue of
another partition (R291). -/
def State.doDoorbell (s : State) (q : Nat) (tenant : Option Nat) (v : BitVec 32) : State :=
  let s := s.crossEvents mgXing .doorbell 1
  match tenant with
  | some p => if s.ownsQueue p q then s.ring q v else s
  | none => s.ring q v

/-- Base of a tenant window (Table 19.1). -/
def tenantBase (p : Nat) : Nat := 0x1000000 + 0x100000 * p

/-- DOORBELL: a 4-byte write of Q_DB or PRT_QDB. -/
def execDoorbell (q : QueueId) (tenant : Option PartId) (value : BitVec 32) (s : State) : Res :=
  let t := tenant.map (·.val)
  let a := match t with
    | some p => tenantBase p + 8 * q.val
    | none => queueAddr q.val 7
  .next (s.mgWrite a false (value.zeroExtend 64) fun s => s.doDoorbell q.val t value)

/-! ### Ring lines (R281, R282) -/

/-- A fetched line comes in, or its failure faults the queue. -/
def State.lineIn (s : State) (n : Nat) : State :=
  match s.jobs.find? fun j => decide (j.left = 0) && match j.what with
      | .ringLine m _ _ => decide (m = n)
      | _ => false with
  | none => s
  | some j =>
    let s : State := { s with jobs := s.jobs.filter fun k => decide (k.id ≠ j.id) }
    match j.what with
    | .ringLine _ q line =>
      if j.status = stOk then s.cacheLine n q line (j.bytes j.base 64)
      else
        s.queueFault q qfFetch 0 ((s.queue q).pc, (s.queue q).cnt)
    | _ => s

def execIfetchLine (stw : StwId) (s : State) : Res := .next (if s.running then (s.lineIn stw.val).kick else s)

/-! ### Stewards (Table 11.4) -/

/-- A write of STW_CTL: it acts at the steward's next boundary. -/
def State.writeStwCtl (s : State) (n : Nat) (v : Word) : State :=
  let s := s.modStw n fun w => { w with ctl := v &&& 0x800000000000000F }
  if (s.stw n).cur.isSome then s else s.stwBoundary n

def execStwCtlWrite (stw : StwId) (en : Bool) (pool : BitVec 4) (s : State) : Res :=
  let v := fields [(63, 1, b2n en), (0, 4, pool.toNat)]
  .next (s.mgWrite (0x400000 + 0x1000 * stw.val) true v fun s => s.writeStwCtl stw.val v)

/-! ### Sync objects (R287, R288, R291) -/

/-- The sync quota of a partition is used up without object `n`. -/
def State.syncFull (s : State) (n p : Nat) : Bool :=
  decide (bits (s.quota p) 37 13 ≤
    (s.syncs.filter fun e => decide (e.1 ≠ n) && e.2.alloc && decide (e.2.part.toNat = p)).length)

/-- A write of SYNC_CTL. -/
def State.writeSyncCtl (s : State) (n : Nat) (alloc : Bool) (p : BitVec 4) : State :=
  let o := s.sync n
  let bad := (alloc && !o.alloc && s.syncFull n p.toNat) || (!alloc && o.alloc && decide (o.waiters ≠ [])) ||
    (o.alloc && decide (o.part ≠ p))
  s.setSync n (if bad then { o with rej := true } else { o with alloc := alloc, part := p, rej := false })

/-- A tenant's PRT_SYNC_ADD. -/
def State.tenantAdd (s : State) (p n : Nat) (v : Word) : State := if s.syncOwned n p then s.update n false v else s

def execSyncCtlWrite (n : SyncId) (alloc : Bool) (p : BitVec 4) (s : State) : Res :=
  .next (s.mgWrite (0x600008 + 16 * n.val) true (fields [(63, 1, b2n alloc), (59, 4, p.toNat)]) fun s =>
    s.writeSyncCtl n.val alloc p)

/-- The driver's write of SYNC_VAL, which also makes an object whole that SYNC_UNC struck (Table 17.1). -/
def State.writeSyncVal (s : State) (n : Nat) (v : Word) : State :=
  (s.setSync n { s.sync n with bad := false }).update n true v

def execSyncValWrite (n : SyncId) (value : BitVec 64) (s : State) : Res :=
  .next (s.mgWrite (0x600000 + 16 * n.val) true value fun s => s.writeSyncVal n.val value)

def execPrtSyncAdd (p : PartId) (n : SyncId) (addend : BitVec 64) (s : State) : Res :=
  .next (s.mgWrite (tenantBase p.val + 0x50008 + 16 * n.val) true addend fun s => s.tenantAdd p.val n.val addend)

end Sys2Proof.Machine
end

