-- ==== Sys2Proof/Machine/Lane.lean ====
section
/-! DEFINITION. The commands of the lanes (chapter 4): the registers of a lane window, bit slip and header windows, lock and its
loss, FEC codewords, eye scans, PRBS. -/

namespace Sys2Proof.Machine

/-! ### Registers of a lane (Tables 4.7 to 4.18) -/

def laneBase (n : Nat) : Nat := 0x200000 + 0x2000 * n

/-- LANE_STAT. -/
def Lane.statWord (l : Lane) : Word :=
  fields [(63, 1, b2n l.cdr), (62, 1, b2n l.blk), (61, 1, b2n l.adaptDone), (60, 1, b2n l.idle), (58, 2, l.grade.toNat),
    (57, 1, b2n l.active), (38, 10, l.rx.freqOfs.toNat), (22, 10, l.skew.toNat)]
/-- LANE_CTL. -/
def Lane.ctlWord (l : Lane) : Word := fields [(7, 1, b2n l.txPol), (6, 1, b2n l.rxPol), (5, 1, b2n l.adapt)]
/-- The staged fields of LANE_TXEQ. -/
def Fir.word (f : Fir) : Word := fields [(12, 6, f.pre.toNat), (6, 6, f.main.toNat), (0, 6, f.post.toNat)]
/-- LANE_TXEQ. -/
def Lane.txeqWord (l : Lane) : Word := fields [(62, 1, b2n l.firErr)] ||| (l.cur.word <<< 24) ||| l.staged.word
/-- LANE_RXSTAT. -/
def Lane.rxstatWord (l : Lane) : Word := fields [(48, 5, l.rx.ctle.toNat), (40, 8, l.rx.vga.toNat), (0, 16, l.rx.snr.toNat)]
/-- LANE_EYE_CTL. -/
def Eye.ctlWord (e : Eye) : Word :=
  fields [(20, 4, e.dwell.toNat), (18, 2, e.eye.toNat), (12, 6, e.phase.toNat), (0, 8, e.vofs.toNat)]
/-- LANE_EYE_STAT. -/
def Eye.statWord (e : Eye) : Word :=
  fields [(63, 1, b2n e.busy), (62, 1, b2n e.done), (61, 1, b2n e.invalid), (60, 1, b2n e.moved), (0, 32, e.errs.toNat)]
/-- The RW fields of LANE_PRBS_CTL. -/
def prbsSetWord (p : PrbsSet) : Word :=
  fields [(20, 4, p.rate.toNat), (19, 1, b2n p.inv), (16, 3, p.pattern.toNat), (1, 1, b2n p.chk), (0, 1, b2n p.gen)]
/-- LANE_PRBS_CTL. -/
def Prbs.ctlWord (p : Prbs) : Word := fields [(62, 1, b2n p.lock), (61, 1, b2n p.rej)] ||| prbsSetWord p.set
/-- LANE_PRBS_CNT. -/
def Prbs.cntWord (p : Prbs) : Word := fields [(40, 24, min p.errs (2 ^ 24 - 1)), (0, 40, min p.bits (2 ^ 40 - 1))]
/-- LANE_EQ_REQ. -/
def EqReq.word (e : EqReq) : Word :=
  fields [(62, 1, b2n e.tgl), (60, 2, e.stat.toNat), (59, 1, b2n e.echo), (0, 3, e.req.toNat)]

/-- The state of a lane's link. -/
def State.laneState (s : State) (n : Nat) : Nat := (s.link (n / 4)).train.state.toNat

/-! ### Transmit equaliser (R103, R104) -/

/-- The two conditions of R103. -/
def Fir.ok (f : Fir) : Bool :=
  decide (f.pre.toNat + f.main.toNat + f.post.toNat ≤ 63 ∧ 8 + f.pre.toNat + f.post.toNat ≤ f.main.toNat)

/-- A write of LANE_TXEQ: the staged fields, and APPLY. -/
def State.writeTxeq (s : State) (n : Nat) (v : Word) : State :=
  s.modLane n fun l =>
    let f : Fir := { pre := v.extractLsb' 12 6, main := v.extractLsb' 6 6, post := v.extractLsb' 0 6 }
    let l := { l with staged := f }
    if !bit v 63 then l else if f.ok then { l with cur := f, firErr := false } else { l with firErr := true }

/-- TXEQ_APPLY: a write of APPLY that leaves the staged fields as they are. -/
def execTxeqApply (lane : LaneId) (s : State) : Res :=
  let v := fields [(63, 1, 1)] ||| (s.lane lane.val).staged.word
  .next (s.mgWrite (laneBase lane.val + 0x10) true v fun s => s.writeTxeq lane.val v)

/-! ### Bit slip and header windows (R95 to R97, Table 4.19) -/

/-- A header window starts at a time. -/
def Align.restart (a : Align) (t : Nat) : Align := { a with good := 0, bad := 0, done := false, counting := true, since := t }

/-- SLIP: carried out on TRAINING and TEST rows, refused elsewhere; one while SLIP_PEND is 1 is queued. DESIGN CHOICE (log 129):
SLIP_REJ is set in every state that refuses it, not in DATA alone. -/
def State.doSlip (s : State) (n : Nat) : State :=
  let t := s.laneState n
  (s.headSettle n).modLane n fun l =>
    let a := l.align
    { l with align :=
        if ¬ (t = 1 ∨ t = 2) then { a with rej := true }
        else if a.pend then { a with queued := a.queued + 1, rej := false }
        else { a with pend := true, rej := false, counting := false } }

/-- CLEAR: the window restarts, after a slip in progress if there is one; what it has seen of invalid headers stays in HDR_ERR. -/
def State.doClearWin (s : State) (n : Nat) : State :=
  (s.headSettle n).modLane n fun l => { l with align := if l.align.pend then { l.align with clearPend := true } else l.align.restart s.clk.up }

/-- A write of LANE_ALIGN. -/
def State.writeAlign (s : State) (n : Nat) (v : Word) : State :=
  let s := if bit v 63 then s.doSlip n else s
  if bit v 62 then s.doClearWin n else s

def execSlip (lane : LaneId) (s : State) : Res :=
  .next (s.mgWrite (laneBase lane.val + 0x50) true (BitVec.ofNat 64 (2 ^ 63)) fun s => s.doSlip lane.val)

def execClear (lane : LaneId) (s : State) : Res :=
  .next (s.mgWrite (laneBase lane.val + 0x50) true (BitVec.ofNat 64 (2 ^ 62)) fun s => s.doClearWin lane.val)

/-- A pending slip completes: the boundary has moved, and both counts restart; a queued slip begins, or is refused where the
link is no longer on a TRAINING or TEST row. DESIGN CHOICE (log 129): a slip that is in progress when the link leaves those rows
completes all the same. -/
def State.slipDone (s : State) (n : Nat) : State :=
  let t := s.laneState n
  (s.headSettle n).modLane n fun l =>
    let a : Align := { l.align.restart s.clk.up with ofs := l.align.ofs + 1 }
    if !l.align.pend then l
    else if a.queued = 0 then { l with align := { a with pend := false, clearPend := false } }
    else if t = 1 ∨ t = 2 then { l with align := { a with queued := a.queued - 1 } }
    else { l with align := { a with pend := false, clearPend := false, queued := 0, rej := true } }

/-- SLIP_DONE. A SLIP instruction waits for it (R316). -/
def execSlipDone (lane : LaneId) (s : State) : Res := .next (s.slipDone lane.val).kick

/-- Sync objects that wait for an event of the lane take an add of 1 each (R316). -/
def State.noteAll (s : State) (l : List Nat) : State := forEach l (fun o s => s.update o false 1) s

/-- The invalid headers of a whole window, of which a row names `bad`: the counts that HDR_GOOD and HDR_BAD have shown do not go
back (R97, log 59). -/
def Align.badOf (a : Align) (bad : Nat) : Nat := min (max bad a.bad.toNat) (1024 - a.good.toNat)

/-- 1,024 headers counted: WINDOW_DONE, and both counts are held. No header comes without clock recovery, or through a receive
crossing in reset. -/
def State.windowDone (s : State) (n : Nat) (bad : Fin 1025) : State :=
  let l := s.lane n
  if !l.align.counting || l.align.pend || !s.laneHears n then s
  else
    let b := l.align.badOf bad.val
    let s := s.setLane n
      { l with align := { l.align with counting := false, done := true, good := BitVec.ofNat 11 (1024 - b), bad := BitVec.ofNat 11 b }
               noteWin := [], hdrFrom := s.clk.up }
    (s.headerMore n (b - l.align.bad.toNat)).noteAll l.noteWin

def execWindowDone (lane : LaneId) (bad : Fin 1025) (s : State) : Res := .next (s.windowDone lane.val bad).kick

/-! ### Lock (R95, R106) -/

/-- 64 consecutive valid sync headers. -/
def execBlockLockAcquire (lane : LaneId) (s : State) : Res :=
  .next (s.modLane lane.val fun l => { l with blk := l.cdr }).kick

/-- Lane loss on an active lane is reported to training, and LANE_LOSS is recorded (R106, R124); no report passes a receive crossing in
reset (R82). -/
def State.laneLoss (s : State) (n : Nat) : State :=
  if (s.lane n).active && !s.laneCut false n then ((s.crossKey n .lockLoss 1).modTrain (n / 4) fun t => { t with loss := true }).raise srcLaneLoss else s

/-- No run of training blocks outlasts a loss of lock. -/
def TrainRx.unlocked (t : TrainRx) : TrainRx := { t with run := 0, inv := 0, ts := 0, seen := 0 }

/-- 16 invalid headers within 64: they count in HDR_ERR, and in the window that counts (R95, R97). DESIGN CHOICE (log 129): a change of
polarity that breaks block lock counts them likewise. -/
def State.blockLoss (s : State) (n : Nat) : State :=
  let l := s.lane n
  if !l.blk then s
  else
    ((s.setLane n { l with blk := false, train := l.train.unlocked }).headTake n 16).laneLoss n

def execBlockLockLoss (lane : LaneId) (s : State) : Res := .next (s.blockLoss lane.val).kick

/-- Clock recovery locks. A lane whose receive crossing is in reset for a loss of lock sees the acknowledgement that stands there,
and leaves reset with it (R82). -/
def State.cdrLock (s : State) (n : LaneId) : State :=
  (s.modLane n.val fun l =>
    { l with cdr := true, hdrFrom := s.clk.up, align := { l.align with since := s.clk.up } }).xingAck (.laneRx n) false

def execCdrLockAcquire (lane : LaneId) (s : State) : Res :=
  .next (s.cdrLock lane).kick

/-! ### PRBS (R110 to R112) -/

/-- Exponents of a pattern's polynomial beside 0, and whether it is inverted at INV 0 (Table 4.14). -/
def prbsPoly (pattern : BitVec 3) : List Nat × Bool :=
  match pattern.toNat with
  | 0 => ([7, 6], false)
  | 1 => ([9, 5], false)
  | 2 => ([13, 12, 2, 1], false)
  | 3 => ([15, 14], true)
  | 4 => ([23, 18], true)
  | 5 => ([31, 28], true)
  | _ => ([], false)

/-- `n` bits of a polynomial's sequence, newest first, before those of `h`: each is the sum of the earlier ones its exponents
name. -/
def prbsRun (e : List Nat) : Nat → List Bool → List Bool
  | 0, h => h
  | n + 1, h => let h := prbsRun e n h; e.foldl (fun b k => b ^^ h.getD (k - 1) false) false :: h

/-- Bit `i` of 2^(8 + INJ_RATE) generated bits is inverted (R111); `ph` is where in that run the generator started. -/
def prbsInjects (p : PrbsSet) (ph i : Nat) : Bool :=
  decide (p.rate ≠ 0) && decide ((i + ph) % 2 ^ (8 + p.rate.toNat) = 0)

/-- The first `n` bits a generator sends, oldest first: the sequence from a starting point within it that the spec leaves open,
inverted as Table 4.14 and INV say, with the injected errors. -/
def prbsStream (p : PrbsSet) (seed : Word) (n : Nat) : List Bool :=
  let e := prbsPoly p.pattern
  let h := (List.range 31).map fun i => bit seed i || decide (i = 0)
  (((prbsRun e.1 n h).take n).reverse.zipIdx).map fun b =>
    b.1 ^^ (e.2 != p.inv) ^^ prbsInjects p (bits seed 31 24) b.2

/-- The levels of those bits on the lane (R90, R110). -/
def prbsLevels (grade : BitVec 2) (p : PrbsSet) (seed : Word) (n : Nat) : List Level := levels grade (prbsStream p seed n)

/-- CHK_LOCK falls, and the counts stop. -/
def State.prbsUnlock (s : State) (n : Nat) : State :=
  (s.prbsSettle n).modLane n fun l => { l with prbs := { l.prbs with lock := false } }

/-- A write of LANE_PRBS_CTL's RW fields (R111). The generator's stream replaces the lane's blocks while GEN_EN is 1 (R110), and
starts anew where a setting of it changes; its starting point is a free value. The checker stops with CHK_EN (log 129). -/
def State.writePrbsSet (s : State) (n : Nat) (p : PrbsSet) : State :=
  let refused := ((p.gen || p.chk) && !decide (s.laneState n = 2)) || decide (6 ≤ p.pattern.toNat)
  let q := if refused then { p with gen := false, chk := false } else p
  let old := (s.lane n).prbs.set
  let s := if q.chk then s else s.prbsUnlock n
  let s := if !q.gen || decide ({ old with chk := q.chk } = q) then s else (s.emit (.prbs n q s.free)).drew
  s.modLane n fun l =>
    { l with prbs := { l.prbs with set := q, rej := if refused then true else if p.gen || p.chk then false else l.prbs.rej } }

/-- INJ_ONE inverts one generated bit. -/
def State.injectOne (s : State) (n : Nat) : State :=
  if (s.lane n).prbs.set.gen then
    (s.modLane n fun l => { l with prbs := { l.prbs with inject := l.prbs.inject + 1 } }).emit (.prbsFlip n)
  else s

def prbsOf (v : Word) : PrbsSet :=
  { rate := v.extractLsb' 20 4, inv := bit v 19, pattern := v.extractLsb' 16 3, chk := bit v 1, gen := bit v 0 }

/-- A write of LANE_PRBS_CTL. -/
def State.writePrbs (s : State) (n : Nat) (v : Word) : State :=
  let s := s.writePrbsSet n (prbsOf v)
  if bit v 63 then s.injectOne n else s

def execPrbsEnable (lane : LaneId) (w : PrbsSet) (s : State) : Res :=
  .next (s.mgWrite (laneBase lane.val + 0x40) true (prbsSetWord w) fun s => s.writePrbsSet lane.val w)

/-- INJ_ONE: a write that leaves the RW fields as they are. -/
def execInjOne (lane : LaneId) (s : State) : Res :=
  let v := fields [(63, 1, 1)] ||| prbsSetWord (s.lane lane.val).prbs.set
  .next (s.mgWrite (laneBase lane.val + 0x40) true v fun s => s.injectOne lane.val)

/-- The checker has predicted 64 consecutive bits. -/
def State.prbsLock (s : State) (n : Nat) : State :=
  s.modLane n fun l =>
    if l.prbs.set.chk && l.cdr && !l.prbs.lock then { l with prbs := { l.prbs with lock := true, since := s.clk.up, part := 0 } } else l

def execPrbsChkLock (lane : LaneId) (s : State) : Res := .next (s.prbsLock lane.val)
/-- 32 errors within 64 bits: they count, and the lock falls (R112). How many more bits were wrong before them only the line
knows. -/
def State.prbsMiss (s : State) (n : Nat) : State :=
  let l := s.lane n
  if !l.prbs.lock then s
  else
    let k := max 32 (l.prbsDue s.clk.up / 16)
    (s.setLane n
      { l with prbs := { l.prbs with lock := false, bits := l.prbs.bits + k
                                     errs := l.prbs.errs + 32 + s.free.toNat % (prbsMost (k - 32) + 1), since := s.clk.up } }).drew

def execPrbsChkUnlock (lane : LaneId) (s : State) : Res := .next (s.prbsMiss lane.val)

/-- The link leaves the test state: generators and checkers stop, and the counts keep their values (R111). -/
def State.leaveTest (s : State) (k : Nat) : State :=
  forEach (List.range 4) (fun j s =>
    let n := 4 * k + j
    let l := s.lane n
    if !l.prbs.set.gen && !l.prbs.set.chk then s
    else (s.prbsUnlock n).modLane n fun l =>
      { l with prbs := { l.prbs with set := { l.prbs.set with gen := false, chk := false } } }) s

/-! ### Eye scans (R108, R109, R127) -/

/-- DWELL_LOG, limit, PHASE points and VOFS points of the eye check at a class (Table 5.9). -/
def eyePoints (cls : BitVec 2) : Nat × Nat × (Int × Int) × (Int × Int) :=
  if cls = 0 then (11, 1, (-10, 9), (-10, 10))
  else if cls = 1 then (8, 16, (-6, 6), (-6, 6))
  else (4, 104, (-5, 4), (-4, 4))

/-- Points of a lane's eye check: four of each valid eye, and one eye at G1. -/
def eyeCount (grade : BitVec 2) : Nat := if grade = 0 then 4 else 12

/-- The scan of point `p` of the eye check. -/
def Lane.checkPoint (l : Lane) (cls : BitVec 2) (p : Nat) : Lane :=
  let e := eyePoints cls
  let ph := if p % 4 = 0 then e.2.2.1.1 else if p % 4 = 1 then e.2.2.1.2 else 0
  let vo := if p % 4 = 2 then e.2.2.2.1 else if p % 4 = 3 then e.2.2.2.2 else 0
  { l with eye := { l.eye with busy := true, done := false, invalid := false, moved := false, chk := some p, chkRun := true
                               ran := l.adapt || l.grading, shift := false
                               runEye := if l.grade = 0 then 1 else BitVec.ofNat 2 (p / 4), runDwell := BitVec.ofNat 4 e.1
                               runPhase := BitVec.ofInt 6 ph, runVofs := BitVec.ofInt 8 vo } }

/-- A point of the link's eye check has ended on a lane; the next one starts, whether or not it passed (R127). -/
def State.checkNext (s : State) (n : Nat) (bad : Bool) : State :=
  let k := n / 4
  let c := (s.link k).train.eye
  match (s.lane n).eye.chk with
  | none => s
  | some p =>
    if !(s.lane n).eye.chkRun then s.modLane n fun l => l.checkPoint c.cls p
    else
      let s := s.modLane n fun l => { l with eye := { l.eye with chk := none, chkRun := false } }
      let s := if bad then s.modTrain k fun t => { t with eye := { t.eye with failed := true } } else s
      if p + 1 < eyeCount (s.lane n).grade then s.modLane n fun l => l.checkPoint c.cls (p + 1)
      else s

/-- A scan has ended: DONE, and what waits for it. -/
def State.scanEnd (s : State) (n : Nat) (invalid : Bool) (errs : BitVec 32) (moved : Bool) : State :=
  let l := s.lane n
  let limit := (eyePoints (s.link (n / 4)).train.eye.cls).2.1
  let s := s.setLane n
    { l with eye := { l.eye with busy := false, done := true, invalid := invalid, moved := moved, errs := errs }
             noteEye := [] }
  (s.checkNext n (invalid || decide (limit < errs.toNat))).noteAll l.noteEye

/-- START: a scan at the settings of LANE_EYE_CTL, or DONE and INVALID at once. DESIGN CHOICE (log 129): ERR_CNT keeps its value
there. -/
def State.doScan (s : State) (n : Nat) : State :=
  let l := s.lane n
  let e := l.eye
  if e.busy then s
  else if e.eye = 3 ∨ (l.grade = 0 ∧ e.eye ≠ 1) then s.scanEnd n true e.errs false
  else
    s.setLane n { l with eye := { e with busy := true, done := false, invalid := false, moved := false, runEye := e.eye
                                         runDwell := e.dwell, runPhase := e.phase, runVofs := e.vofs
                                         ran := l.adapt || l.grading, shift := false } }

/-- A write of LANE_EYE_CTL. DESIGN CHOICE (log 129): a START while BUSY is 1 starts nothing, and the settings written with it
stand for the next scan. -/
def State.writeEye (s : State) (n : Nat) (v : Word) : State :=
  let s := s.modLane n fun l =>
    { l with eye := { l.eye with dwell := v.extractLsb' 20 4, eye := v.extractLsb' 18 2, phase := v.extractLsb' 12 6
                                 vofs := v.extractLsb' 0 8 } }
  if bit v 63 then s.doScan n else s

def execEyeScanStart (lane : LaneId) (s : State) : Res :=
  let v := fields [(63, 1, 1)] ||| (s.lane lane.val).eye.ctlWord
  .next (s.mgWrite (laneBase lane.val + 0x30) true v fun s => s.doScan lane.val)

/-- ADAPT_MOVED at the end of a dwell (R109): a coefficient has changed, by what the model has seen or, where adaptation could run in
the dwell, by what the line says. -/
def Eye.movedBy (e : Eye) (line : Bool) : Bool := e.shift || (e.ran && line)

/-- The dwell has ended. -/
def State.scanDone (s : State) (n : Nat) (errs : BitVec 32) (moved : Bool) : State :=
  let e := (s.lane n).eye
  if e.busy then s.scanEnd n false errs (e.movedBy moved) else s

def execEyeScanDone (lane : LaneId) (errs : BitVec 32) (moved : Bool) (s : State) : Res :=
  .next (s.scanDone lane.val errs moved).kick

/-- A scan under way is cut short: its count is what it had come to, at most the symbols of the dwell, which nothing but the line
knows; and so is whether adaptation moved, where it could. -/
def State.scanCut (s : State) (n : Nat) : State :=
  let e := (s.lane n).eye
  if e.busy then
    (s.scanEnd n true (BitVec.ofNat 32 (bits s.free 0 32 % (2 ^ (16 + e.runDwell.toNat) + 1))) (e.movedBy (bit s.free 32))).drew
  else s

/-! ### Clock recovery and adaptation (R105, R106) -/

/-- A lane's clock recovery loses lock: both locks fall, scans and checks of the lane end, its receive crossing goes into reset
on its clocked side with the whole sequence of R82, and lane loss is reported; with every active lane lost, the link has failed (Table 5.3).
DEDUCED (log 145): the transmit crossing, whose word clock is derived from REFCLK, stays. -/
def State.cdrLoss (s : State) (n : Nat) : State :=
  let l := s.lane n
  if !l.cdr then s
  else
    let s := ((s.headSettle n).prbsUnlock n).modLane n fun l => { l with cdr := false, blk := false, train := l.train.unlocked }
    let s := s.scanCut n
    let s := (s.laneLoss n).xingRequest (.laneRx (Fin.ofNat 96 n)) false
    let lanes := (List.range 4).map fun j => s.lane (n / 4 * 4 + j)
    if l.active && lanes.all fun k => !k.active || !k.cdr then s.failLink (n / 4) else s

def execCdrLockLoss (lane : LaneId) (s : State) : Res := .next (s.cdrLoss lane.val).kick

/-- A coefficient of the receiver has changed: of the CTLE, the VGA or the DFE (R105). -/
def tapsMoved (a b : Adapted) : Bool := decide (a.ctle ≠ b.ctle ∨ a.vga ≠ b.vga ∨ a.dfe0 ≠ b.dfe0 ∨ a.dfe1 ≠ b.dfe1)

/-- Adaptation has completed. With ADAPT 0 it runs only for a change of grade, and otherwise holds its values. DESIGN CHOICE
(log 129): FREQ_OFS and SNR take new values with it alone. A coefficient that changes is noted for the scan that runs (R109). -/
def State.adapted (s : State) (n : Nat) (rx : Adapted) : State :=
  s.modLane n fun l =>
    if l.adapt || l.grading then
      { l with adaptDone := true, grading := false, rx := rx, eye := { l.eye with shift := l.eye.shift || tapsMoved l.rx rx } }
    else l

def execAdaptDone (lane : LaneId) (rx : Adapted) (s : State) : Res := .next (s.adapted lane.val rx).kick

/-- A lane moves to a grade (R105, R109, R122): adaptation is still to complete there, a scan is cut short, and the block boundary is
lost, which on an active lane is lane loss (R106). DESIGN CHOICE (log 129): CHK_LOCK falls too. DESIGN CHOICE (log 159): BLOCK_LOCK falls
at once, without 16 invalid headers, and none is counted in HDR_ERR for it. -/
def State.laneGrade (s : State) (n : Nat) (g : BitVec 2) : State :=
  if (s.lane n).grade = g then s
  else
    let lost := (s.lane n).blk
    let s := ((s.headSettle n).prbsUnlock n).modLane n fun l =>
      { l with grade := g, adaptDone := false, grading := true, blk := false, train := l.train.unlocked, hdrFrom := s.clk.up
               align := { l.align with since := s.clk.up } }
    let s := s.scanCut n
    if lost then s.laneLoss n else s

/-- A write of LANE_CTL. A change of polarity on a DATA row breaks block lock (R107). -/
def State.writeLaneCtl (s : State) (n : Nat) (v : Word) : State :=
  let l := s.lane n
  let turned := decide (bit v 6 ≠ l.rxPol ∨ bit v 7 ≠ l.txPol)
  let s := s.setLane n { l with txPol := bit v 7, rxPol := bit v 6, adapt := bit v 5, eye := { l.eye with ran := l.eye.ran || bit v 5 } }
  if turned && decide (s.laneState n = 4) then s.blockLoss n else s

/-! ### FEC (R98 to R101) -/

/-- The corrections of a decoded codeword, by lane of the link, from the lane ranks of each. -/
def laneFixes (ranks r : List Nat) : List Nat :=
  (List.range 4).map fun j => (r.filter fun x => decide (ranks.getD x 4 = j)).length

/-- A received codeword under the class in force: the stream of the link after it, and its corrections by lane, none where it is
uncorrectable (R99, R100). Answers none where the class takes no such codeword. -/
def State.decodeWord (s : State) (k : Nat) (blocks : List (BitVec 66)) (syms : List (BitVec 10)) : Option (Line × Option (List Nat)) :=
  let ranks := laneRanks (s.link k).train.lanes
  let c := s.lines.get {} k
  if (s.link k).fec.cur = 1 ∧ blocks.length = 33 then
    let b := blocks.map bitList
    match f1Decode ranks.length c.rxBlocks b with
    | none => some (c.takeF1 ranks b true, none)
    | some (d, r) => some (c.takeF1 ranks d false, some (laneFixes ranks r))
  else if (s.link k).fec.cur = 2 ∧ syms.length = 544 then
    let v := syms.map BitVec.toNat
    match rsDecode v with
    | none => some (c.takeF2 ranks (v.take 514) true, none)
    | some (d, p) => some (c.takeF2 ranks (d.take 514) false, some (laneFixes ranks (p.map fun i => (c.rxSyms + i) % ranks.length)))
  else none

/-- The stream of a link after a codeword; the invalid sync headers of its blocks count on their lanes (Table 4.18). DEDUCED (log 158):
the header of an F1 parity block is none of them. -/
def State.takeLine (s : State) (k : Nat) (c : Line) : State :=
  let ranks := laneRanks (s.link k).train.lanes
  let from_ := (s.lines.get {} k).rxBlocks
  let bad := fun j => (c.got.zipIdx.filter fun e => !headOk e.1.head && decide (stripeLane ranks (from_ + e.2) = j)).length
  forEach ranks (fun j s => s.headerMore (4 * k + j) (bad j)) { s with lines := s.lines.put {} k c }

/-- The outcome of one codeword (R101), `fixes` the corrections by lane, none where it is uncorrectable. -/
def State.codeword (s : State) (k : Nat) : Option (List Nat) → State
  | none =>
    let run := (s.link k).fec.run
    let s := s.modLink k fun l => { l with fec := { l.fec with uncorr := satAdd l.fec.uncorr 1, run := (l.fec.run + 1) % 8 } }
    if run = 7 then s.failLink k else s
  | some fixes =>
    let f := (fixes.take 4).zipIdx.filter fun e => decide (e.1 ≠ 0)
    let s := s.modLink k fun l =>
      { l with fec := { l.fec with run := 0, corr := if f = [] then l.fec.corr else satAdd l.fec.corr 1 } }
    forEach f (fun e s =>
      ((s.crossKey (4 * k + e.2) .fecFix e.1).modLane (4 * k + e.2) fun l => { l with fecFix := satAdd l.fecFix e.1 }).count 2 0 (4 * k + e.2) none e.1) s

/-- A codeword is received, in the order of the link's stream: 33 blocks under F1, 544 symbols under F2. None comes through receive
crossings in reset (R82). -/
def State.codewordRx (s : State) (k : Nat) (blocks : List (BitVec 66)) (syms : List (BitVec 10)) : State :=
  if s.carriesFrames k = false ∨ s.linkCut false k = true then s
  else
    match s.decodeWord k blocks syms with
    | none => s
    | some (c, fixes) => (s.takeLine k c).codeword k fixes

def execFecCodewordRx (link : LinkId) (blocks : List (BitVec 66)) (symbols : List (BitVec 10)) (s : State) : Res :=
  .next (s.codewordRx link.val blocks symbols).kick

end Sys2Proof.Machine
end

