-- ==== Sys2Proof/Machine/Train.lean ====
section
/-! DEFINITION. Training of a link (chapter 5): the training block, the conditions and actions of a table row, the row a link
stands on, and the commands of LNK_TRAIN_CTL. -/

namespace Sys2Proof.Machine

def linkBase (k : Nat) : Nat := 0x100000 + 0x8000 * k

/-! ### The table of a link (R118, R119) -/

/-- Row `r` of the table a link runs. -/
def State.trainRow (s : State) (k r : Nat) : Word := (s.link k).train.tbl.get (tableReset 1 (8 * r)) (8 * r)

/-- The rows a link stands on: its lead row and the ALT rows after it. -/
def State.standsOn (s : State) (k : Nat) : List Nat :=
  let r := (s.link k).train.row.toNat
  r :: altRows (s.trainRow k) 255 (r + 1)

/-- A lead row's timeout in units of 0.2 ns, 0 for none. -/
def rowTimeout (w : Word) : Nat := us5 (rowCount w * 10 ^ rowUnit w)

/-! ### Lanes of a link as training sees them -/

/-- The lane of rank `j`. -/
def State.rank (s : State) (k j : Nat) : Lane := s.lane (4 * k + j)

/-- Ranks of a link that satisfy `f`. -/
def State.ranks (s : State) (k : Nat) (f : Lane → Bool) : List Nat := (List.range 4).filter fun j => f (s.rank k j)

/-- The fields of the far end's training blocks. DESIGN CHOICE (log 161): where the lanes' last blocks differ, those of the lowest
block-locked rank that has received one, whichever came last. -/
def State.farBlock (s : State) (k : Nat) : TrainRx :=
  match s.ranks k fun l => l.blk && decide (0 < l.train.ts) with
  | j :: _ => (s.rank k j).train
  | [] => {}

/-- TS_OK: every block-locked lane has received eight consecutive valid blocks with its own RANK and one common LINK. -/
def State.tsOk (s : State) (k : Nat) : Bool :=
  match s.ranks k fun l => l.blk with
  | [] => false
  | j :: js => (j :: js).all fun i => decide (8 ≤ (s.rank k i).train.run ∧ (s.rank k i).train.link = (s.rank k j).train.link)

/-- RX_INV: some locked lane has received eight consecutive complemented blocks. -/
def Lane.rxInv (l : Lane) : Bool := l.blk && decide (8 ≤ l.train.inv)

/-- ORDER_BAD: a RANK other than the lane's own, or two LINK values. -/
def State.orderBad (s : State) (k : Nat) : Bool :=
  let l := s.ranks k fun l => l.blk && decide (0 < l.train.ts)
  l.any fun j => decide ((s.rank k j).train.rank.toNat ≠ j) ||
    l.any fun i => decide ((s.rank k i).train.link ≠ (s.rank k j).train.link)

/-- The agreed lane set (R124). -/
def State.agreed (s : State) (k : Nat) : List Nat :=
  (List.range 4).filter fun j => (s.rank k j).blk && bit (s.farBlock k).locked j

/-- The grade this end offers (R120): the plan entry's limit as taken at row 0, GRADE_CAP and the cap. -/
def Train.offer (t : Train) : Nat := min (min (t.plan.elim 3 fun p => p.1.toNat) t.gradeCap.toNat) t.cap.toNat

/-- The smallest width that will do, in lanes. -/
def Train.minLanes (t : Train) : Nat := 2 + t.plan.elim 0 fun p => p.2.toNat

/-! ### The training block (Table 5.5, R492) -/

/-- The training block a lane of rank `j` sends, with STEP_CNT `cnt`. -/
def State.trainBlock (s : State) (k j : Nat) (cnt : Nat) : Word :=
  let t := (s.link k).train
  let l := s.rank k j
  sealBlock (fields [(46, 1, b2n l.eq.acted), (44, 2, l.eq.myStat.toNat), (43, 1, b2n l.eq.tgl), (40, 3, l.eq.out.toNat),
    (38, 2, (t.stepTo.getD 0).toNat), (32, 6, cnt), (28, 4, ((s.ranks k fun l => l.blk).map fun i => 2 ^ i).sum),
    (26, 2, (s.link k).fec.req.toNat), (24, 2, t.offer), (16, 8, t.mark.toNat), (15, 1, b2n (s.tsOk k)), (10, 5, k),
    (8, 2, j), (0, 8, 0x2D)])

/-- Blocks of a lane's own leave it: once the lane clocks run (R422), outside the safe state, whose links send FATAL and IDLE blocks
only, with its transmit crossing out of reset (R82), and unless its PRBS generator replaces them (R110). -/
def State.laneSends (s : State) (n : Nat) : Bool :=
  s.laneClocks && !s.fc.safe && !s.laneCut true n && !(s.lane n).prbs.set.gen

/-- A lane sends training blocks: on TRAINING, TEST, ABSENT and FAILED rows, and outside the lane set on every row that carries frames
(Table 5.1, R124). -/
def State.sendsTrain (s : State) (n : Nat) : Bool :=
  let st := s.laneState n
  (decide (st = 1 ∨ st = 2 ∨ st = 6 ∨ st = 7) ||
    (s.carriesFrames (n / 4) && !bit (s.link (n / 4)).train.lanes (n % 4))) && s.laneSends n

/-- Training blocks leave on the lanes of a link that satisfy `f`. -/
def State.sendTrain (s : State) (k cnt : Nat) (f : Nat → Bool) : State :=
  s.emits (((List.range 4).filter fun j => f (4 * k + j)).map fun j => .train (4 * k + j) (s.trainBlock k j cnt))

/-! ### Conditions (Table 5.3) -/

/-- MATCH (R133, R396): the far end of this session is the one the verdict names, its key is proven, and keys are in force
where they are required or installed. -/
def State.matched (s : State) (k : Nat) : Bool :=
  let l := s.link k
  !s.unused k && decide (l.guest.verdict = .match_ ∨ l.guest.verdict = .admitted) && l.guest.heard && l.sec.proven &&
    (!((s.planLink k).any fun e => e.enc) || l.sec.keyed) && (!l.sec.keyed || l.sec.txOn)

/-- A condition holds on link `k`; `arg` is ARG[15:8] of its row. The two that lead into DATA hold on no UNUSED link (Table 6.4). -/
def State.condHolds (s : State) (k cond arg : Nat) : Bool :=
  let l := s.link k
  let t := l.train
  let far := s.farBlock k
  match cond with
  | 0x00 => true
  | 0x01 => decide (2 ≤ (s.ranks k fun l => l.cdr).length)
  | 0x02 => t.pass
  | 0x03 => t.failp
  | 0x04 => s.tsOk k
  | 0x05 => decide (s.ranks k Lane.rxInv ≠ [])
  | 0x06 => s.orderBad k
  | 0x07 => decide (far.mark = t.mark ∧ t.mark ≠ 0) && far.ack
  | 0x08 => decide (far.mark.toNat = arg ∧ arg ≠ 0)
  | 0x09 => decide (max 2 t.minLanes ≤ (s.agreed k).length)
  | 0x0A => decide (arg % 4 ≤ min t.offer far.grade.toNat)
  | 0x0B => t.stepDone
  | 0x0C => t.eye.pass
  | 0x0D => t.eye.fail
  | 0x0E => decide (t.retry.toNat < arg % 4)
  | 0x0F => s.matched k
  | 0x10 => l.guest.verdict.quarantine && (l.guest.heard || decide (l.guest.verdict = .qHostile))
  | 0x11 => t.loss
  | 0x12 => t.fail
  | 0x13 => s.carriesFrames k && decide ((s.ranks k fun l => l.active && decide (4 ≤ l.train.seen)) ≠ [])
  | 0x14 => t.retrain
  | 0x15 => t.test
  | 0x16 => t.admitNow && !s.unused k
  | _ => false

/-- The arrival of a lane's bits, in bits, as the wires give it: a free value. -/
def State.arrivalOf (s : State) (j : Nat) : Nat := bits s.free (16 * j) 16

/-- The skew of a lane of the agreed set against the earliest one. -/
def State.skewOf (s : State) (k j : Nat) : Nat := s.arrivalOf j - ((s.agreed k).map s.arrivalOf).foldl min 65535

/-- The agreed set can be deskewed: no two of its lanes are more than 528 bits apart (R94). -/
def State.deskews (s : State) (k : Nat) : Bool := (s.agreed k).all fun j => decide (s.skewOf k j ≤ 528)

/-- The first row a link stands on whose condition holds. A WIDTH row fails, as if its condition did not hold, where deskew
fails (R94). -/
def State.satisfied (s : State) (k : Nat) : Option Nat :=
  (s.standsOn k).find? fun r =>
    let w := s.trainRow k r
    s.condHolds k (rowCond w) (rowArg w / 256) && (decide (rowAction w ≠ 4) || s.deskews k)

/-- What a condition that is written or reported once leaves behind when a row acts on it. -/
def Train.acted (t : Train) (cond : Nat) : Train :=
  match cond with
  | 0x11 => { t with loss := false }
  | 0x12 => { t with fail := false }
  | 0x14 => { t with retrain := false }
  | 0x16 => { t with admitNow := false }
  | _ => t

/-! ### Entering rows (R115 to R119) -/

/-- R117: G1 and no lane set, FEC off, and the transmit coefficients of LANE_TXEQ. -/
def State.freshLanes (s : State) (k : Nat) : State :=
  let s := forEach (List.range 4) (fun j s =>
    (s.modLane (4 * k + j) fun l =>
      { l with active := false, skew := 0, cur := if l.staged.ok then l.staged else l.cur }).laneGrade (4 * k + j) 0) s
  s.modLink k fun l => { l with fec := { l.fec with cur := 0 }, train := { l.train with grade := 0, lanes := 0 } }

/-- The credit counts of a link start at zero at UP (R170): what is still held from before counts against SHARED, and the
set of CRED_INIT is due. -/
def State.freshCredits (s : State) (k : Nat) : State :=
  s.modLL k fun l =>
    let carry := l.carry + ((List.range 32).map fun p => (l.pools.get {} p).occ).sum
    { l with ses := l.ses + 1, carry := carry, sharedLocal := 2560 - carry, pools := [], sharedFar := 0, crRot := 0
             credInit := if carry ≤ 2560 then List.range 32 else [], credInitAt := s.clk.core }

/-- A new session of the link layer (R116, R164): the sequence numbers restart; the credit counts stay as UP began them (R170). -/
def State.newSession (s : State) (k : Nat) : State :=
  s.modLL k fun l =>
    { arrived := l.arrived, pools := l.pools, sharedFar := l.sharedFar, crRot := l.crRot, ses := l.ses, carry := l.carry
      sharedLocal := l.sharedLocal, credInit := l.credInit, credInitAt := l.credInitAt
      farFatal := l.farFatal, paceDue := l.paceDue, paceLocal := l.paceLocal, paceFar := l.paceFar, fall := l.fall
      fallTo := l.fallTo, cnt := l.cnt }

/-- GBL_RESET_STAT.LINK_BUSY of a link (Table 2.16): from its reset, or from the rows that carry frames, until it stands on
a row that is not TRAINING. -/
def State.busyLink (s : State) (k : Nat) (b : Bool) : State :=
  let m : BitVec 24 := BitVec.ofNat 24 (2 ^ k)
  { s with boot := { s.boot with linkBusy := if b then s.boot.linkBusy ||| m else s.boot.linkBusy &&& ~~~m } }

/-- A link enters row `r` as its lead row. FEC is off on every row that does not carry frames (R101); a session begins at each
entry to DISCOVERY (R116, R164). -/
def State.enterRow (s : State) (k r : Nat) : State :=
  let old := (s.link k).train.state.toNat
  let s :=
    if r = 0 then
      s.modTrain k fun t =>
        { t with tbl := s.tables.train, plan := (s.planEntry k).map fun e => (e.gradeMax, e.minWidth), loss := false
                 fail := false, admitNow := false, retrain := false, stepTo := none, stepDone := false }
    else s
  let st := rowState (s.trainRow k r)
  let s := s.modTrain k fun t =>
    { t with row := BitVec.ofNat 8 r, state := BitVec.ofNat 4 st, entered := s.clk.act
             mark := if st = 0 ∨ st = 7 then 0 else t.mark
             upCount := if st = 4 ∧ old ≠ 4 then satAdd t.upCount 1 else t.upCount }
  let s := s.busyLink k (decide (st = 1) && (bit s.boot.linkBusy k || decide (old = 3 ∨ old = 4 ∨ old = 5)))
  let s := forEach (List.range 4) (fun j s => s.modLane (4 * k + j) fun l =>
    { l with idle := decide (st = 0), eq := { l.eq with myStat := if st = 1 ∧ old = 1 then l.eq.myStat else 0 } }) s
  let s := if st = 3 ∨ st = 4 ∨ st = 5 then s
    else s.modLink k fun l => { l with fec := { l.fec with cur := 0, run := 0 } }
  let s := if r = 0 ∨ st = 6 then s.freshLanes k else s
  let s := if old = 2 ∧ st ≠ 2 then s.leaveTest k else s
  let s := if (old = 3 ∨ old = 4 ∨ old = 5) ∧ ¬(st = 3 ∨ st = 4 ∨ st = 5) then s.endInject k else s
  let s := if old = 4 ∧ st ≠ 4 then s.leaveSet k else s
  let s := if st = 3 ∧ old ≠ 3 then s.newSession k else s
  let s :=
    if st = 6 then
      let s := s.modLink k fun l =>
        { l with guest := { l.guest with verdict := if l.guest.verdict = .qHostile then .qHostile else .absent } }
      if (s.planLink k).isSome then s.raise srcAbsent else s
    else s
  if st = 7 then s.raise srcLinkFailed else s

/-- The row a link enters when it fails at UP: the first lead row whose STATE is FAILED (R124). -/
def State.failedRow (s : State) (k : Nat) : Option Nat :=
  (List.range 256).find? fun r => decide (rowState (s.trainRow k r) = 7) && !rowAlt (s.trainRow k r)

/-! ### UP (R101, R124, R132, R398) -/

/-- The HELLO this end sends (Table 5.19). -/
def State.helloBytes (s : State) (k : Nat) (ack : Bool) : Bytes :=
  let cls := ((s.planLink k).map fun e => e.cls.toNat).getD 0
  leBytes 8 (fields [(56, 8, 1), (54, 2, 1), (43, 11, s.chip.toNat), (36, 7, k), (33, 3, cls),
      (30, 3, b2n s.fuses.bench), (29, 1, b2n ack)]).toNat ++
    leBytes 8 (fields [(48, 16, s.plan.rack.toNat), (0, 32, s.plan.serial.toNat)]).toNat ++
    leBytes 48 s.passport.toNat ++ leBytes 48 s.plan.dig.toNat

/-- A link-local packet of this chip on link `k` (R176). -/
def State.sendLocal (s : State) (k : Nat) (op : BitVec 8) (data : Bytes) : State :=
  s.enqueue k { pkt := { op := op, ptag := s.p0Tag, src := s.chip, len := BitVec.ofNat 8 data.length, data := data } }

/-- A HELLO leaves; with ACK once one has been heard. -/
def State.sendHello (s : State) (k : Nat) : State :=
  let g := (s.link k).guest
  let s := s.modLink k fun l =>
    { l with guest := { l.guest with txAck := l.guest.txAck || g.heard, sending := !(l.guest.rxAck && g.heard) } }
  s.sendLocal k 0x20 (s.helloBytes k g.heard)

/-- Codeword 0 of a link's stream starts with its next block (R101): the scramblers go on, and what the lanes received before is the
line's. DESIGN CHOICE (log 158): the blocks of the stream are counted from here, under F0 too. -/
def State.startLine (s : State) (k : Nat) : State :=
  let old := s.lines.get {} k
  let lanes := (List.range 4).foldl (fun t j => t.put {} j { old.lane j with rx := Config.rxTail (4 * k + j) s.clk.up }) old.lanes
  { s with lines := s.lines.put {} k { lanes := lanes } }

/-- The UP action; the far end's FEC agrees with this end's CLASS_REQ. The credit counts start at zero and the set of CRED_INIT is due
(R170). Installed keys stay, the far CONFIRM verified or not, and start a new epoch (R396, R398); an exchange that has not ended is
given up, with the link-local packets that wait. -/
def State.doUp (s : State) (k : Nat) : State :=
  let s := s.modLink k fun l =>
    let c := l.sec
    let c := { (if c.keyed then c.txAdvance else c) with prev := {}, kex := {} }
    { l with
      outq := l.outq.filter fun o => !o.pkt.linkLocal
      fec := { l.fec with cur := l.fec.req, run := 0 }
      guest := { l.guest with heard := false, rxAck := false, txAck := false, sending := true, due := s.clk.act }
      att := { farKey := l.att.farKey }
      sec := c
      train := { l.train with loss := false, fail := false, admitNow := false } }
  let s := forEach (List.range 4) (fun j s =>
    s.modLane (4 * k + j) fun l => { l with train := l.train.unlocked }) s
  ((s.startLine k).freshCredits k).sendHello k

/-! ### Actions (Table 5.4) -/

/-- WIDTH: the agreed set becomes the active set, each lane with its skew. DESIGN CHOICE (log 159): the skew is measured here alone, and its
number of bits stands through a later STEP or SLIP. -/
def State.doWidth (s : State) (k : Nat) : State :=
  let set := s.agreed k
  let skews := s
  let s := forEach (List.range 4) (fun j s =>
    s.modLane (4 * k + j) fun l =>
      { l with active := set.contains j, skew := if set.contains j then BitVec.ofNat 10 (skews.skewOf k j) else 0 }) s
  s.drew.modTrain k fun t => { t with lanes := BitVec.ofNat 4 (set.map fun j => 2 ^ j).sum, loss := false }

/-- STEP to grade `g` (R122): 32 blocks count down on every lane, whatever the row, and the transmitter goes to the new grade. -/
def State.doStep (s : State) (k : Nat) (g : BitVec 2) : State :=
  let s := s.modTrain k fun t => { t with stepTo := some g, stepDone := false }
  let s := forEach (List.range 32) (fun i s => s.sendTrain k (31 - i) s.laneSends) s
  s.modTrain k fun t => { t with grade := g }

/-- EYE: the check starts on every active lane; a scan that is running there ends first (R127). -/
def State.doEye (s : State) (k : Nat) : State :=
  let cls := (s.link k).fec.req
  let s := s.modTrain k fun t => { t with eye := { running := true, cls := cls } }
  forEach (s.ranks k fun l => l.active) (fun j s =>
    s.modLane (4 * k + j) fun l =>
      if l.eye.busy then { l with eye := { l.eye with chk := some 0, chkRun := false } } else l.checkPoint cls 0) s

/-- A row's action but UP. FLIP on a DATA row breaks block lock, as any change of polarity there does (R107). -/
def State.doAction (s : State) (k action arg : Nat) : State :=
  let a := arg % 256
  match action with
  | 1 => (s.modTrain k fun t => { t with mark := BitVec.ofNat 8 a }) |> fun s => s.sendTrain k 63 s.sendsTrain
  | 2 => (s.modTrain k fun t => { t with pass := false, failp := false }).restartQueue ((arg % 8192 + k) % 8192)
  | 3 =>
    forEach (s.ranks k Lane.rxInv) (fun j s =>
      let s := s.modLane (4 * k + j) fun l => { l with rxPol := !l.rxPol, train := l.train.unlocked }
      if s.laneState (4 * k + j) = 4 then s.blockLoss (4 * k + j) else s) s
  | 4 => s.doWidth k
  | 5 => s.doStep k (BitVec.ofNat 2 a)
  | 6 => s.modTrain k fun t => { t with retry := satAdd t.retry 1 }
  | 7 => s.modTrain k fun t => { t with retry := 0 }
  | 8 => s.doEye k
  | 10 => s.modTrain k fun t => { t with cap := BitVec.ofNat 2 a }
  | 11 => s.modTrain k fun t => { t with cause := BitVec.ofNat 4 a }
  | _ => s

/-- A satisfied row acts, and the link enters its NEXT. UP with another FEC class at the far end, by its last training block, is not
performed: CAUSE 5, and the FAILED row (R124). DESIGN CHOICE (log 145): under a table without a FAILED lead row the link stays on its
row. -/
def State.actRow (s : State) (k r : Nat) : State :=
  let w := s.trainRow k r
  let s := s.modTrain k fun t => t.acted (rowCond w)
  let s := if rowAction w ≠ 4 && (s.standsOn k).any fun i => decide (rowAction (s.trainRow k i) = 4) then s.drew else s
  if rowAction w ≠ 9 then (s.doAction k (rowAction w) (rowArg w)).enterRow k (rowNext w)
  else if (s.link k).train.farFec = (s.link k).fec.req then (s.doUp k).enterRow k (rowNext w)
  else
    let s := s.modTrain k fun t => { t with cause := 5 }
    match s.failedRow k with
    | some f => s.enterRow k f
    | none => s

/-- Training moves on only while the core runs and no hold is in force (R88, R136). -/
def State.trains (s : State) (k : Nat) : Bool := s.admits && (s.link k).train.enable

/-- One step of a link: the first satisfied row acts. -/
def State.trainStep (s : State) (k : Nat) : State :=
  if !s.trains k then s
  else
    match s.satisfied k with
    | some r => s.actRow k r
    | none => s

def execTrainRowAction (link : LinkId) (s : State) : Res := .next (s.trainStep link.val).kick

/-- The lead row's timeout has expired: TMO_NEXT, with no action. -/
def State.trainTimeout (s : State) (k : Nat) : State :=
  let t := (s.link k).train
  let w := s.trainRow k t.row.toNat
  if !s.trains k || decide (rowCount w = 0) || decide (s.clk.act < t.entered + rowTimeout w) then s
  else
    match s.satisfied k with
    | some r => s.actRow k r
    | none => s.enterRow k (rowTmoNext w)

def execTrainRowTimeout (link : LinkId) (dt : Nat) (s : State) : Res := .next ((s.passNs dt).trainTimeout link.val).kick

/-! ### The eye check and the step end (R122, R127) -/

/-- Every scan of the eye check has ended. -/
def State.eyeCheckEnd (s : State) (k : Nat) : State :=
  let c := (s.link k).train.eye
  if c.running && (s.ranks k fun l => l.active && l.eye.chk.isSome) = [] then
    s.modTrain k fun t => { t with eye := { t.eye with running := false, pass := !c.failed, fail := c.failed } }
  else s

def execEyeCheckDone (link : LinkId) (s : State) : Res := .next (s.eyeCheckEnd link.val).kick

/-- Every active lane stands at the new grade with clock and adaptation. -/
def State.stepEnd (s : State) (k : Nat) : State :=
  let t := (s.link k).train
  match t.stepTo with
  | some g =>
    if (s.ranks k fun l => l.active && !(decide (l.grade = g) && l.cdr && l.adaptDone)) = [] then
      s.modTrain k fun t => { t with stepTo := none, stepDone := true }
    else s
  | none => s

def execStepped (link : LinkId) (s : State) : Res := .next (s.stepEnd link.val).kick

/-! ### Training blocks received (R121 to R123) -/

/-- A valid training block. -/
def trainValid (w : Word) : Bool :=
  decide (bits w 0 8 = 0x2D ∧ bits w 47 9 = 0) && decide (w.extractLsb' 56 8 = crc8 w)

/-- A coefficient moved by one; none outside 0 to 63. -/
def coefStep (x : BitVec 6) (up : Bool) : Option (BitVec 6) :=
  if up then (if x = 63 then none else some (x + 1)) else if x = 0 then none else some (x - 1)

/-- The coefficients a request asks for (Table 5.6). -/
def Fir.request (f : Fir) (req : BitVec 3) : Option Fir :=
  match req.toNat with
  | 1 => (coefStep f.pre true).map fun x => { f with pre := x }
  | 2 => (coefStep f.pre false).map fun x => { f with pre := x }
  | 3 => (coefStep f.post true).map fun x => { f with post := x }
  | 4 => (coefStep f.post false).map fun x => { f with post := x }
  | 5 => (coefStep f.main true).map fun x => { f with main := x }
  | 6 => (coefStep f.main false).map fun x => { f with main := x }
  | 7 => some {}
  | _ => some f

/-- The far end's equaliser request (R123), acted on only on a TRAINING row; ERR follows R103. -/
def Lane.takeEq (l : Lane) (training : Bool) (w : Word) : Lane :=
  let tgl := bit w 43
  let req : BitVec 3 := w.extractLsb' 40 3
  let e : EqReq := { l.eq with stat := w.extractLsb' 44 2, echo := bit w 46, seen := tgl }
  if tgl = l.eq.seen ∨ training = false ∨ req = 0 then { l with eq := e }
  else
    match (l.cur.request req).filter Fir.ok with
    | some f => { l with eq := { e with acted := tgl, myStat := 1 }, cur := f, staged := f, firErr := false }
    | none => { l with eq := { e with acted := tgl, myStat := 2 }, staged := l.cur, firErr := true }

/-- The fields of a valid block are taken. -/
def Lane.takeTrain (l : Lane) (j : Nat) (w : Word) : Lane :=
  let t := l.train
  let rank : BitVec 2 := w.extractLsb' 8 2
  let link : BitVec 5 := w.extractLsb' 10 5
  let own := decide (rank.toNat = j)
  { l with train :=
      { mark := w.extractLsb' 16 8, ack := bit w 15, locked := w.extractLsb' 28 4, grade := w.extractLsb' 24 2
        fec := w.extractLsb' 26 2, link := link, rank := rank, stepGrade := w.extractLsb' 38 2
        stepCnt := w.extractLsb' 32 6, inv := 0, ts := t.ts + 1, seen := t.seen
        run := if !own then 0 else if decide (link = t.link) then t.run + 1 else 1 } }

/-- Count 0 of a step on an active lane moves the receiver to its grade, whatever row the link stands on (R122). -/
def State.stepRx (s : State) (n : Nat) (w : Word) : State :=
  if (s.lane n).active && decide (bits w 32 6 = 0) then
    forEach (List.range 4) (fun j s => s.laneGrade (4 * (n / 4) + j) (w.extractLsb' 38 2)) s
  else s

/-- A training block seen while the link carries frames: it counts towards TS_SEEN, and its fields stay as the far end's last, which
FAR_MARK looks at on the row that TS_SEEN leads to (R124); it adds nothing to TS_OK's run. -/
def Lane.seeTrain (l : Lane) (j : Nat) (w : Word) : Lane :=
  { l with train := { (l.takeTrain j w).train with run := 0, seen := l.train.seen + 1 } }

/-- A training block arrives on lane `n` of a link that carries frames: a valid one counts towards TS_SEEN and in nothing else
(R159). A complemented one is a data block outside a frame (R158). DESIGN CHOICE (log 145): but STEP_CNT 0 moves the grade here too,
by R122. -/
def State.trainSeen (s : State) (n : Nat) (inv : Bool) (w : Word) : State :=
  if inv || !trainValid w then (s.modLane n fun l => { l with train := { l.train with seen := 0 } }).ctlMalf (n / 4)
  else (s.modLane n fun l => l.seeTrain (n % 4) w).stepRx n w

/-- A training block arrives on lane `n`: header 0b10, or 0b01 for an inverted pair. None passes a receive crossing in reset
(R82). -/
def State.trainRx (s : State) (n : Nat) (inv : Bool) (w : Word) : State :=
  let k := n / 4
  let st := (s.link k).train.state.toNat
  if st = 0 ∨ (s.lane n).blk = false ∨ s.laneCut false n = true then s
  else if s.carriesFrames k then s.trainSeen n inv w
  else if inv then
    if trainValid (~~~w) then
      s.modLane n fun l => { l with train := { l.train with inv := l.train.inv + 1, run := 0, ts := 0 } }
    else s.modLane n fun l => { l with train := { l.train with inv := 0, run := 0, ts := 0 } }
  else if !trainValid w then
    s.modLane n fun l => { l with train := { l.train with inv := 0, run := 0, ts := 0 } }
  else
    let s := s.modTrain k fun t => { t with farFec := w.extractLsb' 26 2 }
    (s.modLane n fun l => (l.takeTrain (n % 4) w).takeEq (decide (st = 1)) w).stepRx n w

def execTrainingBlockRx (lane : LaneId) (complemented : Bool) (w : BitVec 64) (s : State) : Res :=
  .next (s.trainRx lane.val complemented w).kick

/-- A write of LANE_EQ_REQ. SEND puts REQ into the lane's training blocks, which leave while the lane sends any. -/
def State.writeEqReq (s : State) (n : Nat) (v : Word) : State :=
  let s := s.modLane n fun l => { l with eq := { l.eq with req := v.extractLsb' 0 3 } }
  if !bit v 63 then s
  else
    let s := s.modLane n fun l => { l with eq := { l.eq with tgl := !l.eq.tgl, out := v.extractLsb' 0 3 } }
    if s.sendsTrain n then s.emit (.train n (s.trainBlock (n / 4) (n % 4) 63)) else s

def execEqReqSend (lane : LaneId) (req : BitVec 3) (s : State) : Res :=
  let v := fields [(63, 1, 1), (0, 3, req.toNat)]
  .next (s.mgWrite (laneBase lane.val + 0x60) true v fun s => s.writeEqReq lane.val v)

/-! ### LNK_TRAIN_CTL (Table 5.12) -/

/-- The RW fields of LNK_TRAIN_CTL. -/
def Train.ctlWord (t : Train) : Word :=
  fields [(63, 1, b2n t.enable), (60, 1, b2n t.test), (58, 2, t.gradeCap.toNat)]

/-- LNK_TRAIN_STAT. -/
def Train.statWord (t : Train) : Word :=
  fields [(56, 8, t.row.toNat), (52, 4, t.state.toNat), (48, 4, t.cause.toNat), (46, 2, t.grade.toNat),
    (44, 2, t.width - 1), (40, 4, t.lanes.toNat), (38, 2, t.cap.toNat), (36, 2, t.retry.toNat), (35, 1, b2n t.admitRej),
    (0, 32, t.upCount.toNat)]

/-- ENABLE from 0 to 1, which a link with an UNUSED entry does not take (Table 6.4, log 130): the retry counter and the cap are cleared, and the link enters row 0. -/
def State.enableLink (s : State) (k : Nat) : State :=
  if s.barred k then s else
  let s := s.modTrain k fun t => { t with enable := true }
  if s.fc.safe then s else (s.modTrain k fun t => { t with retry := 0, cap := 3 }).enterRow k 0

/-- ENABLE from 1 to 0: DOWN at once. DESIGN CHOICE (log 145): CLASS_CUR keeps the class it had until row 0 is entered. -/
def State.downLink (s : State) (k : Nat) : State :=
  let old := (s.link k).train.state.toNat
  let s := s.modTrain k fun t =>
    { t with enable := false, row := 0, state := 0, mark := 0, lanes := 0, loss := false, fail := false, admitNow := false
             retrain := false, stepTo := none, stepDone := false }
  let s := forEach (List.range 4) (fun j s =>
    s.modLane (4 * k + j) fun l => { l with idle := true, active := false, skew := 0, eq := { l.eq with myStat := 0 } }) s
  let s := s.busyLink k false
  let s := if old = 2 then s.leaveTest k else s
  let s := s.endInject k
  if old = 4 then s.leaveSet k else s

/-- ADMIT (R135). -/
def State.admitLink (s : State) (k : Nat) : State :=
  s.modLink k fun l =>
    if l.guest.verdict = .qUnexpected ∨ l.guest.verdict = .qWrongPeer then
      { l with guest := { l.guest with verdict := .admitted }, train := { l.train with admitNow := true, admitRej := false } }
    else { l with train := { l.train with admitRej := true } }

/-- A write of LNK_TRAIN_CTL. DESIGN CHOICE (log 161): its fields act in the order TEST and GRADE_CAP, ENABLE, RETRAIN, ADMIT, so that a
RETRAIN written with ENABLE stays held once row 0 is entered. -/
def State.writeTrainCtl (s : State) (k : Nat) (v : Word) : State :=
  let t := (s.link k).train
  let s := s.modTrain k fun t => { t with test := bit v 60, gradeCap := v.extractLsb' 58 2 }
  let s :=
    if bit v 63 && !t.enable then s.enableLink k
    else if !bit v 63 && t.enable then (if s.fc.safe then s.modTrain k fun t => { t with enable := false } else s.downLink k)
    else s
  let s := if bit v 62 then s.modTrain k fun t => { t with retrain := true } else s
  if bit v 61 then s.admitLink k else s

/-- A write of LNK_TRAIN_CTL that changes only what `f` changes of its present value. -/
def State.trainCtlRow (s : State) (k : Nat) (f : Word → Word) : State :=
  let v := f (s.link k).train.ctlWord
  s.mgWrite (linkBase k + 0x100) true v fun s => s.writeTrainCtl k v

def execEnable (link : LinkId) (s : State) : Res := .next (s.trainCtlRow link.val fun v => setBits v 63 1 1)
def execLinkDisable (link : LinkId) (s : State) : Res := .next (s.trainCtlRow link.val fun v => setBits v 63 1 0)
def execRetrain (link : LinkId) (s : State) : Res := .next (s.trainCtlRow link.val fun v => setBits v 62 1 1)
def execAdmit (link : LinkId) (s : State) : Res := .next (s.trainCtlRow link.val fun v => setBits v 61 1 1)
def execTest (link : LinkId) (on : Bool) (s : State) : Res :=
  .next (s.trainCtlRow link.val fun v => setBits v 60 1 (b2n on))

end Sys2Proof.Machine
end

