-- ==== Sys2Proof/Machine/BootRows.lean ====
section
/-! DEFINITION. The commands of resets and boot (chapter 2): cold, warm and software resets (R57 to R62), and the stages of
the boot (R58). -/

namespace Sys2Proof.Machine

def execColdReset (testmode : Bool) (s : State) : Res := .next (s.coldReset testmode)
def execWarmReset (s : State) : Res := .next (s.warmReset 1)

/-- BLOCK_RST: the response, and then the reset. -/
def State.blockRst (s : State) : State :=
  s.mgBeat fun s =>
  if !s.mgmtOpen then s.mgReply 0 mgBooting else s.oweReset.mgReply 0 mgOk

def execBlockRst (s : State) : Res := .next s.blockRst

/-! ### Links (R113, R129, R191) -/

/-- CLASS_REQ after a link reset: the plan entry's class, or as it was with no plan in force. DESIGN CHOICE (log 60): as it was also
where the plan in force has no entry for the link. -/
def State.classAfter (s : State) (k : Nat) : BitVec 2 :=
  match s.planEntry k with
  | some e => e.fec
  | none => (s.link k).fec.req

/-- A link reset. What the link held unacknowledged goes out on other paths; what it has received stays and counts as held
from an earlier session. -/
def State.linkReset (s : State) (k : Nat) : State :=
  let old := s.link k
  let s := s.modTrain k fun t => { enable := t.enable, test := t.test, gradeCap := t.gradeCap }
  let s := s.busyLink k false
  let s := if old.train.state = 2 then s.leaveTest k else s
  let s := (s.endInject k).leaveSet k
  let req := s.classAfter k
  let s := s.modLink k fun l =>
    { l with
      fec := { req := req }
      guest := {}
      sec := {}
      att := {}
      ll := { ses := l.ll.ses + 1, carry := l.ll.carry + ((List.range 32).map fun p => (l.ll.pools.get {} p).occ).sum } }
  let s := forEach (List.range 4) (fun j s =>
    s.modLane (4 * k + j) fun l => { l with hdrErr := 0, hdrFrom := s.clk.up, fecFix := 0, idle := true, active := false, skew := 0 }) s
  if old.train.enable then (s.busyLink k true).enterRow k 0 else s

/-- LINK_RST: no effect in the safe state. -/
def State.linkResets (s : State) (mask : BitVec 24) : State :=
  if s.fc.safe then s
  else forEach ((List.range 24).filter fun k => bit mask k) (fun k s => s.linkReset k) s

def execLinkRst (mask : BitVec 24) (s : State) : Res :=
  .next (s.mgWrite 0x100 true (BitVec.ofNat 64 mask.toNat) fun s => s.linkResets mask)

/-! ### Partitions (R61) -/

/-- Tastes of a partition stop: one that has not started ends at once, one under way without word 7 (Table 18.12). -/
def State.stopTastes (s : State) (p : Nat) : State :=
  let mine := fun (t : Taste) => decide (t.part.toNat = p) && !t.exp
  forEach (s.obs.tastes.filter mine) (fun t s =>
    if t.phase = 0 then s.endTaste t 5 else s.modTst t.id fun t => { t with bad := true }) s

/-- The groups of a partition that are not idle are aborted with cause RESET. -/
def State.abortGroups (s : State) (p : Nat) : State :=
  forEach (List.range 512) (fun g s =>
    if gValid s.smvTab g && decide (gPart s.smvTab g = p) && (decide ((s.grp g).st ≠ .idle) || s.sipBusy g) then
      s.abortGroup g causeReset
    else s) s

/-- The format flags of a partition are cleared. -/
def State.clearFlags (s : State) (p : Nat) : State :=
  { s with fmtFlags := s.fmtFlags &&& ~~~(BitVec.ofNat 64 (1 <<< p) ||| BitVec.ofNat 64 (1 <<< (32 + p))) }

/-- A partition reset takes effect. DESIGN CHOICE (log 139): a sync object it zeroes that SYNC_UNC had struck is whole
again. -/
def State.partReset (s : State) (p : Nat) : State :=
  let s := s.abortGroups p
  let s := forEach ((s.queues.filter fun e => decide (e.2.st ≠ .unbound ∧ e.2.part = p)).map (·.1)) (fun q s =>
    (s.modQueue q fun d => { d with coll := none }).resetQueue q) s
  let s := forEach ((s.syncs.filter fun e => e.2.alloc && decide (e.2.part.toNat = p)).map (·.1)) (fun n s =>
    s.setSync n { s.sync n with value := 0, waiters := [], bad := false }) s
  let s := s.stopTastes p
  let s := forEach ((s.obs.csel.filter fun e => bit e.2 62 && decide (bits e.2 58 4 = p)).map (·.1)) (fun i s =>
    { s with obs := { s.obs with cnt := s.obs.cnt.drop i } }) s
  s.clearFlags p

/-- PART_RST for one partition: PART_BUSY at once; in a hold the reset waits for the release (R88), and in the safe state the
core does nothing more. -/
def State.startPart (s : State) (p : Nat) : State :=
  if p = 0 ∨ bit s.boot.partBusy p = true then s
  else
    let m : BitVec 16 := BitVec.ofNat 16 (2 ^ p)
    let s : State := { s with boot := { s.boot with partBusy := s.boot.partBusy ||| m } }
    if s.admits then s.partReset p else { s with boot := { s.boot with partHeld := s.boot.partHeld ||| m } }

def State.partResets (s : State) (mask : BitVec 16) : State :=
  forEach ((List.range 16).filter fun p => bit mask p) (fun p s => s.startPart p) s

/-- Partition resets that waited for the end of a hold. -/
def State.heldParts (s : State) : State :=
  let m := s.boot.partHeld
  if !s.admits then s
  else forEach ((List.range 16).filter fun p => bit m p) (fun p s => s.partReset p)
    { s with boot := { s.boot with partHeld := 0 } }

def execPartRst (mask : BitVec 16) (s : State) : Res :=
  .next (s.mgWrite 0x100 true (BitVec.ofNat 64 (mask.toNat <<< 32)) fun s => s.partResets mask)

/-- The reset of a partition is complete. What an atomic has raised meanwhile is cleared with it (Table 14.7). -/
def State.partDone (s : State) (p : Nat) : State :=
  if s.running && bit s.boot.partBusy p && !bit s.boot.partHeld p then
    { s.clearFlags p with boot := { s.boot with partBusy := s.boot.partBusy &&& ~~~(BitVec.ofNat 16 (2 ^ p)) } }
  else s

def execPartResetDone (p : PartId) (s : State) : Res := .next (s.partDone p.val)

/-- A write of GBL_RESET_CTL that does not start a warm reset. -/
def State.writeResetCtl (s : State) (v : Word) : State :=
  (s.partResets (v.extractLsb' 32 16)).linkResets (v.extractLsb' 0 24)

/-! ### Boot (Table 2.14) -/

/-- The stage that follows and its time after the release, in us; a warm reset skips FUSE and LANE_CLOCKS. -/
def BootStage.next (b : BootStage) (cold : Bool) : Option (BootStage × Nat) :=
  match b with
  | .fuse => some (.sramInit, 20)
  | .sramInit => some (.selftest, 1500)
  | .selftest => some (.mgmtOpen, 2000)
  | .mgmtOpen => if cold then some (.laneClocks, 4000) else some (.ready, 2500)
  | .laneClocks => some (.ready, 5000)
  | .ready | .selftestFail => none

/-- The boot timer reaches the next stage, unless VWARN holds the boot (R63). A self-test that fails stops it (R58). -/
def State.bootNext (s : State) (ok : Bool) : State :=
  match s.boot.stage.next (decide (s.boot.lastReset = 0)) with
  | none => s
  | some (b, t) =>
    if s.pins.vwarn ∨ s.clk.up < s.boot.released + us5 t then s
    else if s.boot.stage = .selftest ∧ ok = false then
      State.raise { s with boot := { s.boot with stage := .selftestFail } } srcSelftest
    else
      let s : State := { s with boot := { s.boot with stage := b } }
      if b = .ready then s.giveCredits else s

def execBootStageAdvance (selftestOk : Bool) (dt : Nat) (s : State) : Res :=
  .next ((s.passNs dt).bootNext selftestOk).kick

end Sys2Proof.Machine
end

