-- ==== Sys2Proof/Machine/CollRows.lean ====
section
/-! DEFINITION. The commands of the collectives (chapter 13) and of the sip path (chapter 15): packets received, SMV_GCTL,
stall deadlines, and the measurement of the milestone offset (R449). -/

namespace Sys2Proof.Machine

/-! ### Collective packets (Table 13.5) -/

/-- A CL_BRD or CL_RING packet. -/
def State.clDataRow (s : State) (src op : Nat) (rack : Bool) : State :=
  (s.clRow src op (fun _ => rack) fun p s => s.clData p rack).kick

/-- READY is noted: level, the sender's column (zero at the rack level), chunk (R331). -/
def State.clReadyRx (s : State) (p : Pkt) : State :=
  let level := bits p.tag 0 1
  s.modGrp (clGroup p) fun d => { d with readys := d.readys ++ [(level, if level = 1 then 0 else clSub p, clChunk p)] }

def execClBrd (src : SrcId) (s : State) : Res := .next (s.clDataRow src.val 0xA0 false)
def execClRing (src : SrcId) (s : State) : Res := .next (s.clDataRow src.val 0xA1 true)
def execClDone (src : SrcId) (s : State) : Res :=
  .next (s.clRow src.val 0xA2 (fun p => bit (word64 p.data 0) 33) fun p s => s.clDoneRx p).kick
def execClReady (src : SrcId) (s : State) : Res :=
  .next (s.clRow src.val 0xA3 (fun p => bit p.tag 0) fun p s => s.clReadyRx p).kick

/-! ### SMV_GCTL (R339, R341) -/

/-- SMV_GCTL of group `g`. -/
def gctl (g : Nat) : Nat := 0x790010 + 32 * g

/-- PARK: a RUNNING group becomes PARKING. -/
def State.doPark (s : State) (g : Nat) : State :=
  if (s.grp g).st = .running then s.modGrp g fun d => { d with st := .parking } else s

/-- RESUME: a PARKED group becomes WAITING. -/
def State.doResume (s : State) (g : Nat) : State := if (s.grp g).st = .parked then s.waitGroup g else s

/-- A PARKING group with nothing in flight at this member is PARKED. -/
def State.doParked (s : State) (g : Nat) : State :=
  if s.running = true ∧ (s.grp g).st = .parking ∧ s.groupQuiet g = true then s.parkGroup g else s

def execPark (g : GroupId) (s : State) : Res := .next (s.mgWrite (gctl g.val) true (1 <<< 63) fun s => s.doPark g.val)
def execResume (g : GroupId) (s : State) : Res :=
  .next (s.mgWrite (gctl g.val) true (1 <<< 62) fun s => s.doResume g.val)
def execAbort (g : GroupId) (s : State) : Res :=
  .next (s.mgWrite (gctl g.val) true (1 <<< 61) fun s => s.abortGroup g.val causeDriver)
def execGroupParked (g : GroupId) (s : State) : Res := .next (s.doParked g.val).kick

/-- A member reaches its stall deadline (R340). -/
def State.stalled (s : State) (g : Nat) : State :=
  match (s.grp g).limit with
  | some t =>
    if s.running && decide (t ≤ s.clk.core) then
      s.abortGroup g (if (s.grp g).st = .parked then causePark else causeStall)
    else s
  | none => s

def execStallDeadline (g : GroupId) (dt : Nat) (s : State) : Res := .next ((s.passNs dt).stalled g.val).kick

/-! ### Sip packets (Table 15.2) -/

def execSipRed (src : SrcId) (s : State) : Res := .next (s.sipRow src.val 1 fun p s => s.sipOpRx p).kick
def execSipBar (src : SrcId) (s : State) : Res := .next (s.sipRow src.val 2 fun p s => s.sipOpRx p).kick
def execSipScale (src : SrcId) (s : State) : Res := .next (s.sipRow src.val 3 fun p s => s.sipOpRx p).kick
def execSipAbort (src : SrcId) (s : State) : Res := .next (s.sipRow src.val 4 fun p s => s.sipAbortRx p).kick
def execSipSlow (src : SrcId) (s : State) : Res := .next (s.sipRow src.val 5 fun p s => s.sipSlowRx p).kick
def execSipTime (src : SrcId) (s : State) : Res := .next (s.sipRow src.val 6 fun p s => s.sipTimeRx p).kick

/-! ### The measurement -/

/-- MS_GO: a write of OBS_MS_CTL with GO; the other fields keep their values. -/
def execMsGo (s : State) : Res :=
  .next (s.mgWrite 0x20108 true (1 <<< 63 ||| s.reg 0x20108) fun s => s.msStart)

def execMsSampleTimeout (dt : Nat) (s : State) : Res :=
  let s := s.passNs dt
  .next (if s.running then s.msWaited.kick else s)

end Sys2Proof.Machine
end

