-- ==== Sys2Proof/Machine/CommitRows.lean ====
section
/-! DEFINITION. The commands of commits (R470): a write of GBL_TCOMMIT with GO for each table, and the end of a commit. -/

namespace Sys2Proof.Machine

/-- A write of GBL_TCOMMIT: CODE, and with GO a commit of it. -/
def State.writeTcommit (s : State) (v : Word) : State :=
  let s := s.setReg 0x10 (v &&& 0xFF)
  if bit v 63 then s.goCommit (v.extractLsb' 0 8) else s

/-- GO with a code. -/
def State.tcommitRow (s : State) (code : Nat) : State :=
  let v := fields [(63, 1, 1), (0, 8, code)]
  s.mgWrite 0x10 true v fun s => s.writeTcommit v

def execTcommitTrainingTable (s : State) : Res := .next (s.tcommitRow 1)
def execTcommitInstalledPlan (s : State) : Res := .next (s.tcommitRow 2)
def execTcommitRoutingTable (s : State) : Res := .next (s.tcommitRow 3)
def execTcommitSchedulingTable (s : State) : Res := .next (s.tcommitRow 4)
def execTcommitInnkeeperTable (s : State) : Res := .next (s.tcommitRow 5)
def execTcommitSamovarTable (s : State) : Res := .next (s.tcommitRow 6)
def execTcommitFormatTable (s : State) : Res := .next (s.tcommitRow 7)
def execTcommitSipTree (s : State) : Res := .next (s.tcommitRow 8)
def execTcommitTastingMenu (s : State) : Res := .next (s.tcommitRow 9)

/-- COMMIT_DONE: the table of the running commit is in force or stands ready. -/
def execCommitDone (s : State) : Res := .next s.commitDone.kick

end Sys2Proof.Machine
end

