-- ==== Sys2Proof/Machine/Power.lean ====
section
/-! DEFINITION. The commands of the pins and of the self-timed core (chapters 2, 3): the brown-out hold (R85 to R88), stack
heat (R340, R426), lost clocks (R84), the speed monitor (R75), pacing (R72) and resets across crossings (R82). -/

namespace Sys2Proof.Machine

/-- Changes the pins. -/
def State.modPins (s : State) (f : Pins → Pins) : State := { s with pins := f s.pins }

/-! ### Brown-out hold -/

/-- A group is active: RUNNING, or PARKING (Table 13.8). -/
def State.groupActive (s : State) (g : Nat) : Bool :=
  gValid s.smvTab g && decide ((s.grp g).st = .running ∨ (s.grp g).st = .parking)

/-- Slow-member notices for the active groups (R86, R330). DEDUCED (log 147): the deadline of every other group that has one moves here
as a notice moves it, since a hold of any length aborts no collective. -/
def State.holdNotices (s : State) : State :=
  forEach (List.range 512) (fun g s => if s.groupActive g then s.slowNotice g else s.slowLimit g) s

/-- The hold is entered: HOLD, the source BROWNOUT, and the first notices. -/
def State.enterHold (s : State) : State :=
  ((s.modPins fun p => { p with hold := true, holdNotice := s.clk.up }).raise srcBrownout).holdNotices

/-- VWARN is recognised high. Before READY the boot holds (R63); in curfew the hold waits for resume, and in the safe state it
has no effect (R88). A hold that a BROWNOUT detected before it has begun goes on, with its notices (R86). -/
def State.vwarnRise (s : State) : State :=
  if s.pins.vwarn then s
  else
    let s := s.modPins fun p => { p with vwarn := true, holdNotice := if p.hold then p.holdNotice else s.clk.up }
    if s.boot.stage = .ready ∧ s.running = true ∧ s.pins.hold = false then s.enterHold else s

def execVwarnRise (s : State) : Res := .next s.vwarnRise.kick

/-- Packets of other chips that arrived during the hold go on, in order. -/
def State.forwardHeld (s : State) : State :=
  forEach (List.range 24) (fun n s =>
    forEach (s.link n).inbox (fun r s =>
      let p := r.pkt
      if p.vc = 0 ∨ p.linkLocal = true ∨ p.dst = s.chip then s
      else (s.modLink n fun l => { l with inbox := l.inbox.erase r }).forward n r.ses p r.no) s) s

/-- Admission resumes in the order queued before: the block's own packets, packets in transit, credits owed, and partition
resets. The Innkeeper epoch that the hold suspended ends at the next boundary (DEDUCED, log 136). -/
def State.releaseHold (s : State) : State :=
  let s := s.modPins fun p => { p with hold := false }
  let s : State := { s with inn := { s.inn with epoch := s.msIndex } }
  let q := s.admitQ
  let s := forEach q (fun p s => s.place p) { s.reportLate with admitQ := [] }
  (s.forwardHeld.payCredits).heldParts

/-- The release of VWARN is recognised. The time a boot stood still does not count (Table 2.17). -/
def State.vwarnRelease (s : State) : State :=
  if !s.pins.vwarn && !s.pins.hold then s
  else
    let s := s.modPins fun p => { p with vwarn := false }
    if s.boot.stage ≠ .ready then
      { s with boot := { s.boot with released := s.boot.released + (s.clk.up - s.pins.holdNotice) } }
    else if s.pins.hold && s.running then s.releaseHold
    else s

def execVwarnRelease (dt : Nat) (s : State) : Res := .next ((s.passNs dt).vwarnRelease).kick

/-- Every 40 ms of the hold the notices are sent again. -/
def State.holdAgain (s : State) : State :=
  if s.pins.hold && s.running && decide (s.pins.holdNotice + ms5 40 ≤ s.clk.up) then
    (s.modPins fun p => { p with holdNotice := p.holdNotice + ms5 40 }).holdNotices
  else s

def execBrownoutNoticeTimer (dt : Nat) (s : State) : Res := .next ((s.passNs dt).holdAgain).kick

/-! ### Stack heat -/

/-- An HBM_HOT bit is recognised high or low. The rise of the first records HOT, and every rise sends notices; in the safe state
only FC_HOT follows (Table 17.5). -/
def State.hotChange (s : State) (i : Nat) (high : Bool) : State :=
  let m : BitVec 20 := BitVec.ofNat 20 (2 ^ i)
  let old := s.pins.hot
  let s := s.modPins fun p => { p with hot := if high then old ||| m else old &&& ~~~m }
  if !high || bit old i || s.fc.safe then s
  else
    let s := if old = 0 then (s.modPins fun p => { p with hotNotice := s.clk.up }).raise srcHot else s
    if s.running then s.slowNotices else s

def execHbmHotChange (stack : Fin 20) (high : Bool) (s : State) : Res := .next (s.hotChange stack.val high).kick

/-- Every 40 ms while a bit stays set the notices are sent again. -/
def State.hotAgain (s : State) : State :=
  if s.running && decide (s.pins.hot ≠ 0) && decide (s.pins.hotNotice + ms5 40 ≤ s.clk.up) then
    (s.modPins fun p => { p with hotNotice := p.hotNotice + ms5 40 }).slowNotices
  else s

def execHotNoticeTimer (dt : Nat) (s : State) : Res := .next ((s.passNs dt).hotAgain).kick

/-! ### Clocks and speed -/

/-- HCLK is lost: FAULT_OUT holds its value from then on (R420). -/
def execHclkLost (s : State) : Res := .next ((s.modPins fun p => { p with hclkDead := true }).raise srcHclkLost).kick

def execRefclkLost (s : State) : Res := .next (s.raise srcRefclkLost).kick

/-- The speed monitor has measured a period, from SRAM_INIT on; above 2,000 ps it is an undervoltage (R77). -/
def State.speed (s : State) (t : BitVec 16) : State :=
  if s.boot.stage = .fuse then s
  else
    let s := s.modPins fun p => { p with period := t, periodMax := if p.periodMax < t then t else p.periodMax }
    if 2000 < t.toNat then s.raise srcUndervolt else s

def execSpeedSample (period : BitVec 16) (dt : Nat) (s : State) : Res := .next ((s.passNs dt).speed period).kick

/-- PACE_K of a line of `w` lanes at grade `g` for a period in ps: the smallest k of R72. Lane rates are 26.5625 Gb/s doubled by
each grade, 64 of 66 bits after coding. DESIGN CHOICE (log 134): where no k up to 63 is enough, 63. -/
def paceFor (w g period : Nat) : Nat :=
  ((List.range 64).find? fun k => decide (w * 265625 * 2 ^ g * 32 * period ≤ 528 * (32 + k) * 10 ^ 7)).getD 63

/-- A link takes a computed value: a rise is announced at once, a fall after ten computations of the lower value. DESIGN
CHOICE (log 134): the ten are consecutive computations of one and the same value, so another lower value starts a new
count. -/
def LL.takePace (l : LL) (k : BitVec 6) : LL :=
  let go := { l with paceLocal := k, paceDue := true, fall := 0, fallTo := 0 }
  if k = l.paceLocal then { l with fall := 0, fallTo := 0 }
  else if l.paceLocal < k then go
  else
    let n := if l.fall ≠ 0 ∧ l.fallTo = k then l.fall + 1 else 1
    if 10 ≤ n then go else { l with fall := n, fallTo := k }

/-- The recomputation of PACE_K for every link; it goes on in a hold (R88). A link that carries no frames announces its value
with the first control blocks it sends. -/
def State.repace (s : State) : State :=
  if !s.running then s
  else forEach (List.range 24) (fun n s =>
    let t := (s.link n).train
    s.modLL n fun l => l.takePace (BitVec.ofNat 6 (paceFor t.width t.grade.toNat s.pins.period.toNat))) s

def execPaceRecompute (dt : Nat) (s : State) : Res := .next ((s.passNs dt).repace)

/-! ### Resets across crossings (Table 3.7) -/

def execCrossingResetRequest (x : Crossing) (coreSide : Bool) (s : State) : Res := .next (s.xingRequest x coreSide)

def execCrossingResetAck (x : Crossing) (coreSide : Bool) (s : State) : Res := .next (s.xingAck x coreSide).kick

end Sys2Proof.Machine
end

