-- ==== Sys2Proof/Machine/Faults.lean ====
section
/-! DEFINITION. The commands of the fault collector (chapter 17): detections with the reactions bound to an instance (Table
17.1), clearing the record, ERR_N, injection, and the log of FAULTB packets. -/

namespace Sys2Proof.Machine

/-! ### Reactions (Table 17.1) -/

/-- A queue faults HW where it stands: at its present instruction, or with none at its PC. `rec` as in a queue fault. -/
def State.hwFault (s : State) (q : Nat) (rec : Bool) : State :=
  let d := s.queue q
  match d.present with
  | some _ => s.execFault q qfHw 0 rec
  | none => s.queueFault q qfHw 0 (d.pc, d.cnt) rec

/-- QDESC_UNC: Q_CTL has no effect until word 0 is written again. -/
def State.queueLost (s : State) (q : Nat) : State := (s.hwFault q true).modQueue q fun d => { d with bad := true }

/-- STW_COR: a cached line of a steward that fails its parity before use is dropped, and is fetched again when it is needed (R281):
line `n / 64`, most recently used first, of steward `n % 64`. -/
def State.lineLost (s : State) (n : Nat) : State :=
  s.modStw (n % 64) fun w => { w with cache := w.cache.eraseIdx (n / 64) }

/-- SYNC_UNC: VALUE is lost. -/
def State.syncLost (s : State) (n : Nat) : State := s.setSync n { s.sync n with value := 0, bad := true }
/-- SYNC_UNC: the waiters fault HW. -/
def State.waitersLost (s : State) (n : Nat) : State := forEach (s.sync n).waiters (fun q s => s.hwFault q true) s

/-- LOC_PAR: entry `n / 128` of cache `n % 128` is dropped. -/
def State.locLost (s : State) (n : Nat) : State :=
  { s with caches := s.caches.put [] (n % 128) ((s.caches.get [] (n % 128)).eraseIdx (n / 128)) }

/-- INN_COR: 0 is corrected; 1 to 4 zero a row of the accessor sketch, 5 to 8 a row of the page sketch, and 9 on the candidate
entries. -/
def State.innLost (s : State) (n : Nat) : State :=
  let clear := fun (t : Tab Nat) (w r : Nat) => t.filter fun e => decide (e.1 / 2 ^ w ≠ r)
  s.modInn fun i =>
    if n = 0 then i
    else if n ≤ 4 then { i with skA := clear i.skA 14 (n - 1) }
    else if n ≤ 8 then { i with skT := clear i.skT 12 (n - 5) }
    else { i with cands := i.cands.eraseIdx (n - 9) }

/-- TRACE: a record of the buffer becomes a drop marker and counts as lost. -/
def State.traceLost (s : State) (i : Nat) : State :=
  match s.obs.trace.buf.get [] i with
  | [] => s
  | w :: l =>
    let t := s.obs.trace
    let r := (dropRec 1 (w.extractLsb' 16 16) (l.headD 0)).words
    (s.setTrace { t with buf := t.buf.put [] i r, lost := satAdd t.lost 1 }).tally 1

/-- What a source takes from the state at the moment it strikes: bank words, trace records, counters, the entropy source, and outside
the safe state cached lines and entries, sketches and sync values, by number. -/
def State.strike (s : State) (src n : Nat) : State :=
  if src = srcShadowUnc then
    if bankOf n = 0 then s else s.modCommit fun c => { c with unc := n / 8 * 8 :: c.unc }
  else if src = 57 then s.traceLost n
  else if src = 58 then { s with obs := { s.obs with cnt := s.obs.cnt.drop n } }
  else if src = srcRng then { s with sec := { s.sec with rngFail := true } }
  else if s.fc.safe then s
  else if src = srcStwCor then s.lineLost n
  else if src = srcSyncUnc then s.syncLost n
  else if src = srcLocPar then s.locLost n
  else if src = 40 then s.innLost n
  else s

/-- What the running core does about a source at an instance: a queue, the waiters of a sync object, a group, or the whole block. -/
def State.respondTo (s : State) (src n : Nat) : State :=
  if src = srcStwHw then s.hwFault n false
  else if src = srcQdescUnc then s.queueLost n
  else if src = srcSyncUnc then s.waitersLost n
  else if src = srcSipUnc then s.abortGroup n causeStall
  else if src = srcBrownout then
    if s.pins.hold then s else (s.modPins fun p => { p with hold := true, holdNotice := s.clk.up }).holdNotices
  else s

/-- The reaction of a source at an instance (Table 17.1), where the part still runs (Table 17.5). In curfew the core is frozen, and what
it would do waits for the resume. -/
def State.react (s : State) (src n : Nat) : State :=
  let s := s.strike src n
  if s.fc.safe then s
  else if s.obs.curfew.on then
    { s with obs := { s.obs with curfew := { s.obs.curfew with late := s.obs.curfew.late ++ [(src, n)] } } }
  else s.respondTo src n

/-- Sources are detected in one handshake, each with the instance it struck. -/
def State.detect (s : State) (l : List (Nat × Nat)) : State :=
  let s := if l.any fun e => e.1 = srcHclkLost then s.modPins fun p => { p with hclkDead := true } else s
  let s := s.raiseAll (l.map (·.1)).dedup
  forEach l (fun e s => s.react e.1 e.2) s

def execFaultDetect (sources : List (Fin 64 × Nat)) (s : State) : Res :=
  .next (s.detect (sources.map fun e => (e.1.val, e.2))).kick

/-! ### Injection (R430) -/

/-- FC_INJECT acts. -/
def State.mayInject (s : State) : Bool := s.boot.testmode && s.fuses.test

/-- A source is injected: a detection at no instance. -/
def State.inject (s : State) (src : Nat) : State :=
  let s := s.raiseAll [src] true
  if src = srcRng ∨ src = srcBrownout then s.react src 0 else s

/-- A write of FC_INJECT. -/
def State.writeInject (s : State) (v : Word) : State :=
  if !s.mayInject then s
  else
    let s := s.setReg 0x10050 (v &&& 0x3F)
    if bit v 63 then s.inject (bits v 0 6) else s

def execFaultInject (source : BitVec 6) (s : State) : Res :=
  let v := fields [(63, 1, 1), (0, 6, source.toNat)]
  .next (s.mgWrite 0x10050 true v fun s => s.writeInject v)

/-! ### The record and ERR_N (R417 to R419) -/

/-- A write of FC_STATUS: bits written 1 clear, in the safe state not those of F sources. -/
def State.clearStatus (s : State) (mask : Word) : State :=
  let m := if s.fc.safe then mask &&& ~~~(classMask 3) else mask
  State.driveFaultOut { s with fc := { s.fc with status := s.fc.status &&& ~~~m } }

def execFcStatusClear (mask : BitVec 64) (s : State) : Res := .next (s.mgWrite 0x10000 true mask fun s => s.clearStatus mask)

/-- A write of FC_FIRST: VALID written 1 clears the capture. -/
def State.clearFirst (s : State) (v : Word) : State :=
  if bit v 63 then { s with fc := { s.fc with first := {} } } else s

def execFcFirstClear (s : State) : Res :=
  let v := BitVec.ofNat 64 (2 ^ 63)
  .next (s.mgWrite 0x10008 true v fun s => s.clearFirst v)

/-- A write of FC_ERRCTL. -/
def State.writeErrctl (s : State) (v : Word) : State := { s with fc := { s.fc with drive := bit v 0 } }

/-- FC_ERRCTL. -/
def Fc.ctlWord (f : Fc) : Word := fields [(2, 1, b2n f.safe), (1, 1, b2n f.pulse.isSome), (0, 1, b2n f.drive)]

def execErrDriveWrite (drive : Bool) (s : State) : Res :=
  let v := BitVec.ofNat 64 (b2n drive)
  .next (s.mgWrite 0x10030 true v fun s => s.writeErrctl v)

/-- FC_PULSE.WIDTH_NS as it acts. -/
def State.pulseNs (s : State) : Nat := max 500 (min 10000 (bits (s.reg 0x10038) 0 14))

/-- The pulse ends after its width. -/
def State.pulseEnd (s : State) : State :=
  match s.fc.pulse with
  | some t => if t + 5 * s.pulseNs ≤ s.clk.up then { s with fc := { s.fc with pulse := none } } else s
  | none => s

def execErrPulseEnd (dt : Nat) (s : State) : Res := .next (s.passNs dt).pulseEnd

/-! ### FAULTB (R427) -/

/-- A FAULTB packet: one with the tag of P0 is logged, any other is counted. -/
def State.takeFaultb (s : State) (p : Pkt) : State :=
  let f := s.fc
  if p.ptag = s.p0Tag then
    { s with fc := { f with count := f.count + 1
                            log := f.log.put [] (f.count.toNat % 16)
                              [word64 p.data 0, word64 p.data 8, word64 p.data 16, BitVec.ofNat 64 p.src.toNat] } }
  else { s with fc := { f with refused := satAdd f.refused 1 } }

/-- The oldest packet of an opcode of VC1 that is for this chip. -/
def State.vc1Row (s : State) (src op : Nat) (act : Pkt → State → State) : State :=
  if !s.running then s
  else
    match (s.inboxOf src).find? fun p => decide (p.op.toNat = op ∧ p.dst = s.chip) with
    | some p => act p (s.consume src p)
    | none => s

def execFaultb (src : SrcId) (s : State) : Res := .next (s.vc1Row src.val 0x23 fun p s => s.takeFaultb p).kick

end Sys2Proof.Machine
end

