-- ==== Sys2Proof/Machine/ObsRows.lean ====
section
/-! DEFINITION. The commands of observation (chapter 18): counters and their views, the trace buffer, trigger units, exports
and observation writes, the causes of curfew, power, and the exerciser's injection (chapter 20). -/

namespace Sys2Proof.Machine

/-- Changes the part of the state that is observation's. -/
def State.modObs (s : State) (f : Obs → Obs) : State := { s with obs := f s.obs }

/-! ### Triggers (R441) -/

/-- The conditions of a trigger unit that are levels: a counter at or above VALUE, a fault bit set, milestone time at or
past VALUE. -/
def State.trigLevel (s : State) (t : Trig) : Bool :=
  match t.kind.toNat with
  | 0 => decide (t.index.toNat < 512 ∧ t.value ≤ s.obs.cnt.get 0 t.index.toNat)
  | 2 => decide (t.index.toNat < 64) && bit s.fc.status t.index.toNat
  | 5 => decide (t.value ≤ s.now)
  | _ => false

/-- Armed units whose level holds fire. -/
def State.fireLevels (s : State) : State := s.fireWhere s.trigLevel

/-- Word 0 of a trigger unit as read. -/
def Trig.word (t : Trig) : Word :=
  fields [(63, 1, b2n t.en), (62, 1, b2n t.fired), (57, 4, t.kind.toNat), (53, 1, b2n t.curfew), (52, 1, b2n t.trace),
    (32, 12, t.index.toNat)]

/-- FIRE: the unit fires at once, armed or not (log 80). Triggers stop in curfew (R454). -/
def State.fireNow (s : State) (k : Nat) : State := if s.obs.curfew.on then s else s.fireUnit k

/-- A write of word 0 of trigger unit `k`; EN from 0 to 1 clears FIRED. -/
def State.writeTrig (s : State) (k : Nat) (v : Word) : State :=
  let t := s.trigger k
  let s := s.setTrigger k
    { t with en := bit v 63, fired := t.fired && (t.en || !bit v 63), kind := v.extractLsb' 57 4, curfew := bit v 53
             trace := bit v 52, index := v.extractLsb' 32 12 }
  (if bit v 61 then s.fireNow k else s).fireLevels

/-- A write of VALUE. -/
def State.writeTrigValue (s : State) (k : Nat) (v : Word) : State :=
  (s.setTrigger k { s.trigger k with value := v }).fireLevels

def execFire (k : Fin 8) (s : State) : Res :=
  .next (s.mgWrite (0x20080 + 16 * k.val) true ((s.trigger k.val).word ||| 0x2000000000000000) fun s => s.fireNow k.val)

def execTriggerTime (dt : Nat) (s : State) : Res :=
  let s := s.passNs dt
  .next (s.fireWhere fun t => decide (t.kind = 5) && s.trigLevel t).kick

/-! ### Counters (R433) -/

/-- A write of OBS_CSELn: the count, and so its view, start again at zero. -/
def State.writeCsel (s : State) (n : Nat) (v : Word) : State :=
  s.modObs fun o => { o with csel := o.csel.put 0 n (v &&& 0xFE1FFFFF000000FF), cnt := o.cnt.put 0 n 0
                             view := o.view.put 0 n 0 }

/-- A write of OBS_CNTn. -/
def State.writeCnt (s : State) (n : Nat) (v : Word) : State :=
  (s.modObs fun o => { o with cnt := o.cnt.put 0 n v }).fireLevels

def execCounterSelectWrite (n : Fin 512) (data : Word) (s : State) : Res :=
  .next (s.mgWrite (0x21000 + 8 * n.val) true data fun s => s.writeCsel n.val data)

def execCounterPreset (n : Fin 512) (data : Word) (s : State) : Res :=
  .next (s.mgWrite (0x22000 + 8 * n.val) true data fun s => s.writeCnt n.val data)

/-- The tenants' views take floor(c / 4,096) x 4,096 of every count at each millisecond boundary of milestone time, and at no
other moment (R387). A milestone time set back begins the count of boundaries anew. -/
def State.takeViews (s : State) : State :=
  let n := s.msIndex
  s.modObs fun o =>
    if o.viewAt < n then
      { o with viewAt := n
               view := (o.cnt.map fun e => (e.1, BitVec.ofNat 64 (e.2.toNat / 4096 * 4096))).filter fun e =>
                 decide (e.2 ≠ 0) }
    else { o with viewAt := n }

def execCounterViewSnapshot (dt : Nat) (s : State) : Res := .next (s.passNs dt).takeViews

/-! ### The trace buffer (R438 to R440) -/

/-- The writable bits of OBS_TRACE_CTL; SRC bit 37 only in a bench block (R485). -/
def State.traceMask (s : State) : Word := if s.fuses.bench then 0xF1FC003F00000000 else 0xF1FC001F00000000

def execTraceEnable (s : State) : Res :=
  let v := s.traceCtl ||| 0x8000000000000000
  .next (s.mgWrite 0x20010 true v fun s => s.writeTraceCtl v)

def execTraceRecordTake (s : State) : Res := .next (if s.running then s.takeRecord.kick else s)

/-- An 8-byte read of OBS_TRACE_DATA advances WORD (Table 18.10), in curfew too. -/
def State.readTrace (s : State) : State :=
  let w := bits (s.reg 0x20030) 0 19
  (s.setReg 0x20030 (BitVec.ofNat 64 ((w + 1) % 2 ^ 19))).mgReply (s.traceWord w) mgOk

def execTraceDataRead (s : State) : Res := 
  .next (s.mgBeat fun s => if s.mgmtOpen then s.readTrace else s.mgReply 0 mgBooting)

/-! ### Exports, observation writes, power -/

/-- An export falls due every PERIOD_MS of milestone time while EN is 1 (R447). -/
def State.exportDue (s : State) : State :=
  let w := s.reg 0x20048
  let p := ms5 (max 1 (bits w 0 16))
  if bit w 63 && s.running && decide (s.obs.exportAt + p ≤ s.clk.ms) then
    (s.modObs fun o => { o with exportAt := o.exportAt + p }).export_
  else s

/-- A write of OBS_EXPORT: EN from 0 to 1 starts the first period. -/
def State.writeExport (s : State) (v : Word) : State :=
  let was := bit (s.reg 0x20048) 63
  let s := s.setReg 0x20048 (v &&& 0x800000000000FFFF)
  if bit v 63 && !was then s.modObs fun o => { o with exportAt := s.clk.ms } else s

def execCounterExport (dt : Nat) (s : State) : Res := .next (s.passNs dt).exportDue.kick

def execObWrite (src : SrcId) (s : State) : Res := .next (s.plRow src.val 0xC8 fun p s => s.obRx p).kick

/-- The end of a 10 ms window: the mean of the window, in 5 W units, rounded down (R388). The estimate comes from the block's
own activity; how it does is not in the spec, so the row carries the mean in watts. A row before the window's end changes
nothing. -/
def State.takePower (s : State) (watts : Nat) : State :=
  let n := s.msIndex / 10
  s.modObs fun o =>
    if o.powerAt < n then { o with powerAt := n, watts := BitVec.ofNat 8 (min 255 (watts / 5)) } else { o with powerAt := n }

def execPowerWindow (watts : Nat) (dt : Nat) (s : State) : Res := .next ((s.passNs dt).takePower watts)

/-! ### Causes of curfew (R452, R453) -/

/-- An armed entry whose time has come enters curfew and clears ARMED. -/
def State.timedEntry (s : State) : State :=
  let w := s.reg 0x20218
  if bit w 63 && decide (bits w 0 63 ≤ s.now.toNat) && !s.obs.curfew.on then
    (s.enterCurfewOwn 5).setReg 0x20218 (w &&& 0x7FFFFFFFFFFFFFFF)
  else s

/-- A write of OBS_CURFEW_AT, by the management port or by a CURFEW packet: it enters at once if the time has passed. -/
def State.writeCurfewAt (s : State) (v : Word) : State := (s.setReg 0x20218 v).timedEntry

/-- A CURFEW packet: the P0 tag arms or disarms, another is counted. -/
def State.takeCurfewPkt (s : State) (p : Pkt) : State :=
  if p.ptag = s.p0Tag then s.writeCurfewAt (word64 p.data 0)
  else s.modObs fun o => { o with curfew := { o.curfew with refused := satAdd o.curfew.refused 1 } }

def execCurfewPacket (src : SrcId) (s : State) : Res := .next (s.vc1Row src.val 0x24 fun p s => s.takeCurfewPkt p).kick

def execEnter (s : State) : Res :=
  .next (s.mgWrite 0x20200 true 0x8000000000000000 fun s => s.enterCurfewOwn 1)

/-- CURFEW_IN is ignored while the block is in reset, that is before it runs its boot. -/
def execCurfewIn (s : State) : Res := .next (s.enterCurfewOwn 2)

def execCurfewTimed (dt : Nat) (s : State) : Res := .next (s.passNs dt).timedEntry

/-! ### The exerciser (R485, R486) -/

/-- OBS_BENCH_CTL, OBS_BENCH_BAD and the 32 frame words as a raw frame. -/
def State.rawFrame (s : State) : RawFrame :=
  let c := s.reg 0x24000
  { bytes := wordsBytes ((List.range 32).map fun b => s.reg (0x24100 + 8 * b)), ctl := c.extractLsb' 0 32
    bad := (s.reg 0x24008).extractLsb' 32 32, chk := bit c 49 }

/-- GO: refused while an injection runs, for a link that does not exist, and for a link on no DISCOVERY, DATA or QUARANTINE
row. -/
def State.benchGo (s : State) : State :=
  let c := s.reg 0x24000
  let n := bits c 51 5
  if s.obs.bench.busy || decide (24 ≤ n) || !s.carriesFrames n then s.modObs fun o => { o with bench := { o.bench with rej := true } }
  else
    s.modObs fun o => { o with
      bench := { busy := true, rej := false, link := n, rawSeq := bit c 50, frame := s.rawFrame
                 left := 1 + bits (s.reg 0x24008) 16 16, gap := bits (s.reg 0x24008) 0 16, first := true } }

/-- A write of OBS_BENCH_CTL. -/
def State.writeBench (s : State) (v : Word) : State :=
  let s := s.setReg 0x24000 (v &&& 0x00FE0000FFFFFFFF)
  if bit v 63 then s.benchGo else s

/-- GO is reserved in a production block (R485). -/
def execBenchInject (s : State) : Res :=
  let v := s.reg 0x24000 ||| 0x8000000000000000
  .next (s.mgWrite 0x24000 true v fun s => if s.fuses.bench then s.writeBench v else s)

end Sys2Proof.Machine
end

