-- ==== Sys2Proof/Machine/Spdm.lean ====
section
/-! DEFINITION. Certificate chains (R392) and the SPDM 1.2 messages of the subset of Table 16.10, of the responder (R405,
R406) and of the requester that fetches a far chain. PRESUMED (log 148): the spec names X.509 and SPDM 1.2 and does not
restate them; codes and layouts are those of RFC 5280 and of DMTF DSP0274 1.2. -/

namespace Sys2Proof.Machine

/-! ### Reading DER -/

/-- A value as it stands in DER: its tag, the whole of it, and its contents. -/
structure Tlv where
  tag : Byte
  whole : Bytes
  val : Bytes

/-- The first value of a string, and what follows it. Lengths take up to two octets here. -/
def derTake (b : Bytes) : Option (Tlv × Bytes) :=
  let n := (b.getD 1 0).toNat
  let h : Nat × Nat :=
    if n < 128 then (2, n) else if n = 0x81 then (3, beNat (slice b 2 1)) else if n = 0x82 then (4, beNat (slice b 2 2)) else (0, 0)
  let z := h.1 + h.2
  if h.1 = 0 ∨ b.length < z then none else some (⟨b.headD 0, b.take z, slice b h.1 h.2⟩, b.drop z)

/-- A string that is a row of at most `n` values. -/
def derList : Nat → Bytes → Option (List Tlv)
  | _, [] => some []
  | 0, _ :: _ => none
  | n + 1, b => (derTake b).bind fun x => (derList n x.2).map (x.1 :: ·)

/-! ### Certificates (R392) -/

/-- A certificate as read: the part that is signed, the signature, the SubjectPublicKeyInfo and its key, the extensions. -/
structure Cert where
  part : Bytes
  sig : Nat × Nat
  spki : Bytes
  key : Nat × Nat
  exts : List Tlv

/-- The two numbers of an ECDSA signature, from its BIT STRING. -/
def sigOf (b : Bytes) : Option (Nat × Nat) :=
  match derList 1 (b.drop 1) with
  | some [q] =>
    match derList 2 q.val with
    | some [r, s] => some (beNat r.val, beNat s.val)
    | _ => none
  | _ => none

/-- The key of a SubjectPublicKeyInfo on P-384, an uncompressed point. -/
def keyOf (spki : Bytes) : Option (Nat × Nat) :=
  match derList 2 spki with
  | some [a, p] =>
    if a.whole = algKey ∧ p.val.take 2 = [0, 4] ∧ p.val.length = 98 then
      some (beNat (slice p.val 2 48), beNat (slice p.val 50 48))
    else none
  | _ => none

/-- The extensions among the fields of a certificate. -/
def extsOf (l : List Tlv) : List Tlv :=
  ((l.find? fun t => t.tag = 0xA3).bind fun t => ((derList 1 t.val).bind List.head?).bind fun q => derList 32 q.val).getD []

/-- A certificate signed with ECDSA and SHA-384, whose key is on P-384. -/
def certOf (c : Tlv) : Option Cert :=
  match derList 3 c.val with
  | some [part, alg, sg] =>
    match (derList 16 part.val).map fun l => l.dropWhile fun t => t.tag = 0xA0 with
    | some (_ :: _ :: _ :: _ :: _ :: spki :: rest) =>
      if alg.whole ≠ algEcdsa then none
      else
        match sigOf sg.val, keyOf spki.val with
        | some g, some q => some ⟨part.whole, g, spki.whole, q, extsOf rest⟩
        | _, _ => none
    | _ => none
  | _ => none

/-- The certificate's signature verifies under a key. -/
def Cert.signedBy (c : Cert) (q : Nat × Nat) : Bool := ecdsaVerify q (beNat (sha384 c.part)) c.sig.1 c.sig.2

/-- The class of the passport extension (Table 16.5). -/
def Cert.passClass (c : Cert) : Option Nat :=
  c.exts.findSome? fun e =>
    match derList 3 e.val with
    | some (o :: l) =>
      if o.whole = derOid passOid then
        ((l.getLast?).bind fun v => (derList 1 v.val).bind List.head?).bind fun q =>
          ((derList 2 q.val).bind List.head?).map fun i => beNat i.val
      else none
    | _ => none

/-- The chain ends in a trust anchor with its first certificate: signed with the product CA key, or of a key whose
SubjectPublicKeyInfo hashes to a SEC_ANCHOR entry and which signed it. -/
def Cert.anchored (c : Cert) (anchors : Option (List (BitVec 384))) : Bool :=
  match anchors with
  | none => c.signedBy Config.caKey
  | some l => l.contains (BitVec.ofNat 384 (leNat (sha384 c.spki))) && c.signedBy c.key

/-- Each certificate after the first is signed by the one before it. -/
def chainSigned : List Cert → Bool
  | a :: b :: l => b.signedBy a.key && chainSigned (b :: l)
  | _ => true

/-- A chain of at most three certificates and 4,096 bytes, anchor first and leaf last, every signature of which verifies: the
leaf, and the digest of its DER. `anchors` is none for the product CA key. -/
def chainLeaf (anchors : Option (List (BitVec 384))) (chain : Bytes) : Option (Cert × BitVec 384) :=
  if 4096 < chain.length then none
  else
    match derList 3 chain with
    | none => none
    | some l =>
      match l.mapM certOf, l.getLast? with
      | some (c :: cs), some t =>
        if c.anchored anchors && chainSigned (c :: cs) then
          (cs.getLast?.getD c, BitVec.ofNat 384 (leNat (sha384 t.whole))) |> some
        else none
      | _, _ => none

/-! ### The requester (R405) -/

/-- CAPABILITIES and GET_CAPABILITIES after their headers: flags; messages are whole and at most 4,096 bytes. -/
def spdmCaps (flags : Nat) : Bytes :=
  [0, Config.spdmTimeout, 0, 0] ++ leBytes 4 flags ++ leBytes 4 4096 ++ leBytes 4 4096

/-- The next request with which the block fetches a chain, after the responses `got`: version, capabilities, algorithms, then
the chain of slot 0 in portions. -/
def spdmRequest (got : List Bytes) : Bytes :=
  match got with
  | [] => [0x10, 0x84, 0, 0]
  | [_] => [0x12, 0xE1, 0, 0] ++ spdmCaps 0
  | [_, _] => [0x12, 0xE3, 0, 0] ++ leBytes 2 32 ++ [1, 0] ++ leBytes 4 0x80 ++ leBytes 4 2 ++ zeros 16
  | _ :: _ :: _ :: l => [0x12, 0x82, 0, 0] ++ leBytes 2 ((l.map fun r => r.length - 8).sum) ++ leBytes 2 0x400

/-- The version 1.2 stands among the entries of a VERSION. -/
def spdmHas12 (r : Bytes) : Bool := (List.range (r.getD 5 0).toNat).any fun i => r.getD (7 + 2 * i) 0 = 0x12

/-- A response is the answer to request number `i` of a fetch. -/
def spdmFits (i : Nat) (r : Bytes) : Bool :=
  let code := r.getD 1 0
  if i = 0 then decide (code = 0x04) && spdmHas12 r
  else if i = 1 then code = 0x61
  else if i = 2 then code = 0x63
  else decide (code = 0x02 ∧ 8 < r.length ∧ r.length = 8 + leNat (slice r 4 2))

/-- How a fetch stands. -/
inductive Fetch
  | more | failed
  | chain (der : Bytes)

/-- How a fetch stands after the responses `got`: the DER of the chain follows a header of 52 bytes. -/
def spdmFetched (got : List Bytes) : Fetch :=
  let n := got.length
  let r := got.getLastD []
  if !spdmFits (n - 1) r then .failed
  else if n < 4 then .more
  else
    let all := (got.drop 3).flatMap fun p => p.drop 8
    if leNat (slice r 6 2) = 0 then .chain (all.drop 52)
    else if 4148 < all.length then .failed
    else .more

/-! ### The responder (Table 16.10) -/

/-- What one answer rests on: the certificates, the measurement blocks by index, the OpaqueData, the identity key, the nonce
of the report and that of its signature. -/
structure SpdmSelf where
  certs : List Bytes
  blocks : List (Nat × Bytes)
  opq : Bytes
  key : Nat
  nonce : Bytes
  signNonce : Nat

/-- The chain of slot 0: length, the digest of the root, the certificates. -/
def SpdmSelf.chain (x : SpdmSelf) : Bytes :=
  let c := x.certs.flatten
  leBytes 2 (52 + c.length) ++ [0, 0] ++ sha384 (x.certs.headD []) ++ c

/-- A signature of SPDM 1.2 over a transcript. -/
def SpdmSelf.sign (x : SpdmSelf) (context : String) (t : Bytes) : Bytes :=
  let c := ascii context
  let pre := (List.replicate 4 (ascii "dmtf-spdm-v1.2.*")).flatten ++ zeros (36 - c.length) ++ c
  let g := ecdsaSign x.key (beNat (sha384 (pre ++ sha384 t))) x.signNonce
  beBytes 48 g.1 ++ beBytes 48 g.2

/-- A measurement block: its index, the DMTF specification, and the raw bit stream of a component of type `ty`. -/
def spdmBlock (index ty : Nat) (m : Bytes) : Bytes :=
  [BitVec.ofNat 8 index, 1] ++ leBytes 2 (m.length + 3) ++ [BitVec.ofNat 8 (0x80 + ty)] ++ leBytes 2 m.length ++ m

/-- ERROR. -/
def spdmError (code : Byte) (data : Byte := 0) : Bytes := [0x12, 0x7F, code, data]

/-- DIGESTS. -/
def SpdmSelf.digests (x : SpdmSelf) : Bytes := [0x12, 0x01, 0, 1] ++ sha384 x.chain

/-- CERTIFICATE: the portion asked for, of slot 0 alone. -/
def SpdmSelf.certificate (x : SpdmSelf) (m : Bytes) : Option Bytes :=
  let o := leNat (slice m 4 2)
  let n := x.chain.length
  if m.length ≠ 8 ∨ bits (word64 m 0) 16 4 ≠ 0 ∨ n ≤ o then none
  else
    let p := min (min (leNat (slice m 6 2)) (n - o)) 4088
    some ([0x12, 0x02, 0, 0] ++ leBytes 2 p ++ leBytes 2 (n - o - p) ++ slice x.chain o p)

/-- CHALLENGE_AUTH but its signature: a summary hash of none or of all measurements. -/
def SpdmSelf.challenge (x : SpdmSelf) (m : Bytes) : Option Bytes :=
  let ty := m.getD 3 0
  if m.length ≠ 36 ∨ m.getD 2 0 ≠ 0 ∨ ¬ (ty = 0 ∨ ty = 0xFF) then none
  else
    let sum := if ty = 0 then [] else sha384 (x.blocks.flatMap fun b => b.2)
    some ([0x12, 0x03, 0, 1] ++ sha384 x.chain ++ x.nonce ++ sum ++ leBytes 2 x.opq.length ++ x.opq)

/-- MEASUREMENTS but its signature: their number, one of them or all; a signature has to be asked for, of slot 0. -/
def SpdmSelf.measured (x : SpdmSelf) (m : Bytes) : Option Bytes :=
  let op := (m.getD 3 0).toNat
  if m.length ≠ 37 ∨ (m.getD 2 0).getLsbD 0 = false ∨ (m.getD 36 0).toNat % 16 ≠ 0 then none
  else
    let l := if op = 0 then [] else x.blocks.filter fun b => decide (op = 0xFF ∨ b.1 = op)
    if op ≠ 0 ∧ l = [] then none
    else
      let rec_ := l.flatMap fun b => b.2
      some ([0x12, 0x60, BitVec.ofNat 8 (if op = 0 then x.blocks.length else 0), 0, BitVec.ofNat 8 l.length] ++
        leBytes 3 rec_.length ++ rec_ ++ x.nonce ++ leBytes 2 x.opq.length ++ x.opq)

/-- ALGORITHMS, where ECDSA P-384 and SHA-384 are offered. -/
def spdmAlgorithms (m : Bytes) : Option Bytes :=
  if m.length < 32 ∨ !(bit (word64 m 8) 7 && bit (word64 m 8) 33) then none
  else
    some ([0x12, 0x63, 0, 0] ++ leBytes 2 36 ++ [m.getD 6 0 &&& 1, 0] ++ leBytes 4 1 ++ leBytes 4 0x80 ++ leBytes 4 2 ++ zeros 16)

/-- Requests of Table 16.10 that are supported. -/
def spdmKnown : List Byte := [0x84, 0xE1, 0xE3, 0x81, 0x82, 0x83, 0xE0]

/-- The answer to a request, and the requester's transcripts after it. -/
def SpdmConn.answer (c : SpdmConn) (x : SpdmSelf) (m : Bytes) : Bytes × SpdmConn :=
  let code := m.getD 1 0
  let bad := (spdmError 0x01, c)
  let known := fun (l : Byte) => decide (code = l)
  if m.length < 4 then bad
  else if !spdmKnown.contains code then (spdmError 0x07 code, c)
  else if known 0x84 then
    if m.getD 0 0 ≠ 0x10 then (spdmError 0x41, c)
    else
      let r : Bytes := [0x10, 0x04, 0, 0, 0, 1, 0, 0x12]
      (r, { step := 1, a := m ++ r })
  else if m.getD 0 0 ≠ 0x12 then (spdmError 0x41, c)
  else if c.step ≠ (if known 0xE1 then 1 else if known 0xE3 then 2 else 3) then (spdmError 0x04, c)
  else if known 0xE1 then
    if m.length ≠ 20 then bad
    else
      let r := [0x12, 0x61, 0, 0] ++ spdmCaps 0x16
      (r, { c with step := 2, a := c.a ++ m ++ r })
  else if known 0xE3 then
    match spdmAlgorithms m with
    | none => bad
    | some r => (r, { c with step := 3, a := c.a ++ m ++ r })
  else if known 0x81 then (x.digests, { c with b := c.b ++ m ++ x.digests })
  else if known 0x82 then
    match x.certificate m with
    | none => bad
    | some r => (r, { c with b := c.b ++ m ++ r })
  else if known 0x83 then
    match x.challenge m with
    | none => bad
    | some r => (r ++ x.sign "responder-challenge_auth signing" (c.a ++ c.b ++ m ++ r), { c with b := [] })
  else
    match x.measured m with
    | none => bad
    | some r => (r ++ x.sign "responder-measurements signing" (c.a ++ m ++ r), { c with b := [] })

end Sys2Proof.Machine
end

