-- ==== Sys2Proof/Machine/Keys.lean ====
section
/-! DEFINITION. Proving a neighbour and keying a link (chapter 16): ATTEST messages and the fetch of the far chain, the KEYX
exchange, epochs, and hostility from a failed proof. -/

namespace Sys2Proof.Machine

/-! ### Identities -/

/-- Bytes of this block's passport digest. -/
def State.myPassport (s : State) : Bytes := leBytes 48 s.passport.toNat
/-- Bytes of the far passport, from HELLO. -/
def State.farPassport (s : State) (k : Nat) : Bytes := slice ((s.link k).guest.hello.getD []) 16 48

/-- This block is lo of the pair (R395). -/
def State.isLo (s : State) (k : Nat) : Bool := decide (beNat s.myPassport < beNat (s.farPassport k))

/-- Two parts in the order lo, hi. -/
def loHi (lo : Bool) (mine far : Bytes) : Bytes := if lo then mine ++ far else far ++ mine

/-- The far passport is in SEC_REVOKE. -/
def State.farRevoked (s : State) (k : Nat) : Bool :=
  (List.range 64).any fun i =>
    let d := wordsBytes ((List.range 6).map fun j => s.reg (0x30200 + 48 * i + 8 * j))
    decide (d ≠ zeros 48 ∧ d = s.farPassport k)

/-- The SEC_ANCHOR entries in use. -/
def State.anchors (s : State) : List (BitVec 384) :=
  ((List.range 4).map fun i =>
    BitVec.ofNat 384 (leNat (wordsBytes ((List.range 6).map fun j => s.reg (0x30100 + 48 * i + 8 * j))))).filter (· ≠ 0)

/-- `n` fresh random bytes. -/
def State.random (s : State) (n : Nat) : Bytes := (List.range n).map fun i => Config.entropy s.freeCtr i

/-- A failed exchange or proof: KEYX_FAIL counts it, and the link is hostile (R401, R402). -/
def State.proofFails (s : State) (k cause : Nat) : State :=
  let s := if cause = 3 then s.modLink k fun l => { l with sec := { l.sec with kexFail := satAdd l.sec.kexFail 1 } } else s
  s.setHostile k cause

/-! ### ATTEST (R393) -/

/-- The header of an ATTEST fragment. -/
def attHeader (rsp : Bool) (ofs total : Nat) (no : BitVec 8) : Bytes :=
  leBytes 8 (fields [(63, 1, b2n rsp), (32, 16, ofs), (16, 16, total), (8, 8, no.toNat)]).toNat

/-- Sends a message over ATTEST in fragments of up to 216 bytes. -/
def State.sendAtt (s : State) (k : Nat) (rsp : Bool) (no : BitVec 8) (m : Bytes) : State :=
  forEach (List.range ((m.length + 215) / 216)) (fun i s =>
    s.sendLocal k 0x21 (attHeader rsp (216 * i) m.length no ++ (m.drop (216 * i)).take 216)) s

/-- The requester sends its next SPDM request (R405). -/
def State.askChain (s : State) (k : Nat) : State :=
  let a := (s.link k).att
  (s.modLink k fun l => { l with att := { l.att with nextMsg := l.att.nextMsg + 1 } }).sendAtt k false a.nextMsg
    (spdmRequest a.got)

/-- The proof of a neighbour begins with the fetch of its chain. -/
def State.startProof (s : State) (k : Nat) : State :=
  if (s.link k).att.asking ∨ (s.link k).sec.kex.phase ≠ 0 ∨ s.sec.rngFail = true then s
  else (s.modLink k fun l => { l with att := { l.att with asking := true, got := [] } }).askChain k

/-- A fragment joins its message; `ok` is false for one whose header is malformed. The message so far, and the messages that are
discarded with it: one that a new message cuts short, and one whose fragments are inconsistent, once. -/
def Frag.add (f : Frag) (ok : Bool) (ofs total : Nat) (no : BitVec 8) (d : Bytes) : Frag × Nat :=
  let ok := ok && decide (1 ≤ total ∧ total ≤ 4096 ∧ ofs + d.length ≤ total ∧ d ≠ [] ∧ d.length ≤ 216)
  let cut := if f.got = [] then 0 else 1
  if ok ∧ ofs = 0 then ({ got := d, total := total, no := no }, cut)
  else if ok = true ∧ f.got ≠ [] ∧ f.total = total ∧ f.no = no ∧ f.got.length = ofs then ({ f with got := f.got ++ d }, 0)
  else if f.got ≠ [] ∧ f.no = no then ({ bad := some no }, 1)
  else if f.got = [] ∧ f.bad = some no ∧ ofs ≠ 0 then (f, 0)
  else ({ bad := some no }, cut + 1)

/-! ### KEYX payloads (Table 16.7) -/

def kexHeader (kind : Nat) (fs revoked enc : Bool) (sid : BitVec 16) : Bytes :=
  leBytes 8 (fields [(60, 4, kind), (59, 1, b2n fs), (58, 1, b2n revoked), (57, 1, b2n enc), (32, 16, sid.toNat)]).toNat

def kexKind (p : Bytes) : Nat := bits (word64 p 0) 60 4
def kexFs (p : Bytes) : Bool := bit (word64 p 0) 59
def kexRevoked (p : Bytes) : Bool := bit (word64 p 0) 58
def kexEnc (p : Bytes) : Bool := bit (word64 p 0) 57
def kexSid (p : Bytes) : BitVec 16 := (word64 p 0).extractLsb' 32 16

/-- A well-formed KEYX: its length for its KIND, and reserved fields zero. -/
def kexOk (p : Bytes) : Bool :=
  decide (bits (word64 p 0) 48 9 = 0 ∧ bits (word64 p 0) 0 32 = 0) &&
    decide ((kexKind p = 0 ∧ p.length = 40) ∨ (kexKind p = 1 ∧ p.length = 200) ∨ (kexKind p = 2 ∧ p.length = 56))

/-- Changes the exchange of a link. -/
def State.modKex (s : State) (k : Nat) (f : Kex → Kex) : State :=
  s.modLink k fun l => { l with sec := { l.sec with kex := f l.sec.kex } }

/-- The header of this end's KEYX messages. -/
def State.kexHead (s : State) (k kind : Nat) : Bytes :=
  kexHeader kind (bit (s.reg 0x30048) 63) (s.farRevoked k) ((s.planLink k).any fun e => e.enc) (s.link k).sec.kex.sid

/-- OPEN is sent, unless the entropy source has failed (Table 17.1): a fresh nonce, and the number of the exchange on this link, which is the far OPEN's if that came first (log
63). -/
def State.sendOpen (s : State) (k : Nat) : State :=
  if s.sec.rngFail then s else
  let c := (s.link k).sec
  let sid := if c.kex.farOpen = [] then c.sids else kexSid c.kex.farOpen
  let s := s.modLink k fun l =>
    { l with sec := { l.sec with sids := sid + 1, revoked := l.sec.revoked || s.farRevoked k, kex := { l.sec.kex with sid := sid, phase := 1, rekey := l.train.state = 4 } } }
  let p := s.kexHead k 0 ++ s.random 32
  ((s.drew).modKex k fun x => { x with myOpen := p }).sendLocal k 0x22 p

/-- The exchange runs on the ephemeral path (R394, R401). -/
def Kex.ephemeral (x : Kex) : Bool :=
  x.rekey || kexFs x.myOpen || kexFs x.farOpen || kexRevoked x.myOpen || kexRevoked x.farOpen
/-- Keys are installed. -/
def Kex.installs (x : Kex) : Bool := kexEnc x.myOpen || kexEnc x.farOpen

/-- The nonces in the order lo, hi. -/
def Kex.nonces (x : Kex) (lo : Bool) : Bytes := loHi lo (x.myOpen.drop 8) (x.farOpen.drop 8)

/-- The digest that SIG covers: whose passport and whose Q. -/
def ephDigest (nonces passport q : Bytes) : Nat := beNat (sha384 (label "KL96 eph" ++ nonces ++ passport ++ q))

/-- EPH is sent: a fresh ephemeral key pair, signed with the identity key. -/
def State.sendEph (s : State) (k : Nat) : State :=
  if s.sec.rngFail then s else
  let x := (s.link k).sec.kex
  let d := beNat (s.random 48) % (p384n - 1) + 1
  let q := match pubKey d with
    | some z => beBytes 48 z.1 ++ beBytes 48 z.2
    | none => zeros 96
  let g := ecdsaSign s.fuses.key.toNat (ephDigest (x.nonces (s.isLo k)) s.myPassport q) (Config.signNonce s.freeCtr)
  let p := s.kexHead k 1 ++ q ++ beBytes 48 g.1 ++ beBytes 48 g.2
  ((s.drew).modKex k fun x => { x with phase := 2, ephKey := d, myEph := p }).sendLocal k 0x22 p

/-- The far EPH's signature verifies (R394). -/
def State.ephOk (s : State) (k : Nat) : Bool :=
  let x := (s.link k).sec.kex
  match (s.link k).att.farKey with
  | some key =>
    ecdsaVerify key (ephDigest (x.nonces (s.isLo k)) (s.farPassport k) (slice x.farEph 8 96)) (beNat (slice x.farEph 104 48))
      (beNat (slice x.farEph 152 48))
  | none => false

/-- The shared secret z of R395. -/
def State.secret (s : State) (k : Nat) : Option Bytes :=
  let x := (s.link k).sec.kex
  if x.ephemeral then ecdh x.ephKey (beNat (slice x.farEph 8 48), beNat (slice x.farEph 56 48))
  else (s.link k).att.farKey.bind fun key => ecdh s.fuses.key.toNat key

/-- The session of R395. -/
def State.sessionOf (s : State) (k : Nat) (z : Bytes) : Bytes :=
  let x := (s.link k).sec.kex
  let lo := s.isLo k
  let salt := sha384 (label (if x.ephemeral then "KL96 ephemeral" else "KL96 static") ++
    loHi lo s.myPassport (s.farPassport k))
  let far := [BitVec.ofNat 8 (helloPort ((s.link k).guest.hello.getD [])).toNat]
  hkdfExpand (hkdfExtract salt z) (label "KL96 session" ++ x.nonces lo ++ loHi lo [BitVec.ofNat 8 k] far) 48

/-- The MAC of a CONFIRM in direction `d`. -/
def State.confirmMac (s : State) (k : Nat) (d : Bool) : Bytes :=
  let x := (s.link k).sec.kex
  let lo := s.isLo k
  hmac (hkdfExpand x.session (label "KL96 confirm" ++ [BitVec.ofNat 8 (b2n d)]) 48)
    (sha384 (loHi lo x.myOpen x.farOpen ++ loHi lo x.myEph x.farEph))

/-- chain[0] of the exchange's session (R395). -/
def Kex.chain (x : Kex) : Bytes := hkdfExpand x.session (label "KL96 chain") 48

/-- The keys of a first session are installed under epoch 0 (R396). -/
def LSec.install (c : LSec) (dir : Bool) : LSec :=
  let chain := c.kex.chain
  { c with keyed := true, dir := dir, txOn := false, rxOn := false, txEpoch := 0, rxEpoch := 0, txChain := chain
           rxChain := chain, txPend := [], rxPend := [], txKey := chainKey chain dir, txCount := 0, txFrames := 0
           txAcked := false, cur := { key := chainKey chain (!dir) }, prev := {}
           next := { key := chainKey (ratchet chain) (!dir) } }

/-- A rekey has succeeded: the new chain replaces that of the next epoch in both directions (R401). -/
def LSec.rekeyed (c : LSec) : LSec :=
  let chain := c.kex.chain
  { c with txPend := chain, rxPend := chain, next := { key := chainKey chain (!c.dir) } }

/-- The session is derived, the ephemeral key erased and CONFIRM sent. An exchange that is no rekey installs its keys in place of those
that a retrain left (R394, R396; DEDUCED, log 149). -/
def State.sendConfirm (s : State) (k : Nat) : State :=
  match s.secret k with
  | none => s.proofFails k 3
  | some z =>
    let dir := !s.isLo k
    let ses := s.sessionOf k z
    let s := s.modLink k fun l =>
      let c := { l.sec with kex := { l.sec.kex with session := ses, ephKey := 0, phase := 3 } }
      { l with sec := if c.kex.installs && !(c.keyed && c.kex.rekey) then c.install dir else c }
    s.sendLocal k 0x22 (s.kexHead k 2 ++ s.confirmMac k dir)

/-- The exchange goes on as far as what has come lets it. -/
def State.kexGo (s : State) (k : Nat) : State :=
  let x := (s.link k).sec.kex
  let s := if x.phase = 1 ∧ x.farOpen ≠ [] then (if x.ephemeral then s.sendEph k else s.sendConfirm k) else s
  let x := (s.link k).sec.kex
  if x.phase = 2 ∧ x.farEph ≠ [] then (if s.ephOk k then s.sendConfirm k else s.proofFails k 3) else s

/-! ### The far chain (R392) -/

/-- The fetch of the far chain is over. -/
def State.fetchOver (s : State) (k : Nat) : State :=
  s.modLink k fun l => { l with att := { l.att with asking := false, got := [] } }

/-- The link runs KEYX: it stands in DISCOVERY or DATA and is not hostile (R403). -/
def State.runsKex (s : State) (k : Nat) : Bool :=
  decide (((s.link k).train.state = 3 ∨ (s.link k).train.state = 4) ∧ (s.link k).guest.verdict ≠ .qHostile)

/-- A chain has come: the far key, and the OPEN of a link that runs KEYX, or the hostility of Table 16.9. -/
def State.takeChain (s : State) (k : Nat) (chain : Bytes) : State :=
  let h := (s.link k).guest.hello.getD []
  let kreup := decide (helloKind h = 1)
  let s := s.fetchOver k
  match chainLeaf (if kreup then none else some s.anchors) chain with
  | none => s.proofFails k 3
  | some (leaf, dig) =>
    if dig ≠ helloPassport h then s.proofFails k 3
    else if kreup && decide (leaf.passClass ≠ some (helloPclass h)) then s.proofFails k 4
    else
      let s := s.modLink k fun l => { l with att := { l.att with farKey := some leaf.key } }
      if s.runsKex k then (s.sendOpen k).kexGo k else s

/-- A whole SPDM message has come: a request joins the responder's queue (R405), a response goes to the requester. -/
def State.attMessage (s : State) (k : Nat) (rsp : Bool) (no : BitVec 8) (m : Bytes) : State :=
  let a := (s.link k).att
  if !rsp then { s with sec := { s.sec with spdm := { s.sec.spdm with queue := s.sec.spdm.queue ++ [(some k, no, m)] } } }
  else if !a.asking || decide (no + 1 ≠ a.nextMsg) then s
  else
    let s := s.modLink k fun l => { l with att := { l.att with got := l.att.got ++ [m] } }
    match spdmFetched (a.got ++ [m]) with
    | .chain c => s.takeChain k c
    | .failed => (s.fetchOver k).proofFails k 3
    | .more => s.askChain k

/-- A fragment of ATTEST; an inconsistent message is discarded and counted in PKT_MALF, once. -/
def State.takeAtt (s : State) (k : Nat) (p : Pkt) : State :=
  let w := word64 p.data 0
  let rsp := bit w 63
  let a := (s.link k).att
  let old := if rsp then a.inRsp else a.inReq
  let put := fun (s : State) (f : Frag) => s.modLink k fun l =>
    { l with att := if rsp then { l.att with inRsp := f } else { l.att with inReq := f } }
  let ofs := bits w 32 16
  let total := bits w 16 16
  let no : BitVec 8 := w.extractLsb' 8 8
  let ok := decide (bits w 48 15 = 0 ∧ bits w 0 8 = 0 ∧ 8 ≤ p.len.toNat)
  let r := old.add ok ofs total no (slice p.data 8 (p.len.toNat - 8))
  let s := if r.2 = 0 then s else s.modCnt k fun c => { c with pktMalf := satAdd c.pktMalf r.2 }
  if r.1.got ≠ [] ∧ r.1.got.length = r.1.total then (put s {}).attMessage k rsp no r.1.got else put s r.1

/-! ### Rows -/

/-- The oldest packet in link `k`'s receive buffer that satisfies `f`. -/
def State.localPkt (s : State) (k : Nat) (f : Pkt → Bool) : Option Pkt := (s.inboxOf k).find? f

/-- ATTEST: the oldest fragment is taken. -/
def State.attRow (s : State) (k : Nat) : State :=
  if !s.running then s
  else
    match s.localPkt k fun p => p.op = 0x21 with
    | some p => (s.consume k p).takeAtt k p
    | none => s

def execAttest (link : LinkId) (s : State) : Res := .next (s.attRow link.val).kick

/-- A KEYX packet of a KIND is taken and goes to `act`; one that is malformed or whose SID is not the exchange's fails it. A
link in QUARANTINE, or hostile, runs no KEYX. -/
def State.kexRow (s : State) (k kind : Nat) (act : Bytes → State → State) : State :=
  if !s.running then s
  else
    match s.localPkt k fun p => decide (p.op = 0x22) && (decide (kexKind p.data = kind) || decide (kind = 0 ∧ 2 < kexKind p.data)) with
    | none => s
    | some p =>
      let d := slice p.data 0 p.len.toNat
      let x := (s.link k).sec.kex
      let s := s.consume k p
      if !s.runsKex k then s
      else if kexOk d = false ∨ (x.phase ≠ 0 ∧ kexSid d ≠ x.sid) then s.proofFails k 3
      else act d s

/-- A far OPEN: the far end's part of the exchange, which this end starts too if it has not. -/
def State.takeOpen (s : State) (k : Nat) (d : Bytes) : State :=
  let x := (s.link k).sec.kex
  if x.farOpen ≠ [] then s.proofFails k 3
  else
    let s := s.modLink k fun l =>
      { l with sec := { l.sec with revoked := l.sec.revoked || kexRevoked d
                                   kex := { l.sec.kex with farOpen := d } } }
    if x.phase = 0 then s.startProof k else s.kexGo k

def execKeyxOpen (link : LinkId) (s : State) : Res :=
  .next (s.kexRow link.val 0 fun d s => s.takeOpen link.val d).kick

/-- A far EPH. -/
def State.takeEph (s : State) (k : Nat) (d : Bytes) : State :=
  let x := (s.link k).sec.kex
  if x.farOpen = [] ∨ x.farEph ≠ [] ∨ x.phase = 3 then s.proofFails k 3
  else (s.modKex k fun x => { x with farEph := d }).kexGo k

def execKeyxEph (link : LinkId) (s : State) : Res :=
  .next (s.kexRow link.val 1 fun d s => s.takeEph link.val d).kick

/-- A far CONFIRM that verifies proves the far end, and this end protects its frames from then on where keys are installed
(R395, R396); the exchange is over. -/
def State.takeConfirm (s : State) (k : Nat) (d : Bytes) : State :=
  let c := (s.link k).sec
  if c.kex.phase ≠ 3 ∨ slice d 8 48 ≠ s.confirmMac k (s.isLo k) then s.proofFails k 3
  else
    s.modLink k fun l =>
      let c := l.sec
      let mode : BitVec 2 := if c.kex.ephemeral then 2 else 1
      let c := if c.txOn then c.rekeyed else { c with txOn := c.keyed }
      { l with sec := { c with proven := true, mode := mode, kex := {} } }

def execKeyxConfirm (link : LinkId) (s : State) : Res :=
  .next (s.kexRow link.val 2 fun d s => s.takeConfirm link.val d).kick

/-- REKEY: a new exchange on a link in DATA (R401). -/
def State.rekeyLink (s : State) (k : Nat) : State := if s.inData k then s.startProof k else s

/-- ADVANCE: the sender advances as soon as R398 lets it. -/
def State.askAdvance (s : State) (k : Nat) : State :=
  s.modLink k fun l => { l with sec := { l.sec with advance := l.sec.advance || l.sec.txOn } }

/-- A write of LNK_SEC_CTL. -/
def State.writeSecCtl (s : State) (k : Nat) (v : Word) : State :=
  let s := if bit v 62 then s.askAdvance k else s
  if bit v 63 then s.rekeyLink k else s

def execRekey (link : LinkId) (s : State) : Res :=
  .next (s.mgWrite (linkBase link.val + 0x700) true (BitVec.ofNat 64 (2 ^ 63)) fun s => s.rekeyLink link.val)

def execAdvance (link : LinkId) (s : State) : Res :=
  .next (s.mgWrite (linkBase link.val + 0x700) true (BitVec.ofNat 64 (2 ^ 62)) fun s => s.askAdvance link.val)

/-- The previous slot is retired 100 us after the advance. -/
def State.retirePrev (s : State) (k : Nat) : State :=
  let c := (s.link k).sec
  if s.running && decide (c.prev.key ≠ []) && decide (c.prevAt + us5 100 ≤ s.clk.core) then
    s.modLink k fun l => { l with sec := { l.sec with prev := {} } }
  else s

def execPreviousSlotRetire (link : LinkId) (dt : Nat) (s : State) : Res := .next ((s.passNs dt).retirePrev link.val)

/-! ### HELLO (R132 to R135) -/

/-- Every 100 us after UP a HELLO leaves until both ACKs are exchanged. -/
def State.helloDue (s : State) (k : Nat) : State :=
  let g := (s.link k).guest
  if s.admits && g.sending && s.carriesFrames k && decide (g.due + us5 100 ≤ s.clk.act) then
    (s.modLink k fun l => { l with guest := { l.guest with due := l.guest.due + us5 100 } }).sendHello k
  else s

def execHelloTimer (link : LinkId) (dt : Nat) (s : State) : Res := .next ((s.passNs dt).helloDue link.val).kick

/-- What a far end of another passport leaves behind: no key of the link, and no proof (R134). -/
def LSec.fresh (c : LSec) : LSec :=
  { hostile := c.hostile, epochs := c.epochs, kexFail := c.kexFail, sids := c.sids, txEpoch := c.txEpoch, rxEpoch := c.rxEpoch }

/-- A HELLO: the Guestbook takes it, it is compared, and outside DISCOVERY it is answered; a verdict that is not MATCH or
ADMITTED fails the link there (R134), but a hostile link stays trained on its QUARANTINE row (R403). In DISCOVERY a good
verdict starts the proof. -/
def State.takeHello (s : State) (k : Nat) (h : Bytes) : State :=
  let g := (s.link k).guest
  let other := g.hello.any fun o => decide (helloPassport o ≠ helloPassport h)
  let rxAck := g.rxAck || helloAck h
  let s := s.modLink k fun l =>
    { l with guest := { l.guest with hello := some h, dig := passportWords h, heard := true, rxAck := rxAck, sending := l.guest.sending && !(rxAck && l.guest.txAck) }
             sec := if other then l.sec.fresh else l.sec
             att := if other then { nextMsg := l.att.nextMsg } else l.att }
  let s := s.judge k h
  let l := s.link k
  let good := decide (l.guest.verdict = .match_ ∨ l.guest.verdict = .admitted)
  if l.train.state ≠ 3 then
    let s := s.sendHello k
    if good ∨ (l.train.state = 5 ∧ l.guest.verdict = .qHostile) then s else s.failLink k
  else if good && !l.sec.proven then s.startProof k
  else s

/-- The oldest HELLO of link `k` is taken. -/
def State.helloRow (s : State) (k : Nat) : State :=
  if !s.running then s
  else
    match s.localPkt k fun p => p.op = 0x20 with
    | some p => (s.consume k p).takeHello k (slice p.data 0 112)
    | none => s

def execHello (link : LinkId) (s : State) : Res := .next (s.helloRow link.val).kick

end Sys2Proof.Machine
end

