-- ==== Sys2Proof/Machine/Security.lean ====
section
/-! DEFINITION. The commands of the security unit that are not about a link: partitions (R383), scrubbing (R410) and the SPDM
responder with its measurements (R405 to R407). -/

namespace Sys2Proof.Machine

/-! ### SEC_PART_CTL (Table 16.2) -/

def partBase (p : Nat) : Nat := 0x31000 + 0x100 * p

def Part.word (c : Part) : Word :=
  fields [(63, 1, b2n c.valid), (62, 1, b2n c.bf), (61, 1, b2n c.tasteOk), (60, 1, b2n c.rej), (0, 16, c.tag.toNat)]

/-- The fields a write of SEC_PART_CTL gives. -/
def partOf (v : Word) : Part := { valid := bit v 63, bf := bit v 62, tasteOk := bit v 61, tag := v.extractLsb' 0 16 }

/-- A write R383 refuses. -/
def State.partRefused (s : State) (p : Nat) (n : Part) : Bool :=
  let c := s.part p
  (c.valid && n.valid && decide (c.tag ≠ n.tag)) ||
    (n.valid && (List.range 16).any fun r => decide (r ≠ p) && (s.part r).valid && decide ((s.part r).tag = n.tag)) ||
    (c.valid && !n.valid && (decide (p = 0 ∨ s.boundQueues p ≠ 0) ||
      s.syncs.any fun e => e.2.alloc && decide (e.2.part.toNat = p)))

/-- A write of SEC_PART_CTL: refused whole with REJ, or in effect at once. -/
def State.writePart (s : State) (p : Nat) (v : Word) : State :=
  let n := partOf v
  { s with parts := s.parts.put {} p (if s.partRefused p n then { s.part p with rej := true } else n) }

def execSecPartCtlWrite (p : PartId) (valid bf tasteOk : Bool) (tag : BitVec 16) (s : State) : Res :=
  let v := { valid := valid, bf := bf, tasteOk := tasteOk, tag := tag : Part }.word
  .next (s.mgWrite (partBase p.val) true v fun s => s.writePart p.val v)

/-! ### Scrubbing -/

/-- A write of SEC_SCRUB_CTL: its settings, then GO. -/
def State.writeScrubCtl (s : State) (v : Word) : State :=
  let s := s.setReg 0x30058 (v &&& 0x7FC00000000003FF)
  if bit v 63 then s.scrubGo else s

/-- SEC_SCRUB_STAT. -/
def Scrub.word (x : Scrub) : Word :=
  fields [(63, 1, b2n x.busy), (62, 1, b2n x.done), (61, 1, b2n x.rej), (0, 32, x.bytes / 2 ^ 20)]

def execScrubGo (s : State) : Res :=
  .next (s.mgWrite 0x30058 true (s.reg 0x30058 ||| BitVec.ofNat 64 (2 ^ 63)) fun s => s.scrubGo)

def execScrubDone (s : State) : Res := .next s.scrubEnd

/-! ### SPDM (R405 to R407) -/

/-- Changes the responder. -/
def State.modSpdm (s : State) (f : Spdm → Spdm) : State := { s with sec := { s.sec with spdm := f s.sec.spdm } }

/-- The mailbox's request is in progress. -/
def Spdm.busy (x : Spdm) : Bool := x.queue.any fun e => e.1.isNone

/-- SEC_SPDM_STAT. -/
def Spdm.word (x : Spdm) : Word :=
  fields [(63, 1, b2n x.busy), (62, 1, b2n x.done), (61, 1, b2n x.err), (0, 13, x.rspLen)]

/-- One measurement (R406): the status and a digest. -/
def measure (st : Nat) (dig : Bytes) : Bytes := leBytes 4 st ++ slice dig 0 48

/-- The words of the plain registers at 8-byte steps. -/
def State.regList (s : State) (a n : Nat) : List (Nat × Word) := (List.range n).map fun i => (a + 8 * i, s.reg (a + 8 * i))

/-- The table committed last with a code. -/
def Tables.of (t : Tables) (code : Nat) : Tab Word :=
  match code with
  | 1 => t.train
  | 3 => t.route
  | 4 => t.schNext.getD t.sched
  | 5 => t.inn
  | 6 => t.smv
  | 7 => t.fmt
  | 8 => t.sip
  | 9 => t.menu
  | _ => []

/-- The committed image of a table as bytes: its bank's extent, which ends in TBL_PDIG and two reserved words (R468). -/
def Tables.image (t : Tables) (code : Nat) : Bytes :=
  let n := bankExtent code - 64
  wordsBytes ((List.range (n / 8)).map fun i => (t.of code).get (tableReset code (8 * i)) (8 * i)) ++
    leBytes 48 (t.pdig.get 0 code).toNat ++ zeros 16

/-- The digest of registers: SHA-384 of their words, each little-endian, in the order of Table 16.11 (DESIGN CHOICE, log 22). -/
def regDigest (l : List (Nat × Word)) : Bytes := sha384 (wordsBytes (l.map (·.2)))

/-- Index and table code of indices 4 to 11. -/
def measuredTables : List (Nat × Nat) := [(4, 1), (5, 3), (6, 4), (7, 5), (8, 6), (9, 7), (10, 8), (11, 9)]

/-- The words of a partition's registers. -/
def State.partWords (s : State) (p : Nat) : List (Nat × Word) :=
  (partBase p, (s.part p).word) :: s.regList (partBase p + 8) 1 ++ s.regList (partBase p + 0x40) 8 ++
    s.regList (0x32000 + 0x200 * p) 64

/-- The measurements of Table 16.11 of one moment, by ascending index: the index, the DMTF type and the 52 bytes. -/
def State.measurements (s : State) : List (Nat × Nat × Bytes) :=
  let pend := fun c => b2n (bit s.commit.pend c)
  let id := fields [(61, 3, b2n s.fuses.bench), (60, 1, b2n s.fuses.test)]
  [(1, 0, measure 0 Config.romDigest), (2, 2, measure 0 (regDigest [(0x30000, id)])),
    (3, 3, measure (pend 2) (leBytes 48 s.plan.imgDig.toNat))] ++
    (measuredTables.map fun e => (e.1, 3, measure (pend e.2) (sha384 (s.tables.image e.2)))) ++
    [(12, 3, measure 0 (regDigest (s.regList 0x30080 12 ++ s.regList 0x30100 24 ++ s.regList 0x30200 384 ++
      s.regList 0x30048 1)))] ++
    (List.range 16).map fun p =>
      (16 + p, 3, if bit s.boot.partBusy p then measure 2 (zeros 48)
        else measure 0 (regDigest (s.partWords p)))

/-- OpaqueData: the milestone time, and the chip number. -/
def State.spdmOpaque (s : State) : Bytes := leBytes 8 s.now.toNat ++ leBytes 2 s.chip.toNat

/-- What the responder answers from at this moment: slot 0 holds the product CA certificate and the leaf. -/
def State.spdmSelf (s : State) : SpdmSelf :=
  { certs := [Config.caCert, s.fuses.certificate], blocks := s.measurements.map fun e => (e.1, spdmBlock e.1 e.2.1 e.2.2)
    opq := s.spdmOpaque, key := s.fuses.key.toNat, nonce := s.random 32, signNonce := Config.signNonce s.freeCtr }

/-- GO of the mailbox. -/
def State.spdmGo (s : State) : State :=
  let n := bits (s.reg 0x38000) 0 13
  if s.sec.spdm.busy then s
  else if n = 0 ∨ 4096 < n ∨ s.boot.stage ≠ .ready then s.modSpdm fun x => { x with err := true, done := false }
  else
    let m := (wordsBytes ((List.range ((n + 7) / 8)).map fun i => s.reg (0x36000 + 8 * i))).take n
    s.modSpdm fun x => { x with err := false, done := false, queue := x.queue ++ [(none, 0, m)] }

/-- A write of SEC_SPDM_CTL. -/
def State.writeSpdm (s : State) (v : Word) : State :=
  let s := s.setReg 0x38000 (v &&& 0x1FFF)
  if bit v 63 then s.spdmGo else s

def execSpdmGo (s : State) : Res :=
  .next (s.mgWrite 0x38000 true (s.reg 0x38000 ||| BitVec.ofNat 64 (2 ^ 63)) fun s => s.spdmGo)

/-- Puts words into plain registers from an address on. -/
def State.setRegs (s : State) (a : Nat) (l : List Word) : State :=
  forEach l.zipIdx (fun e s => s.setReg (a + 8 * e.2) e.1) s

/-- The oldest request is answered: into the response buffer, or over ATTEST on its link. -/
def State.spdmAnswer (s : State) : State :=
  match s.sec.spdm.queue with
  | [] => s
  | (who, no, m) :: l =>
    let i := (who.map (· + 1)).getD 0
    let a := (s.sec.spdm.conns.get {} i).answer s.spdmSelf m
    let r := a.1
    let s := (s.modSpdm fun x => { x with queue := l, conns := x.conns.put {} i a.2 }).drew
    match who with
    | none => (s.setRegs 0x37000 (bytesWords r)).modSpdm fun x => { x with done := true, rspLen := r.length }
    | some k => if s.carriesFrames k then s.sendAtt k true no r else s

def execSpdmResponseDone (s : State) : Res := .next (if s.running then s.spdmAnswer.kick else s)

end Sys2Proof.Machine
end

