-- ==== Sys2Proof/Machine/Peek.lean ====
section
/-! DEFINITION. What every word of the management window reads as (chapter 19 and the owning chapters), without the effects
of a read: one function per region of Table 19.1. An address that no table assigns reads zero (R12). -/

namespace Sys2Proof.Machine

/-- Word `i` of a 384-bit digest, byte 8i + k in bits [8k + 7:8k]. -/
def digWord (d : BitVec 384) (i : Nat) : Word := d.extractLsb' (64 * i) 64

/-- An index into an array of words: `o` lies at `base + stride x i` for an `i` below `n`. -/
def at_ (o base stride n : Nat) : Option Nat :=
  if base ≤ o ∧ o < base + stride * n ∧ (o - base) % stride = 0 then some ((o - base) / stride) else none

/-! ### GBL_ (Table 19.2) -/

/-- BOOT_STAGE as coded in Table 2.16. -/
def BootStage.code : BootStage → Nat
  | .fuse => 0 | .sramInit => 1 | .selftest => 2 | .mgmtOpen => 3 | .laneClocks => 4 | .ready => 5 | .selftestFail => 6

/-- GBL_TCOMMIT_STAT (Table 19.5). -/
def Commit.word (c : Commit) : Word :=
  fields [(63, 1, b2n c.busy), (62, 1, b2n c.rej), (61, 1, b2n c.locked), (60, 1, b2n c.byInstr), (48, 8, c.code.toNat),
    (44, 4, c.result.toNat), (0, 16, c.detail.toNat)]

/-- GBL_RESET_STAT (Table 2.16). -/
def Boot.word (b : Boot) : Word :=
  fields [(60, 4, b.stage.code), (58, 2, b.lastReset.toNat), (32, 16, b.partBusy.toNat), (0, 24, b.linkBusy.toNat)]

/-- GBL_SPEED (Table 3.3). -/
def State.speedWord (s : State) : Word :=
  let k := (List.range 24).foldl (fun m n => max m (s.link n).ll.paceLocal.toNat) 0
  fields [(63, 1, b2n s.pins.hold), (48, 6, k), (32, 16, s.pins.periodMax.toNat), (0, 16, s.pins.period.toNat)]

/-- GBL_SPEED_CURVE: supply in mV, period bounds at 105 and 85 degrees (Table 3.4). -/
def speedCurve : List (Nat × Nat × Nat) :=
  [(850, 454, 420), (800, 497, 460), (750, 562, 520), (700, 616, 570), (650, 842, 780), (600, 1134, 1050), (550, 1566, 1450)]

/-- GBL_CHIP and GBL_PLAN_STAT (Tables 5.17, 5.18). -/
def Plan.chipWord (p : Plan) : Word := fields [(11, 1, b2n p.valid), (0, 11, p.chip.toNat)]
def Plan.statWord (p : Plan) : Word :=
  fields [(32, 32, p.serial.toNat), (16, 16, p.rack.toNat), (12, 4, p.err.toNat), (0, 8, p.shape.toNat)]

/-- GBL_LPORTn (Table 6.6). -/
def State.lportWord (s : State) (n : Nat) : Word :=
  match s.lportEntry n with
  | none => 0
  | some e =>
    let m := s.lportMembers n
    fields [(63, 1, 1), (32, 24, (m.map fun k => 2 ^ k).sum), (29, 3, e.cls.toNat), (27, 2, e.farKind.toNat),
      (16, 11, e.farId.toNat), (8, 4, (m.filter s.inData).length)]

def State.peekGbl (s : State) (o : Nat) : Word :=
  match o with
  | 0x0 => 0x4B4C0096
  | 0x8 => fields [(16, 8, 3), (8, 8, 2), (0, 8, Config.patchLevel.toNat)]
  | 0x10 | 0x110 | 0x118 => s.reg o
  | 0x18 => s.commit.word
  | 0x20 => BitVec.ofNat 64 (s.commit.pend.toNat / 2 * 2)
  | 0x108 => s.boot.word
  | 0x120 => s.speedWord
  | 0x200 => s.plan.chipWord
  | 0x208 => s.plan.statWord
  | 0x500 => s.fmtStat
  | 0x508 => s.fmtFlags
  | _ =>
    match at_ o 0x140 8 7, at_ o 0x210 8 6, at_ o 0x300 8 32, at_ o 0x400 16 16 with
    | some i, _, _, _ =>
      let c := speedCurve.getD i (0, 0, 0)
      fields [(32, 16, c.1), (16, 16, c.2.1), (0, 16, c.2.2)]
    | _, some i, _, _ => digWord s.plan.dig i
    | _, _, some n, _ => s.lportWord n
    | _, _, _, some i => s.fmtWord i
    | _, _, _, _ => 0

/-! ### FC_ (Table 17.4) -/

def State.peekFc (s : State) (o : Nat) : Word :=
  let f := s.fc
  match o with
  | 0x0 => f.status
  | 0x8 => f.first.word
  | 0x10 => f.first.time
  | 0x18 => f.lastStatus
  | 0x20 => f.lastFirst
  | 0x28 => f.lastTime
  | 0x30 => f.ctlWord
  | 0x38 | 0x48 | 0x50 | 0x58 => s.reg (0x10000 + o)
  | 0x40 => s.pins.hot.zeroExtend 64
  | 0x60 => fields [(32, 32, f.refused.toNat), (0, 32, f.count.toNat)]
  | _ => if 0x100 ≤ o ∧ o < 0x300 then (f.log.get [] ((o - 0x100) / 32)).getD ((o - 0x100) % 32 / 8) 0 else 0

/-! ### OBS_ (Tables 18.1, 18.10, 20.9, 20.10) -/

def Trace.statWord (t : Trace) : Word :=
  fields [(63, 1, b2n t.recording), (62, 1, b2n t.triggered), (61, 1, b2n t.full), (29, 29, t.oldest), (0, 29, t.next)]

def Ms.word (m : Ms) : Word :=
  fields [(63, 1, b2n m.valid), (62, 1, b2n m.busy), (61, 1, b2n m.fail), (60, 1, b2n m.rej), (59, 1, b2n m.root),
    (0, 32, m.delay.toNat)]

def Curfew.statWord (c : Curfew) : Word :=
  fields [(63, 1, b2n c.on), (60, 3, c.cause.toNat), (55, 5, c.link.toNat), (44, 11, c.origin.toNat), (0, 32, c.serial.toNat)]

def Curfew.cntWord (c : Curfew) : Word :=
  fields [(32, 32, c.entries.toNat), (16, 16, c.holdLost.toNat), (0, 16, c.refused.toNat)]

def TasteCnt.word (c : TasteCnt) : Word :=
  fields [(48, 16, c.done.toNat), (40, 8, c.noEntry.toNat), (32, 8, c.denied.toNat), (24, 8, c.busy.toNat),
    (16, 8, c.tooBig.toNat), (8, 8, c.aborted.toNat), (0, 8, c.rxRef.toNat)]

/-- OBS_BENCH_CTL. -/
def State.benchWord (s : State) : Word :=
  fields [(62, 1, b2n s.obs.bench.busy), (61, 1, b2n s.obs.bench.rej)] ||| s.reg 0x24000

def State.peekObs (s : State) (o : Nat) : Word :=
  let b := s.obs
  match o with
  | 0x0 | 0x10 | 0x28 | 0x30 | 0x40 | 0x48 | 0x108 | 0x120 | 0x218 | 0x300 | 0x400 | 0x408 | 0x410 => s.reg (0x20000 + o)
  | 0x8 => b.trace.lost
  | 0x18 => b.trace.statWord
  | 0x20 => BitVec.ofNat 64 b.trace.trigIdx
  | 0x38 => s.traceWord (bits (s.reg 0x20030) 0 19)
  | 0x50 => b.watts.zeroExtend 64
  | 0x100 => s.now
  | 0x110 => b.ms.word
  | 0x118 => BitVec.ofInt 64 s.clk.ofs
  | 0x208 => b.curfew.statWord
  | 0x210 => b.curfew.time
  | 0x220 => b.curfew.cntWord
  | 0x418 => b.tasteCnt.word
  | 0x420 => b.menuStat
  | 0x428 => fields [(32, 32, b.tasteSeq.toNat), (0, 29, b.tasteNext.toNat)]
  | 0x4000 => if s.fuses.bench then s.benchWord else 0
  | 0x4008 => if s.fuses.bench then s.reg 0x24008 else 0
  | _ =>
    match at_ o 0x80 16 8, at_ o 0x88 16 8, at_ o 0x1000 8 512, at_ o 0x2000 8 512, at_ o 0x8000 8 2048, at_ o 0x4100 8 32 with
    | some k, _, _, _, _, _ => (s.trigger k).word
    | _, some k, _, _, _, _ => (s.trigger k).value
    | _, _, some n, _, _, _ => b.csel.get 0 n
    | _, _, _, some n, _, _ => b.cnt.get 0 n
    | _, _, _, _, some i, _ => s.menuWord (i / 4) (i % 4)
    | _, _, _, _, _, some _ => if s.fuses.bench then s.reg (0x20000 + o) else 0
    | _, _, _, _, _, _ => 0

/-! ### SEC_ (Tables 16.2 to 16.4, 16.12 to 16.14, R385) -/

def State.peekSec (s : State) (o : Nat) : Word :=
  match o with
  | 0x0 => fields [(61, 3, b2n s.fuses.bench), (60, 1, b2n s.fuses.test)]
  | 0x38 => s.fuses.serial.extractLsb' 0 64
  | 0x40 => s.fuses.serial.extractLsb' 64 64
  | 0x48 | 0x58 | 0x60 | 0x8000 => s.reg (0x30000 + o)
  | 0x50 => fields [(63, 1, b2n s.opLocked)]
  | 0x68 => s.sec.scrub.word
  | 0x8008 => s.sec.spdm.word
  | _ =>
    match at_ o 0x8 8 6, at_ o 0x1000 0x100 16 with
    | some i, _ => digWord s.passport i
    | _, some p => (s.part p).word
    | _, _ =>
      let part := o % 0x100
      if 0x80 ≤ o ∧ o < 0xE0 ∨ 0x100 ≤ o ∧ o < 0x1C0 ∨ 0x200 ≤ o ∧ o < 0xE00 ∨ 0x2000 ≤ o ∧ o < 0x4000 ∨
          0x6000 ≤ o ∧ o < 0x8000 ∨ 0x1000 ≤ o ∧ o < 0x2000 ∧ (part = 8 ∨ 0x40 ≤ part ∧ part < 0x80) then s.reg (0x30000 + o)
      else 0

/-! ### LNK_ (Table 19.6) -/

/-- VERDICT as coded in Table 5.20. -/
def Verdict.code : Verdict → Nat
  | .none => 0 | .match_ => 1 | .admitted => 2 | .absent => 3 | .qUnexpected => 4 | .qWrongPeer => 5 | .qIdentity => 6
  | .qBench => 7 | .qClass => 8 | .qHostile => 9

def Link.guestWord (l : Link) : Word :=
  let h := l.guest.hello.getD []
  fields [(60, 4, l.guest.verdict.code), (58, 2, (helloKind h).toNat), (47, 11, (helloId h).toNat), (40, 7, (helloPort h).toNat),
    (37, 3, (helloClass h).toNat), (34, 3, helloPclass h), (33, 1, b2n l.guest.skew), (32, 1, b2n l.sec.encOn),
    (0, 32, bits (word64 h 8) 0 32)]

def LL.statWord (l : LL) (frozen : Bool) : Word :=
  fields [(52, 12, l.txSeq.toNat), (40, 12, l.acked.toNat), (28, 12, l.rxSeq.toNat), (17, 11, l.retry.length),
    (16, 1, b2n l.replay.isSome), (15, 1, b2n l.farFatal),
    (14, 1, b2n ((List.range 32).all fun p => (l.pools.get {} p).init)), (13, 1, b2n frozen), (6, 6, l.paceLocal.toNat),
    (0, 6, l.paceFar.toNat)]

def LLCounts.errWord (c : LLCounts) : Word :=
  fields [(48, 16, c.chkFail.toNat), (32, 16, c.seqDrop.toNat), (16, 16, c.nakRx.toNat), (0, 16, c.replays.toNat)]
def LLCounts.dropWord (c : LLCounts) : Word :=
  fields [(48, 16, c.frameMalf.toNat), (32, 16, c.ctlMalf.toNat), (16, 16, c.pktMalf.toNat), (0, 16, c.adapterRef.toNat)]

def Pool.word (q : Pool) : Word := fields [(55, 9, q.dedFar), (43, 12, q.out), (31, 12, q.occ), (22, 9, 16)]

def LL.sharedWord (l : LL) : Word :=
  fields [(50, 14, l.sharedFar), (36, 14, l.excessOf (List.range 32)), (22, 14, l.sharedOcc), (8, 14, l.sharedLocal)]

def LSec.statWord (c : LSec) : Word :=
  fields [(62, 2, c.mode.toNat), (61, 1, b2n c.proven), (60, 1, b2n (decide (c.prev.key ≠ []))), (59, 1, b2n c.revoked),
    (56, 3, c.hostile.toNat), (16, 16, c.txEpoch % 65536), (0, 16, c.rxEpoch % 65536)]
def LSec.cntWord (c : LSec) : Word := fields [(32, 32, c.epochs.toNat), (16, 16, c.kexFail.toNat)]

def State.peekLnk (s : State) (k o : Nat) : Word :=
  let l := s.link k
  match o with
  | 0x100 => l.train.ctlWord
  | 0x108 => l.train.statWord
  | 0x200 => fields [(2, 2, l.fec.cur.toNat), (0, 2, l.fec.req.toNat)]
  | 0x208 => fields [(32, 32, l.fec.uncorr.toNat), (0, 32, l.fec.corr.toNat)]
  | 0x300 => l.guestWord
  | 0x400 => s.reg (linkBase k + 0x400)
  | 0x408 => l.ll.statWord s.obs.curfew.on
  | 0x410 => l.ll.cnt.errWord
  | 0x418 => l.ll.cnt.dropWord
  | 0x420 => l.ll.cnt.paceDrop.zeroExtend 64
  | 0x600 => l.ll.sharedWord
  | 0x708 => l.sec.statWord
  | 0x710 => l.sec.cntWord
  | _ =>
    match at_ o 0x308 8 6, at_ o 0x500 8 32 with
    | some i, _ => l.guest.dig.getD i 0
    | _, some p => (l.ll.pools.get {} p).word
    | _, _ => 0

/-! ### LANE_ (Table 19.7) -/

def State.peekLane (s : State) (n o : Nat) : Word :=
  let l := s.lane n
  match o with
  | 0x00 => l.statWord
  | 0x08 => l.ctlWord
  | 0x10 => l.txeqWord
  | 0x18 => l.rxstatWord
  | 0x20 => l.rx.dfe0
  | 0x28 => l.rx.dfe1.zeroExtend 64
  | 0x30 => l.eye.ctlWord
  | 0x38 => l.eye.statWord
  | 0x40 => l.prbs.ctlWord
  | 0x48 => l.prbs.cntWord
  | 0x50 => l.align.word
  | 0x58 => fields [(32, 32, l.hdrErr.toNat), (0, 32, l.fecFix.toNat)]
  | 0x60 => l.eq.word
  | _ => 0

/-! ### PTR_ and SCH_ -/

def PtrCnt.undeliv (c : PtrCnt) : Word :=
  fields [(48, 16, c.noRoute.toNat), (32, 16, c.hopLimit.toNat), (16, 16, c.upUp.toNat), (0, 16, c.behind.toNat)]
def PtrCnt.onwardWord (c : PtrCnt) : Word :=
  fields [(48, 16, c.sent.toNat), (32, 16, c.stale.toNat), (16, 16, c.full.toNat), (0, 16, c.hop.toNat)]

def State.peekPtr (s : State) (o : Nat) : Word :=
  if o < 0x20000 then s.tables.route.get 0 o
  else if o = 0x20000 then s.ptr.undeliv
  else if o = 0x20008 then s.ptr.onwardWord
  else 0

/-- The words of one link in the SCH_ window (Tables 8.3 to 8.6). -/
def State.peekSchLink (s : State) (n o : Nat) : Word :=
  let c := (s.link n).sch
  match o with
  | 0x00 => s.vcw n
  | 0x08 => fields [(63, 1, b2n (decide (c.scale < 65536))), (41, 17, c.scale), (0, 17, c.capNow)]
  | 0x10 => fields [(24, 24, winSum c.win2), (0, 24, winSum c.win6)]
  | _ =>
    match at_ o 0x100 8 170, at_ o 0x800 8 85 with
    | some i, _ => s.shp n (i / 2) (i % 2)
    | _, some i => fields [(32, 24, c.pOf i), (0, 24, c.gOf i)]
    | _, _ => 0

def Gate.word (g : Gate) : Word := fields [(32, 32, g.yellow.toNat), (0, 32, g.red.toNat)]

def State.peekSch (s : State) (o : Nat) : Word :=
  if o < 0x60000 then s.peekSchLink (o / 0x4000) (o % 0x4000)
  else if o < 0x60400 then
    match o % 32 with
    | 0 => s.gateWord ((o - 0x60000) / 32) 0
    | 8 => s.gateWord ((o - 0x60000) / 32) 1
    | 16 => (s.gate ((o - 0x60000) / 32)).word
    | _ => 0
  else if o = 0x70000 then s.schStat
  else 0

/-! ### STW_, Q_ and SYNC_ (Tables 11.1, 11.4, 11.6) -/

def State.peekStw (s : State) (n o : Nat) : Word :=
  let w := s.stw n
  match o with
  | 0x0 => w.ctl
  | 0x8 => fields [(60, 4, w.ctxs.length), (59, 1, b2n w.cur.isSome), (46, 13, w.cur.getD 0),
      (42, 4, (w.cur.map fun q => (s.queue q).part).getD 0)]
  | 0x10 => fields [(32, 32, w.retired.toNat), (0, 32, w.loads.toNat)]
  | _ =>
    match at_ o 0x100 8 8 with
    | some i =>
      match w.ctxs.find? fun c => c.1 = i with
      | some c => fields [(63, 1, 1), (50, 13, c.2.queue)]
      | none => 0
    | none => 0

/-- STATE as coded in Table 11.2. -/
def QSt.code : QSt → Nat
  | .unbound => 0 | .idle => 1 | .ready => 2 | .active => 3 | .waiting => 4 | .halted => 5 | .faulted => 6

/-- The sync object a WAITING queue waits on. -/
def Park.obj : Park → Nat
  | .sync o _ _ => o
  | _ => 0

def State.qptr (s : State) (q : Nat) : Word := fields [(32, 32, (s.queue q).tail.toNat), (0, 32, (s.queue q).head.toNat)]
def State.qstat (s : State) (q : Nat) : Word :=
  let d := s.queue q
  fields [(60, 4, d.st.code), (54, 6, ((s.ctxOf q).map (·.1)).getD 0), (53, 1, b2n (s.ctxOf q).isSome), (52, 1, b2n d.excess),
    (51, 1, b2n d.pend), (47, 4, d.bindErr.toNat), (35, 12, if d.st = .waiting then d.park.obj else 0),
    (22, 13, s.outstanding q), (0, 22, d.pc)]
def State.qfault (s : State) (q : Nat) : Word :=
  let d := s.queue q
  fields [(56, 8, d.code.toNat), (52, 4, d.info.toNat), (51, 1, b2n d.ovf), (29, 22, d.faultPc.toNat), (28, 1, b2n d.dbRej)]

def State.peekQ (s : State) (q w : Nat) : Word :=
  match w with
  | 0 => (s.queue q).bind
  | 1 => (s.queue q).ring
  | 2 => (s.queue q).save
  | 3 => s.qptr q
  | 4 => s.qstat q
  | 5 => s.qfault q
  | _ => 0

def State.peekSync (s : State) (n w : Nat) : Word :=
  let o := s.sync n
  if w = 0 then o.value
  else fields [(63, 1, b2n o.alloc), (59, 4, o.part.toNat), (58, 1, b2n o.rej), (44, 14, o.waiters.length)]

/-! ### SMV_ (Tables 13.8, 15.7) -/

/-- STATE as coded in Table 13.8. -/
def GSt.code : GSt → Nat
  | .idle => 0 | .waiting => 1 | .running => 2 | .parking => 3 | .parked => 4

def Grp.statWord (d : Grp) : Word :=
  fields [(60, 4, d.st.code), (56, 4, d.gen.toNat), (52, 4, d.cause.toNat), (50, 2, d.insns.length), (36, 12, d.next),
    (20, 16, (scaleDigest d.scale).toNat)]
def Grp.infoWord (d : Grp) : Word :=
  fields [(54, 10, d.myRow), (50, 4, d.myCol), (34, 16, d.otDig.toNat), (0, 32, d.scale.toNat)]
def Grp.cntWord (d : Grp) : Word := fields [(32, 32, d.chunks.toNat), (16, 16, d.aborts.toNat)]

/-- SMV_SIPSTATg: awaiting the result once this member's up packet has gone. -/
def Grp.sipWord (d : Grp) : Word :=
  let st := match d.sipOp with
    | some o => if o.sent then 2 else 1
    | none => if d.arr = [] then 0 else 1
  fields [(62, 2, st), (50, 12, d.sipSeq), (44, 6, d.arr.length)]

def State.countGrp (s : State) (st : GSt) : Nat := (s.groups.filter fun e => decide (e.2.st = st)).length

def State.peekSmv (s : State) (o : Nat) : Word :=
  let v := s.smv
  if o < 0x40000 then s.smvTab o
  else if o < 0x80000 then s.sipTab (o - 0x40000)
  else if 0x90000 ≤ o ∧ o < 0x94000 then
    let d := s.grp ((o - 0x90000) / 32)
    match o % 32 with
    | 0 => d.statWord
    | 8 => d.infoWord
    | 24 => d.cntWord
    | _ => 0
  else
    match at_ o 0xA0000 8 512 with
    | some g => (s.grp g).sipWord
    | none =>
      match o with
      | 0x80000 => s.reg 0x780000
      | 0x80008 => fields [(57, 7, s.activeGroups), (47, 10, s.countGrp .parked), (37, 10, s.countGrp .waiting)]
      | 0x80010 => fields [(48, 16, v.noGroup.toNat), (32, 16, v.genOld.toNat), (16, 16, v.role.toNat), (0, 16, v.noSlot.toNat)]
      | 0x80018 => v.commit
      | 0x80020 => v.sipCommit
      | 0x80028 => fields [(48, 16, v.sipNotMine.toNat), (32, 16, v.sipNoTree.toNat), (16, 16, v.sipGenOld.toNat),
          (0, 16, v.sipRole.toNat)]
      | _ => 0

/-! ### INN_ (Tables 10.4, 10.10 to 10.14) -/

/-- AUX of a lodging table entry. -/
def Lodge.aux (e : Lodge) : Nat :=
  if e.kind = kGuest ∨ e.kind = kReplica then e.frame.toNat
  else if e.kind = kNote then e.until_ / 2 ^ 12 % 2 ^ 25
  else if e.kind = kDir then e.until_ / 2 ^ 20 % 2 ^ 16
  else 0

/-- A lodging table entry's 128 bits. The bit of SPAD belongs to GUEST and REPLICA entries. -/
def Lodge.image (e : Lodge) : Nat :=
  let r := fun i => (e.repl.getD i 0).toNat
  e.kind <<< 125 ||| e.key <<< 90 ||| e.part.toNat <<< 86 ||| b2n e.pin <<< 85 ||| b2n e.busy <<< 84 |||
    (if e.kind = kDir then 0 else b2n e.spad) <<< 83 ||| e.chip.toNat <<< 72 ||| e.repl.length <<< 69 |||
    r 0 <<< 58 ||| r 1 <<< 47 ||| r 2 <<< 36 ||| r 3 <<< 25 ||| e.aux

/-- Word `w` of the entry that the window shows for set `n`. -/
def State.lodgeWord (s : State) (n w : Nat) : Word :=
  BitVec.ofNat 64 ((s.lodgeAt (8 * n + bits (s.reg 0x800028) 0 3)).image / 2 ^ (64 * w))

def State.freeFrames (s : State) (spad : Bool) : Nat := (s.pool spad).1 - (s.heldFrames spad).length

def State.peekInn (s : State) (o : Nat) : Word :=
  let i := s.inn
  match o with
  | 0x0 => s.reg 0x800000
  | 0x8 => fields [(60, 4, i.placements.length), (49, 11, i.cands.length), (41, 8, min 255 s.work), (21, 20, s.freeFrames false),
      (9, 12, s.freeFrames true)]
  | 0x10 => fields [(32, 32, i.cnt.migrated.toNat), (0, 32, i.cnt.replicated.toNat)]
  | 0x18 => fields [(32, 32, i.cnt.abandoned.toNat), (0, 32, i.cnt.refused.toNat)]
  | 0x20 => fields [(32, 32, i.cnt.hintDrop.toNat), (0, 32, i.cnt.repaired.toNat)]
  | 0x28 => s.reg 0x800028
  | 0x30 => i.stat
  | _ =>
    if 0x200000 ≤ o ∧ o < 0x400000 then s.lodgeWord ((o - 0x200000) / 16) (o % 16 / 8)
    else if o < 0x80000 then s.innWord o
    else 0

/-! ### TBL_ (Table 19.4) -/

/-- A word of a bank that is part of its table or of its TBL_PDIG reads back. -/
def State.peekTbl (s : State) (o : Nat) : Word :=
  match at_ o 0x10000 8 256 with
  | some r => s.tables.train.get (tableReset 1 (8 * r)) (8 * r)
  | none =>
    let a := 0xC00000 + o
    if decide (bankOf a = 0) || bankReserved a then 0
    else if bankOf a = 2 then s.reg a &&& planFields (s.bank 2) (a - bankBase 2)
    else s.reg a &&& bankFields a

/-! ### PRT_ (Tables 11.7, 14.6, 19.9, 19.10) -/

/-- PRT_QFSUMk: the partition's FAULTED queues of 64k to 64k + 63. -/
def State.faultSum (s : State) (p k : Nat) : Word :=
  fields ((List.range 64).map fun j => (j, 1, b2n (s.ownsQueue p (64 * k + j) && decide ((s.queue (64 * k + j)).st = .faulted))))

/-- PRT_CNTn (R436). -/
def State.tenantCnt (s : State) (p n : Nat) : Word :=
  let w := s.obs.csel.get 0 n
  if bit w 63 && bit w 62 && decide (bits w 58 4 = p) then s.obs.view.get 0 n else 0

def State.peekPrt (s : State) (p o : Nat) : Word :=
  let q := o % 0x10000 / 8
  let own := fun (w : Word) => if s.ownsQueue p q then w else 0
  match o / 0x10000 with
  | 2 => own (s.qptr q)
  | 3 => own (s.qstat q)
  | 4 => own (s.qfault q)
  | 5 => if o % 16 = 0 ∧ s.syncOwned (q / 2) p = true then (s.sync (q / 2)).value else 0
  | 6 => if q < 128 then s.faultSum p q else 0
  | 7 =>
    if q = 0 then fields [(1, 1, b2n (bit s.fmtFlags (32 + p))), (0, 1, b2n (bit s.fmtFlags p))]
    else if q = 1 then s.obs.watts.zeroExtend 64
    else 0
  | 8 => if q < 512 then s.tenantCnt p q else 0
  | 9 => if q = 0 ∧ (s.part p).valid = true then fields [(16, 4, p), (0, 16, (s.part p).tag.toNat)] else 0
  | _ => 0

/-! ### The whole window (Table 19.1) -/

/-- The word at an address of the window that is a multiple of 8, apart from OBS_SCAN_DATA. -/
def State.peek (s : State) (a : Nat) : Word :=
  if a < 0x10000 then s.peekGbl a
  else if a < 0x20000 then s.peekFc (a - 0x10000)
  else if a < 0x30000 then s.peekObs (a - 0x20000)
  else if a < 0x40000 then s.peekSec (a - 0x30000)
  else if 0x100000 ≤ a ∧ a < 0x1C0000 then s.peekLnk ((a - 0x100000) / 0x8000) (a % 0x8000)
  else if 0x200000 ≤ a ∧ a < 0x2C0000 then s.peekLane ((a - 0x200000) / 0x2000) (a % 0x2000)
  else if 0x300000 ≤ a ∧ a < 0x380000 then s.peekPtr (a - 0x300000)
  else if 0x380000 ≤ a ∧ a < 0x400000 then s.peekSch (a - 0x380000)
  else if 0x400000 ≤ a ∧ a < 0x440000 then s.peekStw ((a - 0x400000) / 0x1000) (a % 0x1000)
  else if 0x500000 ≤ a ∧ a < 0x580000 then s.peekQ ((a - 0x500000) / 64) (a % 64 / 8)
  else if 0x600000 ≤ a ∧ a < 0x610000 then s.peekSync ((a - 0x600000) / 16) (a % 16 / 8)
  else if 0x700000 ≤ a ∧ a < 0x800000 then s.peekSmv (a - 0x700000)
  else if 0x800000 ≤ a ∧ a < 0xC00000 then s.peekInn (a - 0x800000)
  else if 0xC00000 ≤ a ∧ a < 0x1000000 then s.peekTbl (a - 0xC00000)
  else if 0x1000000 ≤ a ∧ a < 0x2000000 then s.peekPrt ((a - 0x1000000) / 0x100000) (a % 0x100000)
  else 0

end Sys2Proof.Machine
end

