-- ==== Sys2Proof/Machine/Mgmt.lean ====
section
/-! DEFINITION. Reads and writes of the management window: what a read clears (RC fields, R10), what a write of each register
does (R8, R12, R465), and the rows of an access to a register without a row of its own. -/

namespace Sys2Proof.Machine

/-! ### What a read clears -/

/-- The count that a read of the word at `a` shows is brought up to the present, whatever the size of the read and in curfew too:
a lane's counts, and before a counter of event 2/1 (Table 18.2) those of the lanes it selects. -/
def State.settle (s : State) (a : Nat) : State :=
  if 0x200000 ≤ a ∧ a < 0x2C0000 then s.laneSettle ((a - 0x200000) / 0x2000) (a % 0x2000)
  else if 0x22000 ≤ a ∧ a < 0x23000 then
    let w := s.obs.csel.get 0 ((a - 0x22000) / 8)
    if bits w 48 5 = 2 ∧ bits w 0 8 = 1 then forEach (List.range 96) (fun n s => s.headSettle n) s else s
  else s

def State.clearObs (s : State) (o : Nat) : State :=
  match o with
  | 0x8 => s.modObs fun b => { b with trace := { b.trace with lost := 0 } }
  | 0x220 => s.modObs fun b => { b with curfew := { b.curfew with entries := 0, holdLost := 0, refused := 0 } }
  | 0x418 => s.modObs fun b => { b with tasteCnt := {} }
  | _ => s

def State.clearLnk (s : State) (k o : Nat) : State :=
  match o with
  | 0x208 => s.modLink k fun l => { l with fec := { l.fec with uncorr := 0, corr := 0 } }
  | 0x410 => s.modCnt k fun c => { c with chkFail := 0, seqDrop := 0, nakRx := 0, replays := 0 }
  | 0x418 => s.modCnt k fun c => { c with frameMalf := 0, ctlMalf := 0, pktMalf := 0, adapterRef := 0 }
  | 0x420 => s.modCnt k fun c => { c with paceDrop := 0 }
  | 0x710 => s.modLink k fun l => { l with sec := { l.sec with epochs := 0, kexFail := 0 } }
  | _ => s

def State.clearLane (s : State) (n o : Nat) : State :=
  match o with
  | 0x48 => s.modLane n fun l => { l with prbs := { l.prbs with bits := 0, errs := 0 } }
  | 0x58 => s.modLane n fun l => { l with hdrErr := 0, fecFix := 0 }
  | _ => s

def State.clearSmv (s : State) (o : Nat) : State :=
  match at_ o 0x90018 32 512 with
  | some g => s.modGrp g fun d => { d with chunks := 0, aborts := 0 }
  | none =>
    match o with
    | 0x80010 => s.modSmv fun v => { v with noGroup := 0, genOld := 0, role := 0, noSlot := 0 }
    | 0x80028 => s.modSmv fun v => { v with sipNotMine := 0, sipNoTree := 0, sipGenOld := 0, sipRole := 0 }
    | _ => s

def State.clearInn (s : State) (o : Nat) : State :=
  match o with
  | 0x10 => s.modInnCnt fun c => { c with migrated := 0, replicated := 0 }
  | 0x18 => s.modInnCnt fun c => { c with abandoned := 0, refused := 0 }
  | 0x20 => s.modInnCnt fun c => { c with hintDrop := 0, repaired := 0 }
  | _ => s

/-- The RC fields of the word at `a` are cleared. -/
def State.clearRc (s : State) (a : Nat) : State :=
  if a = 0x120 then s.modPins fun p => { p with periodMax := 0 }
  else if a = 0x10060 then { s with fc := { s.fc with refused := 0 } }
  else if 0x20000 ≤ a ∧ a < 0x30000 then s.clearObs (a - 0x20000)
  else if 0x100000 ≤ a ∧ a < 0x1C0000 then s.clearLnk ((a - 0x100000) / 0x8000) (a % 0x8000)
  else if 0x200000 ≤ a ∧ a < 0x2C0000 then s.clearLane ((a - 0x200000) / 0x2000) (a % 0x2000)
  else if a = 0x320000 then s.modPtr fun c => { c with noRoute := 0, hopLimit := 0, upUp := 0, behind := 0 }
  else if a = 0x320008 then s.modPtr fun c => { c with sent := 0, stale := 0, full := 0, hop := 0 }
  else if 0x3E0000 ≤ a ∧ a < 0x3E0400 ∧ a % 32 = 16 then
    let j := (a - 0x3E0000) / 32
    { s with gates := s.gates.put {} j { s.gate j with yellow := 0, red := 0 } }
  else if 0x400000 ≤ a ∧ a < 0x440000 ∧ a % 0x1000 = 0x10 then
    s.modStw ((a - 0x400000) / 0x1000) fun w => { w with retired := 0, loads := 0 }
  else if 0x700000 ≤ a ∧ a < 0x800000 then s.clearSmv (a - 0x700000)
  else if 0x800000 ≤ a ∧ a < 0xC00000 then s.clearInn (a - 0x800000)
  else s

/-! ### What a write does -/

/-- A plain register takes the bits of a mask. -/
def State.plain (s : State) (a : Nat) (m v : Word) : State := s.setReg a (v &&& m)

/-- GBL_SPAD: writable until the first accepted commit, and not during one (R472). -/
def State.writeSpad (s : State) (v : Word) : State :=
  if s.commit.locked || s.commit.busy then s else s.plain 0x110 0x0001FFFFFFFFFFFF v

/-- A write of GBL_RESET_CTL; BLOCK_RST begins after the response. -/
def State.writeReset (s : State) (v : Word) : State :=
  let s := s.writeResetCtl v
  if bit v 63 then s.oweReset else s

def State.writeGbl (s : State) (o : Nat) (v : Word) : State :=
  match o with
  | 0x10 => s.writeTcommit v
  | 0x100 => s.writeReset v
  | 0x110 => s.writeSpad v
  | 0x118 => s.plain 0x118 0x000FFFFF000FFFFF v
  | 0x508 => { s with fmtFlags := s.fmtFlags &&& ~~~v }
  | _ => s

def State.writeFc (s : State) (o : Nat) (v : Word) : State :=
  match o with
  | 0x0 => s.clearStatus v
  | 0x8 => s.clearFirst v
  | 0x30 => s.writeErrctl v
  | 0x38 => s.plain 0x10038 0x3FFF v
  | 0x48 => s.plain 0x10048 0xC0000000000007FF v
  | 0x50 => s.writeInject v
  | 0x58 => s.plain 0x10058 0xFFFFFFFFFFFFFFFF v
  | _ => s

/-- A write of OBS_MS_CTL: GROUP and SAMPLES, then GO. -/
def State.writeMsCtl (s : State) (v : Word) : State :=
  let s := s.plain 0x20108 0x1FF00FF v
  if bit v 63 then s.msStart else s

/-- OBS_SCAN_CTL (R459): SEEK goes to SECTION and INST, START to the first header. Both together act as START. -/
def State.writeScanCtl (s : State) (v : Word) : State :=
  let s := s.plain 0x20300 0xFFFFFFFF v
  if bit v 63 then s.modObs fun b => { b with scan := {} }
  else if bit v 62 then s.modObs fun b => { b with scan := { sect := bits v 16 16, inst := bits v 0 16 } }
  else s

/-- The exerciser's registers exist only in a bench block (R485). -/
def State.writeBenchRegs (s : State) (o : Nat) (v : Word) : State :=
  if !s.fuses.bench then s
  else if o = 0x4000 then s.writeBench v
  else if o = 0x4008 ∨ 0x4100 ≤ o ∧ o < 0x4200 then s.setReg (0x20000 + o) v
  else s

def State.writeObs (s : State) (o : Nat) (v : Word) : State :=
  match o with
  | 0x0 => s.plain 0x20000 0xF v
  | 0x10 => s.writeTraceCtl (v &&& s.traceMask)
  | 0x28 | 0x408 => s.plain (0x20000 + o) 0x03FFFFFFFFFFFFFF v
  | 0x30 => s.plain 0x20030 0x7FFFF v
  | 0x40 => s.plain 0x20040 0xFFFFFFFFFFFF0003 v
  | 0x48 => s.writeExport v
  | 0x108 => s.writeMsCtl v
  | 0x120 => s.setReg 0x20120 v
  | 0x200 => if bit v 63 then s.enterCurfewOwn 1 else s
  | 0x218 => s.writeCurfewAt v
  | 0x300 => s.writeScanCtl v
  | 0x400 => s.plain 0x20400 0x87FF000000000000 v
  | 0x410 => s.plain 0x20410 0x83FFFFFFFFFFFFFF v
  | _ =>
    match at_ o 0x80 16 8, at_ o 0x88 16 8, at_ o 0x1000 8 512, at_ o 0x2000 8 512 with
    | some k, _, _, _ => s.writeTrig k v
    | _, some k, _, _ => s.writeTrigValue k v
    | _, _, some n, _ => s.writeCsel n v
    | _, _, _, some n => s.writeCnt n v
    | _, _, _, _ => s.writeBenchRegs o v

/-- A write of SEC_PART_QUOTA takes effect on queues bound at once (R274). -/
def State.writeQuota (s : State) (p : Nat) (v : Word) : State :=
  (s.plain (partBase p + 8) 0xFFFFFFFFFF9FFFFF v).markExcess p

def State.writeSec (s : State) (o : Nat) (v : Word) : State :=
  let part := o % 0x100
  match o with
  | 0x48 => s.plain 0x30048 0x800000000000003F v
  | 0x58 => s.writeScrubCtl v
  | 0x60 => s.plain 0x30060 0x03FFFFFFFFFFFFFF v
  | 0x8000 => s.writeSpdm v
  | _ =>
    if 0x80 ≤ o ∧ o < 0xE0 then if s.opLocked then s else s.setReg (0x30000 + o) v
    else if 0x100 ≤ o ∧ o < 0x1C0 ∨ 0x200 ≤ o ∧ o < 0xE00 ∨ 0x6000 ≤ o ∧ o < 0x7000 then s.setReg (0x30000 + o) v
    else if 0x2000 ≤ o ∧ o < 0x4000 then s.plain (0x30000 + o) 0x7777777777777777 v
    else if 0x1000 ≤ o ∧ o < 0x2000 then
      if part = 0 then s.writePart ((o - 0x1000) / 0x100) v
      else if part = 8 then s.writeQuota ((o - 0x1000) / 0x100) v
      else if 0x40 ≤ part ∧ part < 0x80 then s.plain (0x30000 + o) 0xF3FFFFFFFFFFFFFF v
      else s
    else s

/-- LNK_FEC_CTL: a CLASS_REQ of 0b11 leaves the field unchanged. -/
def State.writeFecCtl (s : State) (k : Nat) (v : Word) : State :=
  if bits v 0 2 = 3 then s else s.modLink k fun l => { l with fec := { l.fec with req := v.extractLsb' 0 2 } }

def State.writeLnk (s : State) (k o : Nat) (v : Word) : State :=
  match o with
  | 0x100 => s.writeTrainCtl k v
  | 0x200 => s.writeFecCtl k v
  | 0x400 => s.plain (linkBase k + 0x400) 0x00003FFF0000FFFF v
  | 0x700 => s.writeSecCtl k v
  | _ => s

def State.writeLane (s : State) (n o : Nat) (v : Word) : State :=
  match o with
  | 0x08 => s.writeLaneCtl n v
  | 0x10 => s.writeTxeq n v
  | 0x30 => s.writeEye n v
  | 0x40 => s.writePrbs n v
  | 0x50 => s.writeAlign n v
  | 0x60 => s.writeEqReq n v
  | _ => s

def State.writeQ (s : State) (q w : Nat) (v : Word) : State :=
  match w with
  | 0 | 1 | 2 => s.writeBind q w v
  | 6 => s.writeQctl q v
  | 7 => s.doDoorbell q none (v.extractLsb' 0 32)
  | _ => s

/-- SMV_GCTLg: bits set together act in the order PARK, RESUME, ABORT (log 81). -/
def State.writeGctl (s : State) (g : Nat) (v : Word) : State :=
  let s := if bit v 63 then s.doPark g else s
  let s := if bit v 62 then s.doResume g else s
  if bit v 61 then s.abortGroup g causeDriver else s

def State.writeSmv (s : State) (o : Nat) (v : Word) : State :=
  match at_ o 0x90010 32 512 with
  | some g => s.writeGctl g v
  | none => if o = 0x80000 then s.plain 0x780000 0xFFFF v else s

/-- A write in the window of partition `p` reaches what `p` owns, and nothing else (R291). -/
def State.writePrt (s : State) (p o : Nat) (v : Word) : State :=
  let q := o % 0x10000 / 8
  match o / 0x10000 with
  | 0 => s.doDoorbell q (some p) (v.extractLsb' 0 32)
  | 1 => if s.ownsQueue p q then s.writeQctl q v else s
  | 5 => if o % 16 = 8 then s.tenantAdd p (q / 2) v else s
  | 7 =>
    if q = 0 then
      { s with fmtFlags := s.fmtFlags &&& ~~~(fields [(32 + p, 1, b2n (bit v 1)), (p, 1, b2n (bit v 0))]) }
    else s
  | _ => s

/-- The effect of writing `v` to the word at `a`, apart from RESUME (R457). -/
def State.writeReg (s : State) (a : Nat) (v : Word) : State :=
  if a < 0x10000 then s.writeGbl a v
  else if a < 0x20000 then s.writeFc (a - 0x10000) v
  else if a < 0x30000 then s.writeObs (a - 0x20000) v
  else if a < 0x40000 then s.writeSec (a - 0x30000) v
  else if 0x100000 ≤ a ∧ a < 0x1C0000 then s.writeLnk ((a - 0x100000) / 0x8000) (a % 0x8000) v
  else if 0x200000 ≤ a ∧ a < 0x2C0000 then s.writeLane ((a - 0x200000) / 0x2000) (a % 0x2000) v
  else if 0x400000 ≤ a ∧ a < 0x440000 then
    if a % 0x1000 = 0 then s.writeStwCtl ((a - 0x400000) / 0x1000) v else s
  else if 0x500000 ≤ a ∧ a < 0x580000 then s.writeQ ((a - 0x500000) / 64) (a % 64 / 8) v
  else if 0x600000 ≤ a ∧ a < 0x610000 then
    if a % 16 = 0 then s.writeSyncVal ((a - 0x600000) / 16) v
    else s.writeSyncCtl ((a - 0x600000) / 16) (bit v 63) (v.extractLsb' 59 4)
  else if 0x700000 ≤ a ∧ a < 0x800000 then s.writeSmv (a - 0x700000) v
  else if a = 0x800000 then s.plain a 0xC0FFFFFFFFFFFFFF v
  else if a = 0x800028 then s.plain a 7 v
  else if 0xC00000 ≤ a ∧ a < 0x1000000 then s.writeBank a v
  else if 0x1000000 ≤ a ∧ a < 0x2000000 then s.writePrt ((a - 0x1000000) / 0x100000) (a % 0x100000) v
  else s

/-! ### Accesses of 4 bytes (R465) -/

/-- Registers that take no 4-byte write. -/
def only8 (a : Nat) : Bool :=
  decide (0x600000 ≤ a ∧ a < 0x610000 ∧ a % 16 = 0) || decide (0x1000000 ≤ a ∧ a % 0x100000 / 0x10000 = 5 ∧ a % 16 = 8) ||
    decide (0x22000 ≤ a ∧ a < 0x23000) || decide (a = 0x20120 ∨ a = 0x20218)

/-- A doorbell register, of which only the low half is a doorbell. -/
def isDb (a : Nat) : Bool :=
  decide (0x500000 ≤ a ∧ a < 0x580000 ∧ a % 64 = 56) || decide (0x1000000 ≤ a ∧ a % 0x100000 < 0x10000)

/-- The register's W1C fields are in this word. -/
def isW1c (a : Nat) : Bool :=
  decide (a = 0x508 ∨ a = 0x10000 ∨ a = 0x10008) || decide (0x1000000 ≤ a ∧ a % 0x100000 = 0x70000)

/-- What a 4-byte write finds in the other half: the word as it reads, or as its bank stores it where the bank keeps reserved bits
for its checks; nothing in a W1C register. -/
def State.keptHalf (s : State) (a : Nat) : Word :=
  if isW1c a then 0 else if bankOf a ≠ 0 ∧ keepsReserved (bankOf a) = true ∧ bankReserved a = false then s.reg a else s.peek a

/-- A 4-byte write: RW fields of the other half keep their values, and WO and W1C bits act only in the addressed half; the low half
of OBS_TRACE_CTL is all reserved, so a write to it sets no EN (R439), and so is that of SYNC_CTL, where it writes no ALLOC. It does not make a bank word whole that SHADOW_UNC struck. -/
def State.writeHalf (s : State) (addr : Nat) (v : Word) : State :=
  let a := addr / 8 * 8
  let hi := decide (addr % 8 = 4)
  if only8 a || isDb a && hi || decide (a = 0x20010 ∨ 0x600000 ≤ a ∧ a < 0x610000 ∧ a % 16 = 8) && !hi then s
  else
    let old := s.keptHalf a
    let d := v &&& 0xFFFFFFFF
    let t := s.writeReg a (if hi then d <<< 32 ||| old &&& 0xFFFFFFFF else old &&& 0xFFFFFFFF00000000 ||| d)
    if s.commit.unc.contains a then t.modCommit fun c => { c with unc := s.commit.unc } else t

/-- The effect of a management write that is aligned. -/
def State.writeAt (s : State) (addr : Nat) (size8 : Bool) (v : Word) : State :=
  if size8 then s.writeReg addr v else s.writeHalf addr v

/-- An access aligned to its size. -/
def mgAligned (addr : Nat) (size8 : Bool) : Bool := if size8 then decide (addr % 8 = 0) else decide (addr % 4 = 0)

end Sys2Proof.Machine
end

