-- ==== Sys2Proof/Machine/Scan.lean ====
section
/-! DEFINITION. The scan-out image (R458, Table 18.9), the read positions of the management port (R459) and of the TAP
(R460), and the rows of management reads and writes (R10, R49). -/

namespace Sys2Proof.Machine

/-! ### The image -/

/-- The sections: ID and number of instances, in order. -/
def scanSections : List (Nat × Nat) :=
  [(0x01, 1), (0x10, 1), (0x11, 1), (0x12, 1), (0x13, 1), (0x20, 24), (0x21, 24), (0x22, 24), (0x30, 96), (0x40, 1), (0x41, 1),
    (0x50, 16), (0x51, 1), (0x60, 64), (0x61, 1), (0x62, 1), (0x70, 1), (0x71, 1), (0x80, 1), (0x90, 1), (0xA0, 1), (0xFF, 1)]

/-- Base and bytes of the window a section begins with, if it holds one. -/
def scanWindow (sect inst : Nat) : Nat × Nat :=
  match sect with
  | 0x10 => (0, 0x1000)
  | 0x11 => (0x10000, 0x10000)
  | 0x12 => (0x20000, 0x10000)
  | 0x13 => (0x30000, 0x10000)
  | 0x20 => (linkBase inst, 0x8000)
  | 0x30 => (laneBase inst, 0x2000)
  | 0x40 => (0x300000, 0x80000)
  | 0x41 => (0x380000, 0x80000)
  | 0x60 => (0x400000 + 0x1000 * inst, 0x1000)
  | 0x61 => (0x500000, 0x80000)
  | 0x62 => (0x600000, 0x10000)
  | 0x70 => (0x700000, 0x100000)
  | 0x80 => (0x800000, 0x400000)
  | 0xA0 => (0xC00000, 0x400000)
  | _ => (0, 0)

/-- Sections that hold, after any window, contents whose layout the spec does not give. -/
def scanOpen (sect : Nat) : Bool := decide (sect ∈ [0x40, 0x50, 0x51, 0x60, 0x62, 0x70, 0x71, 0x80])

/-- A free word of the image: the same for every read of one freeze. -/
def State.scanFree (s : State) (sect inst i : Nat) : Word := Config.scanExtra sect inst i s.obs.curfew.entries.toNat

/-- A frame of the retry buffer as 32 words: SEQ, UNITS and the payload in plaintext; its other header fields are those of its
last transmission, which the block does not keep, and they and the check field are free. -/
def State.scanFrame (s : State) (k i : Nat) (f : RFrame) : List Word :=
  let b := match f.raw with
    | some r => slice r.bytes 0 256
    | none => zeros 8 ++ slice (f.pkts.flatMap fun o => o.pkt.bytes) 0 240 ++ zeros 8
  let w := match f.raw with
    | some r => word64 r.bytes 0 &&& 0xFFFF
    | none => fields [(12, 4, (f.pkts.map fun o => o.pkt.units).sum), (0, 8, 0x78)]
  let h := w ||| fields [(52, 12, f.seq.toNat)] ||| (s.scanFree 0x21 k (32 * i) &&& 0x000FFFFFFFFF0000)
  h :: (bytesWords (slice b 8 240)) ++ [s.scanFree 0x21 k (32 * i + 31)]

/-- A packet takes its place in the order of arrival. -/
def inArrival (x : Nat × Pkt) : List (Nat × Pkt) → List (Nat × Pkt)
  | [] => [x]
  | y :: l => if y.1 ≤ x.1 then y :: inArrival x l else x :: y :: l

/-- The packets in the receive buffer of link `k` in arrival order, those that wait for a consumer and those in output queues. -/
def State.scanRx (s : State) (k : Nat) : List Pkt :=
  let held := ((s.link k).inbox.map fun r => (r.no, r.pkt)) ++ (List.range 24).flatMap fun n =>
    ((s.link n).outq.filter fun o => decide (o.from_.map (·.1) = some k)).map fun o => (o.no, o.pkt)
  (held.foldl (fun l x => inArrival x l) []).map (·.2)

/-- The records of the trace buffer, oldest first: with SPILL_EN those of the staging area. -/
def State.scanTrace (s : State) : List Word :=
  let t := s.obs.trace
  if s.spillEn then t.staged.flatMap fun e => (List.range 8).map fun j => e.2.getD j 0
  else (List.range t.count).flatMap fun i =>
    let r := t.buf.get [] ((t.oldest + i) % s.traceCap)
    (List.range 8).map fun j => r.getD j 0

/-- The sections whose words are listed. -/
def State.scanList (s : State) (sect inst : Nat) : List Word :=
  match sect with
  | 0x01 =>
    let c := s.obs.curfew
    [s.plan.chipWord, c.serial.zeroExtend 64, c.origin.zeroExtend 64, c.cause.zeroExtend 64, c.time,
      BitVec.ofNat 64 (b2n s.fc.safe), s.peek 0x8, s.plan.statWord]
  | 0x21 => (s.link inst).ll.retry.zipIdx.flatMap fun e => s.scanFrame inst e.2 e.1
  | 0x22 => bytesWords ((s.scanRx inst).flatMap Pkt.bytes)
  | 0x90 => s.scanTrace
  | _ => []

/-- The scheduling state of a link: G, P and deficit of each shaper, the deficits of VC3 to VC7, and the three windows of 100
intervals, the newest first. -/
def Sch.words (c : Sch) : List Word :=
  ((List.range 85).flatMap (fun i => [c.gOf i, c.pOf i, c.sdef.get 0 i]) ++ (List.range 5).map (fun v => c.vdef.get 0 (3 + v)) ++
    [c.win2, c.win6, c.winOb].flatMap fun w => (List.range 100).map fun i => w.getD i 0).map (BitVec.ofNat 64)

/-- What follows the SCH_ window in its section: the buckets, deficits and windows of every link and the buckets of every toll gate
(R209, Table 18.9), in an order the spec leaves open (DESIGN CHOICE, log 97). -/
def State.scanSched (s : State) : List Word :=
  (List.range 24).flatMap (fun k => (s.link k).sch.words) ++
    (List.range 32).flatMap fun j => [BitVec.ofNat 64 (s.gate j).tc, BitVec.ofNat 64 (s.gate j).tp]

/-- The contents of a section after its window that are listed. -/
def State.scanTail (s : State) (sect : Nat) : List Word := if sect = 0x41 then s.scanSched else []

/-- The words of a section's body that are listed, or those of a window. -/
def State.scanPlain (s : State) (sect inst : Nat) : Nat :=
  (s.scanList sect inst).length + (scanWindow sect inst).2 / 8 + (s.scanTail sect).length

/-- Every section of the image, in order. -/
def scanAll : List (Nat × Nat) := scanSections.flatMap fun e => (List.range e.2).map fun i => (e.1, i)

/-- Words of the 40 MiB of an image that headers and given contents leave. -/
def State.scanRoom (s : State) : Nat := 5242880 - (scanAll.map fun e => 2 + s.scanPlain e.1 e.2).sum

/-- What a section takes of `room` words for contents of its own layout, after the sections before it. -/
def openShare (sect inst : Nat) : Nat → List (Nat × Nat) → Nat
  | _, [] => 0
  | room, e :: l =>
    let n := min (Config.scanExtraLen e.1 e.2) room
    if e = (sect, inst) then n else openShare sect inst (room - n) l

/-- The words of a section's body. The image holds at most 40 MiB. -/
def State.scanLen (s : State) (sect inst : Nat) : Nat :=
  s.scanPlain sect inst + if scanOpen sect then openShare sect inst s.scanRoom (scanAll.filter fun e => scanOpen e.1) else 0

/-- Key material reads zero (R413): the SPDM buffers too, which are not registers. -/
def scanHidden (a : Nat) : Bool := decide (0x36000 ≤ a ∧ a < 0x38000)

/-- Word `i` of a section's body. -/
def State.scanBody (s : State) (sect inst i : Nat) : Word :=
  let l := s.scanList sect inst
  let w := scanWindow sect inst
  if i < l.length then l.getD i 0
  else if i < w.2 / 8 then if scanHidden (w.1 + 8 * i) then 0 else s.peek (w.1 + 8 * i)
  else ((s.scanTail sect)[i - w.2 / 8]?).getD (s.scanFree sect inst i)

/-- The section and instance after one, if any. -/
def scanNext (sect inst : Nat) : Option (Nat × Nat) :=
  match scanSections.dropWhile fun e => decide (e.1 ≠ sect) with
  | e :: l => if inst + 1 < e.2 then some (sect, inst + 1) else l.head?.map fun e => (e.1, 0)
  | [] => none

/-- The section exists. -/
def scanHas (sect inst : Nat) : Bool := scanSections.any fun e => decide (e.1 = sect ∧ inst < e.2)

/-- The word at a read position: header words 0 and 1, then the body; zero beyond the end. -/
def State.scanAt (s : State) (p : ScanPos) : Word :=
  if p.ended || !scanHas p.sect p.inst then 0
  else if p.word = 0 then fields [(16, 16, p.inst), (0, 16, p.sect)]
  else if p.word = 1 then BitVec.ofNat 64 (8 * s.scanLen p.sect p.inst)
  else s.scanBody p.sect p.inst (p.word - 2)

/-- The position after a word has been read. -/
def State.scanStep (s : State) (p : ScanPos) : ScanPos :=
  if p.ended || !scanHas p.sect p.inst then { p with ended := true }
  else if p.word + 1 < 2 + s.scanLen p.sect p.inst then { p with word := p.word + 1 }
  else
    match scanNext p.sect p.inst with
    | some n => { sect := n.1, inst := n.2 }
    | none => { p with ended := true }

/-- A lane's counts that the word at a read position shows are brought up to the present. -/
def State.scanSettle (s : State) (p : ScanPos) : State :=
  if p.ended || decide (p.sect ≠ 0x30) || decide (p.word < 2) then s else s.settle (laneBase p.inst + 8 * (p.word - 2))

/-- The image can be read in curfew and in the safe state. -/
def State.scanOn (s : State) : Bool := s.obs.curfew.on || s.fc.safe

/-- START or SEEK. -/
def scanStart : ScanPos := {}
def scanSeek (sect inst : Nat) : ScanPos := { sect := sect, inst := inst }

def execScanStart (s : State) : Res :=
  .next (s.mgWrite 0x20300 true (s.reg 0x20300 ||| 0x8000000000000000) fun s => s.modObs fun o => { o with scan := scanStart })

def execSeek (sect num : BitVec 16) (s : State) : Res :=
  let v := fields [(62, 1, 1), (16, 16, sect.toNat), (0, 16, num.toNat)]
  .next (s.mgWrite 0x20300 true v fun s => s.writeScanCtl v)

/-- An 8-byte read of OBS_SCAN_DATA. -/
def State.readScan (s : State) : State :=
  if !s.scanOn then s.mgReply 0 mgOk
  else
    let s := s.scanSettle s.obs.scan
    (s.modObs fun o => { o with scan := s.scanStep o.scan }).mgReply (s.scanAt s.obs.scan) mgOk

def execScanDataRead (s : State) : Res := 
  .next (s.mgBeat fun s => if s.mgmtOpen then s.readScan else s.mgReply 0 mgBooting)

/-! ### The TAP (R460) -/

/-- The instructions of the 4-bit register: every other code acts as BYPASS. -/
inductive TapInsn
  | bypass | scansel | scanout
  deriving DecidableEq, Repr

def tapInsn (ir : BitVec 4) : TapInsn := if ir = 8 then .scansel else if ir = 9 then .scanout else .bypass

/-- The controller goes through Update-IR with a code and rests in Run-Test/Idle. -/
def State.tapLoad (s : State) (ir : BitVec 4) : State := s.modObs fun o => { o with tapIr := ir, tapIdle := true }

/-- A scan of the data register that the instruction selects, with 64 bits `w` shifted in, from Run-Test/Idle and back: BYPASS
passes them on behind the 0 that its one bit captures; SCANSEL acts at Update-DR; SCANOUT's Capture-DR loads the next word, which
is shifted out. While the TCK crossing is in reset no word and no position passes it (R82), and the data register shifts out what
it held (log 150). -/
def State.tapScan (s : State) (w : Word) : State :=
  let cut := (s.xings.get {} (xingKey .tck)).inReset
  match tapInsn s.obs.tapIr with
  | .bypass => (s.modObs fun o => { o with tapBypass := bit w 63 }).emit (.tdo (w <<< 1))
  | .scansel =>
    s.modObs fun o =>
      { o with tapDr := w
               tap := if cut then o.tap else if bit w 63 then scanStart else if bit w 62 then scanSeek (bits w 16 16) (bits w 0 16)
                 else o.tap }
  | .scanout =>
    if cut then (s.modObs fun o => { o with tapDr := w }).emit (.tdo s.obs.tapDr)
    else if !s.scanOn then (s.modObs fun o => { o with tapDr := w }).emit (.tdo 0)
    else
      let s := s.scanSettle s.obs.tap
      (s.modObs fun o => { o with tapDr := w, tap := s.scanStep o.tap }).emit (.tdo (s.scanAt s.obs.tap))

/-- SCANSEL: its code is loaded, and its data register scanned. -/
def execScansel (w : BitVec 64) (s : State) : Res := .next ((s.tapLoad 8).tapScan w)

/-- SCANOUT: its code is loaded, and its data register scanned with zeros. -/
def execScanout (s : State) : Res := .next ((s.tapLoad 9).tapScan 0)

/-- TRST_N: the TAP controller enters Test-Logic-Reset, which selects BYPASS, and nothing else. -/
def execTrstN (s : State) : Res := .next (s.modObs fun o => { o with tapIr := 15, tapIdle := false })

/-! ### Management reads and writes -/

/-- The half of a word that a 4-byte read returns. -/
def halfOf (addr : Nat) (w : Word) : Word := if addr % 8 = 4 then w >>> 32 else w &&& 0xFFFFFFFF

/-- A read of the window (R465): an 8-byte read clears RC fields, but not in curfew (R454), and moves the reading positions; a
4-byte read returns its half and does neither. -/
def State.mgmtRead (s : State) (addr : Nat) (size8 : Bool) : State :=
  let a := addr / 8 * 8
  if !mgAligned addr size8 then s.mgReply 0 mgMalformed
  else if size8 then
    if a = 0x20038 then s.readTrace
    else if a = 0x20308 then s.readScan
    else
      let s := s.settle a
      (if s.obs.curfew.on then s else s.clearRc a).mgReply (s.peek a) mgOk
  else if a = 0x20308 then
    let s := s.scanSettle s.obs.scan
    s.mgReply (halfOf addr (if s.scanOn then s.scanAt s.obs.scan else 0)) mgOk
  else
    let s := s.settle a
    s.mgReply (halfOf addr (s.peek a)) mgOk

/-- RC_FIELD_READ: a read of any word of the window that has no row of its own. -/
def execRcFieldRead (addr : BitVec 26) (size8 : Bool) (s : State) : Res :=
  .next (s.mgBeat fun s => if s.mgmtOpen then s.mgmtRead addr.toNat size8 else s.mgReply 0 mgBooting)

end Sys2Proof.Machine
end

