-- ==== Sys2Proof/Machine/Curfew.lean ====
section
/-! DEFINITION. Resume from curfew (R457), and the management write, which the resume performs for the writes held (R454). -/

namespace Sys2Proof.Machine

/-- A write held through curfew takes effect. A GO of the milestone measurement that was written in curfew is refused
(R450). -/
def State.applyHeld (s : State) (h : BitVec 26 × Bool × Word) : State :=
  let a := h.1.toNat
  let go := decide (a / 8 * 8 = 0x20108) && (if h.2.1 then bit h.2.2 63 else decide (a % 8 = 4) && bit h.2.2 31)
  if go then
    (s.writeAt a h.2.1 (h.2.2 &&& (if h.2.1 then 0x7FFFFFFFFFFFFFFF else 0x7FFFFFFF))).modMs fun m => { m with rej := true }
  else s.writeAt a h.2.1 h.2.2

/-- Link `n` may send frames again: it replays from ACKED + 1 (R457, R167). -/
def State.linkResumed (s : State) (n : Nat) : State :=
  let l := (s.link n).ll
  if l.resumeWait.isNone then s
  else
    let s := s.modLL n fun l => { l with resumeWait := none }
    if l.retry.isEmpty then s else s.startReplay n (l.acked + 1)

/-- The reactions to faults that struck in curfew, in the order of their detection. -/
def State.reactLate (s : State) : State :=
  forEach s.obs.curfew.late (fun e s => s.respondTo e.1 e.2)
    { s with obs := { s.obs with curfew := { s.obs.curfew with late := [] } } }

/-- What a resume restarts: a brown-out hold that VWARN has begun meanwhile is entered before anything else, one that it has
ended is released (R88), and otherwise the carrier has the credits withheld, resets that waited proceed, and reports of faults that
rose in curfew go out (R427). -/
def State.restart (s : State) : State :=
  let s := if !s.pins.hold && s.pins.vwarn && decide (s.boot.stage = .ready) then s.enterHold else s
  if s.pins.hold && !s.pins.vwarn then s.releaseHold
  else if s.pins.hold then s.payCredits.heldParts
  else (forEach s.admitQ (fun p s => s.place p) { s with admitQ := [] }).payCredits.heldParts

/-- Resume (R457): the held writes, in order; CURFEW_OUT; four resume blocks on every link that is not DOWN; the stages, with the notes
that expired in curfew freed (Table 10.15), the reactions that waited (Table 17.1), and the triggers whose condition has come to hold
(R441). A held write that enters curfew again ends the resume there. -/
def State.resume (s : State) : State :=
  let c := s.obs.curfew
  if !c.on then s
  else
    let s := s.modObs fun o => { o with curfew := { o.curfew with on := false, hold := [] } }
    let s := forEach c.hold (fun h s => s.applyHeld h) s
    if s.obs.curfew.on then s
    else
      let s := s.modPins fun p => { p with curfewOut := false }
      if s.fc.safe then s
      else
        let s := s.onLinks 4 (curfewBlock 1 c.origin s.obs.curfew.serial)
        let s := forEach s.upLinks (fun n s => s.modLL n fun l => { l with resumeWait := some (s.clk.up + us5 10) }) s
        let s := (s.curfewRec 1).restart
        ((s.dropNotes fun t => decide (t ≤ s.now.toNat)).reactLate).fireLevels

/-- RESUME is among the bits a write of OBS_CURFEW_CTL sets. -/
def isResume (addr : Nat) (size8 : Bool) (v : Word) : Bool :=
  decide (addr / 8 * 8 = 0x20200) && if size8 then bit v 62 else decide (addr % 8 = 4) && bit v 30

/-- The effect of a management write. -/
def State.mgmtAct (s : State) (addr : Nat) (size8 : Bool) (v : Word) : State :=
  if s.obs.curfew.on && isResume addr size8 v then s.resume else s.writeAt addr size8 v

/-- MGMT_WRITE: a write of any word of the window that has no row of its own, and of any other alike (R49). -/
def State.mgmtWrite (s : State) (addr : Nat) (size8 : Bool) (v : Word) : State :=
  s.mgBeat fun s =>
  if s.mgmtOpen && !mgAligned addr size8 then s.mgReply 0 mgMalformed
  else s.mgWrite addr size8 v fun s => s.mgmtAct addr size8 v

def execMgmtWrite (addr : BitVec 26) (size8 : Bool) (data : BitVec 64) (s : State) : Res :=
  .next (s.mgmtWrite addr.toNat size8 data)

def execCurfewResume (s : State) : Res := .next (s.mgWrite 0x20200 true 0x4000000000000000 fun s => s.resume)

/-- RESUME_WAIT_EXPIRY: 10 us have passed without the far end's resume block. -/
def State.resumeExpire (s : State) (n : Nat) : State :=
  match (s.link n).ll.resumeWait with
  | some t => if s.running && decide (t ≤ s.clk.up) then s.linkResumed n else s
  | none => s

def execResumeWaitExpiry (link : LinkId) (dt : Nat) (s : State) : Res := .next ((s.passNs dt).resumeExpire link.val).kick

end Sys2Proof.Machine
end

