-- ==== Sys2Proof/Machine/InsnRows.lean ====
section
/-! DEFINITION. The rows of a steward: STEWARD_CHOOSE (R284) and one row for each instruction (R301), with the lane and link
instructions (R316). -/

namespace Sys2Proof.Machine

/-! ### Lane and link instructions (Table 12.12) -/

/-- Bits X uses: a lane number, and the object of a notify. -/
def laneX : Nat := 0x0FFF007F

/-- Runs `k` with the lane in X[6:0]: the queue is of P0, the lane exists, and fields that are not used are zero. -/
def State.laneInsn (s : State) (q : Nat) (w : Fields) (ok : Bool) (k : Nat → State → State) : State :=
  s.p0Only q fun s => s.legal q (ok && decide (bits w.x 0 7 ≤ 95)) (k (bits w.x 0 7))

/-- Runs `k` once the object of a NOTIFY is found to be the queue's partition's (R290; log 106). -/
def State.notifies (s : State) (q : Nat) (w : Fields) (k : State → State) : State :=
  if w.flag 1 then s.owned q (bits w.x 16 12) k else k s

/-- SLIP: the slip or the CLEAR, with the notify. It retires when SLIP_PEND is 0. -/
def insnSlipInstr (q : Nat) (w : Fields) (s : State) : State :=
  s.laneInsn q w (w.only true false false false 3 laneX) fun n s =>
    s.notifies q w fun s =>
      let s := if w.flag 1 then s.modLane n fun l => { l with noteWin := l.noteWin ++ [bits w.x 16 12] } else s
      (if w.flag 0 then s.doClearWin n else s.doSlip n).slipEnd q w

def insnEqset (q : Nat) (w : Fields) (s : State) : State :=
  s.laneInsn q w (w.only true false false false 0 0x7F 0x3FFFF) fun n s =>
    let s := s.writeTxeq n (fields [(63, 1, 1)] ||| w.y)
    s.finish q [(w.d.toNat, (s.lane n).txeqWord)]

/-- EYESCAN: the object is noted before START, which may end at once. Y[11:8] are ignored, as LANE_EYE_CTL ignores them. -/
def insnEyescan (q : Nat) (w : Fields) (s : State) : State :=
  s.laneInsn q w (w.only true false false false 2 laneX 0xFFFFFF) fun n s =>
    s.notifies q w fun s =>
      let s := if w.flag 1 then s.modLane n fun l => { l with noteEye := l.noteEye ++ [bits w.x 16 12] } else s
      let s := s.writeEye n (fields [(63, 1, 1)] ||| w.y)
      s.finish q [(w.d.toNat, (s.lane n).eye.statWord)]

def insnPrbs (q : Nat) (w : Fields) (s : State) : State :=
  s.laneInsn q w (w.only true false false false 5 0x7F 0xFF0003) fun n s =>
    let s := if w.flag 2 then s.prbsSettle n else s
    let counts := (s.lane n).prbs.cntWord
    let s := if w.flag 2 then s.clearLane n 0x48 else s
    let s := s.writePrbs n (fields [(63, 1, b2n (w.flag 0))] ||| w.y)
    s.finish q [(w.d.toNat, if w.flag 2 then counts else (s.lane n).prbs.ctlWord)]

/-- TRAIN: the report of the link's program. -/
def insnTrain (q : Nat) (w : Fields) (s : State) : State :=
  s.p0Only q fun s => s.legal q (w.only false false false false 1 0x1F && decide (bits w.x 0 5 ≤ 23)) fun s =>
    (s.modTrain (bits w.x 0 5) fun t => if w.flag 0 then { t with failp := true } else { t with pass := true }).finish q []

/-- The address LINKSET names, none where its index or its offset is illegal. -/
def linksetAddr (w : Fields) : Option Nat :=
  let i := bits w.x 24 7
  let o := bits w.x 0 15
  if o % 8 ≠ 0 then none
  else if bit w.x 31 then if i ≤ 95 ∧ o < 0x2000 then some (0x200000 + 0x2000 * i + o) else none
  else if i ≤ 23 then some (0x100000 + 0x8000 * i + o) else none

/-- LINKSET: one 8-byte access with the effects of a management access. -/
def insnLinkset (q : Nat) (w : Fields) (s : State) : State :=
  s.p0Only q fun s => s.legal q (w.only true true false false 1 0xFF007FFF && (linksetAddr w).isSome) fun s =>
    let a := (linksetAddr w).getD 0
    if w.flag 0 then (s.writeReg a (s.gA q w)).finish q []
    else
      let s := s.settle a
      let v := s.peek a
      (s.clearRc a).finish q [(w.d.toNat, v)]

/-! ### The opcode map (Table 12.5) -/

/-- What the instruction of a class and an opcode does; none where Table 12.5 lists none. -/
def insnBody (cls op : Nat) : Option (Nat → Fields → State → State) :=
  match cls, op with
  | 0, 0 => some insnSetg
  | 0, 1 => some insnAddg
  | 0, 2 => some insnJmp
  | 0, 3 => some insnBnz
  | 0, 4 => some insnLoop
  | 0, 5 => some insnHalt
  | 0, 6 => some insnYield
  | 1, 0 => some insnCopy
  | 1, 1 => some insnPut
  | 1, 2 => some insnGet
  | 1, 3 => some insnPuti
  | 1, 4 => some insnFill
  | 2, 0 => some insnAadd
  | 2, 1 => some insnAmin
  | 2, 2 => some insnAmax
  | 2, 3 => some insnAand
  | 2, 4 => some insnAor
  | 2, 5 => some insnAxor
  | 2, 6 => some insnAswp
  | 2, 7 => some insnAcas
  | 3, 0 => some insnSig
  | 3, 1 => some insnWait
  | 3, 2 => some insnRsig
  | 3, 3 => some insnFence
  | 4, 0 => some insnRsc
  | 4, 1 => some insnAgt
  | 4, 2 => some insnSipred
  | 4, 3 => some insnSipbar
  | 4, 4 => some insnScale
  | 5, 0 => some insnPin
  | 5, 1 => some insnUnpin
  | 5, 2 => some insnMigr
  | 5, 3 => some insnRepl
  | 5, 4 => some insnUnrepl
  | 5, 5 => some insnHint
  | 6, 0 => some insnTload
  | 6, 1 => some insnTcommit
  | 7, 0 => some insnSlipInstr
  | 7, 1 => some insnEqset
  | 7, 2 => some insnEyescan
  | 7, 3 => some insnPrbs
  | 7, 4 => some insnTrain
  | 7, 5 => some insnLinkset
  | 8, 0 => some insnTaste
  | 8, 1 => some insnMark
  | _, _ => none

/-- The steward takes its choice: it claims a queue, or runs its next instruction or piece. -/
def State.stewardChoose (s : State) (n : Nat) : State :=
  match s.pick n with
  | .none => s
  | .claim q => s.claim n q
  | .run q w =>
    let s := s.begin n q w
    match insnBody (wordClass w) (wordOp w) with
    | some f => f q (wordFields w) s
    | none => s.execFault q qfIllegal

def execStewardChoose (stw : StwId) (s : State) : Res := .next (s.stewardChoose stw.val).kick

/-! ### One row per instruction -/

def execSetg (stw : StwId) (w : Fields) (s : State) : Res :=
  .next (s.insnRow stw.val (insnWord 0 0 w) fun q s => insnSetg q w s).kick
def execAddg (stw : StwId) (w : Fields) (s : State) : Res :=
  .next (s.insnRow stw.val (insnWord 0 1 w) fun q s => insnAddg q w s).kick
def execJmp (stw : StwId) (w : Fields) (s : State) : Res :=
  .next (s.insnRow stw.val (insnWord 0 2 w) fun q s => insnJmp q w s).kick
def execBnz (stw : StwId) (w : Fields) (s : State) : Res :=
  .next (s.insnRow stw.val (insnWord 0 3 w) fun q s => insnBnz q w s).kick
def execLoop (stw : StwId) (w : Fields) (s : State) : Res :=
  .next (s.insnRow stw.val (insnWord 0 4 w) fun q s => insnLoop q w s).kick
def execHalt (stw : StwId) (w : Fields) (s : State) : Res :=
  .next (s.insnRow stw.val (insnWord 0 5 w) fun q s => insnHalt q w s).kick
def execYield (stw : StwId) (w : Fields) (s : State) : Res :=
  .next (s.insnRow stw.val (insnWord 0 6 w) fun q s => insnYield q w s).kick
def execCopy (stw : StwId) (w : Fields) (s : State) : Res :=
  .next (s.insnRow stw.val (insnWord 1 0 w) fun q s => insnCopy q w s).kick
def execPut (stw : StwId) (w : Fields) (s : State) : Res :=
  .next (s.insnRow stw.val (insnWord 1 1 w) fun q s => insnPut q w s).kick
def execGet (stw : StwId) (w : Fields) (s : State) : Res :=
  .next (s.insnRow stw.val (insnWord 1 2 w) fun q s => insnGet q w s).kick
def execPuti (stw : StwId) (w : Fields) (s : State) : Res :=
  .next (s.insnRow stw.val (insnWord 1 3 w) fun q s => insnPuti q w s).kick
def execFill (stw : StwId) (w : Fields) (s : State) : Res :=
  .next (s.insnRow stw.val (insnWord 1 4 w) fun q s => insnFill q w s).kick
def execAadd (stw : StwId) (w : Fields) (s : State) : Res :=
  .next (s.insnRow stw.val (insnWord 2 0 w) fun q s => insnAadd q w s).kick
def execAmin (stw : StwId) (w : Fields) (s : State) : Res :=
  .next (s.insnRow stw.val (insnWord 2 1 w) fun q s => insnAmin q w s).kick
def execAmax (stw : StwId) (w : Fields) (s : State) : Res :=
  .next (s.insnRow stw.val (insnWord 2 2 w) fun q s => insnAmax q w s).kick
def execAand (stw : StwId) (w : Fields) (s : State) : Res :=
  .next (s.insnRow stw.val (insnWord 2 3 w) fun q s => insnAand q w s).kick
def execAor (stw : StwId) (w : Fields) (s : State) : Res :=
  .next (s.insnRow stw.val (insnWord 2 4 w) fun q s => insnAor q w s).kick
def execAxor (stw : StwId) (w : Fields) (s : State) : Res :=
  .next (s.insnRow stw.val (insnWord 2 5 w) fun q s => insnAxor q w s).kick
def execAswp (stw : StwId) (w : Fields) (s : State) : Res :=
  .next (s.insnRow stw.val (insnWord 2 6 w) fun q s => insnAswp q w s).kick
def execAcas (stw : StwId) (w : Fields) (s : State) : Res :=
  .next (s.insnRow stw.val (insnWord 2 7 w) fun q s => insnAcas q w s).kick
def execSig (stw : StwId) (w : Fields) (s : State) : Res :=
  .next (s.insnRow stw.val (insnWord 3 0 w) fun q s => insnSig q w s).kick
def execWait (stw : StwId) (w : Fields) (s : State) : Res :=
  .next (s.insnRow stw.val (insnWord 3 1 w) fun q s => insnWait q w s).kick
def execRsig (stw : StwId) (w : Fields) (s : State) : Res :=
  .next (s.insnRow stw.val (insnWord 3 2 w) fun q s => insnRsig q w s).kick
def execFence (stw : StwId) (w : Fields) (s : State) : Res :=
  .next (s.insnRow stw.val (insnWord 3 3 w) fun q s => insnFence q w s).kick
def execRsc (stw : StwId) (w : Fields) (s : State) : Res :=
  .next (s.insnRow stw.val (insnWord 4 0 w) fun q s => insnRsc q w s).kick
def execAgt (stw : StwId) (w : Fields) (s : State) : Res :=
  .next (s.insnRow stw.val (insnWord 4 1 w) fun q s => insnAgt q w s).kick
def execSipred (stw : StwId) (w : Fields) (s : State) : Res :=
  .next (s.insnRow stw.val (insnWord 4 2 w) fun q s => insnSipred q w s).kick
def execSipbar (stw : StwId) (w : Fields) (s : State) : Res :=
  .next (s.insnRow stw.val (insnWord 4 3 w) fun q s => insnSipbar q w s).kick
def execScale (stw : StwId) (w : Fields) (s : State) : Res :=
  .next (s.insnRow stw.val (insnWord 4 4 w) fun q s => insnScale q w s).kick
def execPin (stw : StwId) (w : Fields) (s : State) : Res :=
  .next (s.insnRow stw.val (insnWord 5 0 w) fun q s => insnPin q w s).kick
def execUnpin (stw : StwId) (w : Fields) (s : State) : Res :=
  .next (s.insnRow stw.val (insnWord 5 1 w) fun q s => insnUnpin q w s).kick
def execMigr (stw : StwId) (w : Fields) (s : State) : Res :=
  .next (s.insnRow stw.val (insnWord 5 2 w) fun q s => insnMigr q w s).kick
def execRepl (stw : StwId) (w : Fields) (s : State) : Res :=
  .next (s.insnRow stw.val (insnWord 5 3 w) fun q s => insnRepl q w s).kick
def execUnrepl (stw : StwId) (w : Fields) (s : State) : Res :=
  .next (s.insnRow stw.val (insnWord 5 4 w) fun q s => insnUnrepl q w s).kick
def execHint (stw : StwId) (w : Fields) (s : State) : Res :=
  .next (s.insnRow stw.val (insnWord 5 5 w) fun q s => insnHint q w s).kick
def execTload (stw : StwId) (w : Fields) (s : State) : Res :=
  .next (s.insnRow stw.val (insnWord 6 0 w) fun q s => insnTload q w s).kick
def execTcommit (stw : StwId) (w : Fields) (s : State) : Res :=
  .next (s.insnRow stw.val (insnWord 6 1 w) fun q s => insnTcommit q w s).kick
def execSlipInstr (stw : StwId) (w : Fields) (s : State) : Res :=
  .next (s.insnRow stw.val (insnWord 7 0 w) fun q s => insnSlipInstr q w s).kick
def execEqset (stw : StwId) (w : Fields) (s : State) : Res :=
  .next (s.insnRow stw.val (insnWord 7 1 w) fun q s => insnEqset q w s).kick
def execEyescan (stw : StwId) (w : Fields) (s : State) : Res :=
  .next (s.insnRow stw.val (insnWord 7 2 w) fun q s => insnEyescan q w s).kick
def execPrbs (stw : StwId) (w : Fields) (s : State) : Res :=
  .next (s.insnRow stw.val (insnWord 7 3 w) fun q s => insnPrbs q w s).kick
def execTrain (stw : StwId) (w : Fields) (s : State) : Res :=
  .next (s.insnRow stw.val (insnWord 7 4 w) fun q s => insnTrain q w s).kick
def execLinkset (stw : StwId) (w : Fields) (s : State) : Res :=
  .next (s.insnRow stw.val (insnWord 7 5 w) fun q s => insnLinkset q w s).kick
def execTaste (stw : StwId) (w : Fields) (s : State) : Res :=
  .next (s.insnRow stw.val (insnWord 8 0 w) fun q s => insnTaste q w s).kick
def execMark (stw : StwId) (w : Fields) (s : State) : Res :=
  .next (s.insnRow stw.val (insnWord 8 1 w) fun q s => insnMark q w s).kick

end Sys2Proof.Machine
end

