-- ==== Sys2Proof/Machine/LinkRows.lean ====
section
/-! DEFINITION. The commands of the link layer (chapter 7), of link pacing and of the scheduling interval: frames and control
blocks received, frames sent, and their timers. -/

namespace Sys2Proof.Machine

/-! ### Control blocks received (R159) -/

/-- A link layer runs its timers and its transmitter while the part runs and the link carries frames. -/
def State.linkLive (s : State) (k : Nat) : Bool := s.running && s.carriesFrames k

/-- Blocks that arrive while the part runs and the link carries frames reach the link layer. -/
def State.linkHears (s : State) (k : Nat) : Bool := s.linkLive k && !s.linkCut false k

/-- Anything but a TRAIN block ends a run of TRAIN blocks on the active lanes of a link that carries frames (Table 5.3). -/
def State.endTs (s : State) (k : Nat) : State :=
  forEach (List.range 4) (fun j s => s.modLane (4 * k + j) fun l => { l with train := { l.train with seen := 0 } }) s

/-- A standalone block of TYPE `ty` that is not valid is counted; a valid one acts. -/
def State.control (s : State) (k ty : Nat) (w : Word) (act : State → State) : State :=
  if blockValid ty w then act s else s.ctlMalf k

def State.takeAckBlock (s : State) (k : Nat) (w : Word) : State :=
  s.control k 0x33 w fun s => (s.takeAckNak k (w.extractLsb' 44 12) (bit w 43)).takeCredit k (bits w 38 5) (w.extractLsb' 29 9)

def State.takeCreditBlock (s : State) (k : Nat) (w : Word) : State :=
  s.control k 0x4B w fun s =>
    (s.takeCredit k (bits w 51 5) (w.extractLsb' 42 9)).takeCredit k (bits w 37 5) (w.extractLsb' 28 9)

def State.takeCredInitBlock (s : State) (k : Nat) (w : Word) : State :=
  s.control k 0x55 w fun s => s.takeCredInit k (bits w 51 5) (bits w 42 9) (bits w 28 14)

def State.takePaceBlock (s : State) (k : Nat) (w : Word) : State :=
  s.control k 0x66 w fun s => s.modLL k fun l => { l with paceFar := w.extractLsb' 50 6 }

def State.takeFatalBlock (s : State) (k : Nat) (w : Word) : State := s.control k 0x99 w fun s => s.takeFatal k

/-- A CURFEW entry block; in curfew a larger SERIAL is kept (R452). -/
def State.takeEntry (s : State) (k : Nat) (w : Word) : State :=
  let serial := w.extractLsb' 11 32
  if s.obs.curfew.on then
    s.modObs fun o => { o with curfew := { o.curfew with serial := (if o.curfew.serial < serial then serial else o.curfew.serial) } }
  else s.takeCurfewEntry k w

/-- A CURFEW resume block (R457): in curfew a SERIAL at least this block's own is kept (R452) and resumes it; outside curfew any
resume block of the far end ends the link's wait, and does nothing else. -/
def State.takeResume (s : State) (k : Nat) (w : Word) : State :=
  let serial := w.extractLsb' 11 32
  if !s.obs.curfew.on then s.linkResumed k
  else if serial < s.obs.curfew.serial then s
  else (s.modObs fun o => { o with curfew := { o.curfew with serial := serial } }).resume.linkResumed k

def State.takeCurfewBlock (s : State) (k : Nat) (w : Word) : State :=
  s.control k 0x87 w fun s => if bits w 54 2 = 0 then s.takeEntry k w else s.takeResume k w

/-- A control block that broke into a frame is processed as a standalone block (R158). A TRAIN block counts on the lane its
RANK names (R159). -/
def State.strayControl (s : State) (k : Nat) (w : Word) : State :=
  match bits w 0 8 with
  | 0x1E => s.control k 0x1E w id
  | 0x2D => s.trainRx (4 * k + bits w 8 2) false w
  | 0x33 => s.takeAckBlock k w
  | 0x4B => s.takeCreditBlock k w
  | 0x55 => s.takeCredInitBlock k w
  | 0x66 => s.takePaceBlock k w
  | 0x78 => s
  | 0x87 => s.takeCurfewBlock k w
  | 0x99 => s.takeFatalBlock k w
  | _ => s.ctlMalf k

/-- A control row of a block that acts while frames flow. -/
def State.ctlRow (s : State) (k : Nat) (act : State → State) : State := if s.linkHears k then (act (s.endTs k)).kick else s

def execAck (link : LinkId) (w : BitVec 64) (s : State) : Res := .next (s.ctlRow link.val fun s => s.takeAckBlock link.val w)
def execCredit (link : LinkId) (w : BitVec 64) (s : State) : Res :=
  .next (s.ctlRow link.val fun s => s.takeCreditBlock link.val w)
def execCredInit (link : LinkId) (w : BitVec 64) (s : State) : Res :=
  .next (s.ctlRow link.val fun s => s.takeCredInitBlock link.val w)
def execPace (link : LinkId) (w : BitVec 64) (s : State) : Res := .next (s.ctlRow link.val fun s => s.takePaceBlock link.val w)

/-- The link is not DOWN. -/
def State.linkUp (s : State) (k : Nat) : Bool := decide ((s.link k).train.state ≠ 0)

/-- FATAL, which acts in curfew too, where the fault collector runs on (R454). -/
def execFatal (link : LinkId) (w : BitVec 64) (s : State) : Res :=
  .next (if !s.linkUp link.val || s.linkCut false link.val then s
    else if !s.fc.safe then ((s.endTs link.val).takeFatalBlock link.val w).kick
    else if blockValid 0x99 w then (s.modLL link.val fun l => { l with farFatal := true }).raise srcFarFatal
    else s)

/-- The rows of CURFEW blocks, which act in curfew too. -/
def State.curfewRow (s : State) (k kind : Nat) (w : Word) : State :=
  if !s.linkUp k || s.linkCut false k || decide (bits w 54 2 ≠ kind ∧ blockValid 0x87 w = true) then s
  else ((s.endTs k).takeCurfewBlock k w).kick

def execCurfewEntryBlock (link : LinkId) (w : BitVec 64) (s : State) : Res := .next (s.curfewRow link.val 0 w)
def execCurfewResumeBlock (link : LinkId) (w : BitVec 64) (s : State) : Res := .next (s.curfewRow link.val 1 w)

/-! ### Frames received (R158, R165, R488) -/

/-- FRAME_CAP: the frame's bytes as six records, all or none; a loss held goes ahead of them as a DROP record in the slot kept for it
(R438, R488). -/
def State.captureFrame (s : State) (k : Nat) (b : Bytes) : State :=
  let t := s.obs.trace
  if !s.fuses.bench || !s.traceSrc 5 || !t.recording || !bit (s.reg 0x20040) (40 + k) then s
  else if 63 < t.fifo.length + 6 then
    forEach (List.range 6) (fun _ s => s.tally 1) (s.setTrace { t with held := t.held + 6, lost := satAdd t.lost 6 })
  else
    let part := fun (i : Nat) => ({ type_ := 8, unit_ := 1, inst := BitVec.ofNat 16 k, aux := BitVec.ofNat 16 i
                                    pay := slice b (48 * i) (min 48 (256 - 48 * i)) } : Rec)
    forEach (List.range 5) (fun i s => s.putRec (part (i + 1))) (s.offer (part 0))

/-- A frame is checked: a failure is counted, by its keys too (R402), and answered by a NAK. -/
def State.checkFrame (s : State) (k : Nat) (fr : RxFrame) : State :=
  match (s.link k).sec.check s.clk.core fr.bytes with
  | none =>
    let s := (s.modCnt k fun c => { c with chkFail := satAdd c.chkFail 1 }).count 1 3 k none
    (s.failFrame k (word64 fr.bytes 0)).tagFailure k fr.clean
  | some (m, sec, cur) =>
    (s.modLink k fun l => { l with sec := sec }).checkedFrame k (word64 fr.bytes 0) m cur

/-- A frame arrives at a link; after a FATAL block it is captured and not accepted (R193, R488). -/
def State.frameRx (s : State) (k : Nat) (fr : RxFrame) : State :=
  if !s.linkHears k then s
  else if bits (word64 fr.bytes 0) 0 8 ≠ 0x78 then if (s.link k).ll.stopped then s.endTs k else (s.endTs k).ctlMalf k
  else
    let s := (s.captureFrame k (slice fr.bytes 0 256)).endTs k
    if (s.link k).ll.stopped then s
    else if fr.full then (s.modCnt k fun c => { c with paceDrop := satAdd c.paceDrop 1 }).discardFrame k
    else
      match fr.ctl with
      | some w =>
        ((s.modCnt k fun c => { c with frameMalf := satAdd c.frameMalf 1 }).discardFrame k).strayControl k w
      | none => if fr.bad then s.discardFrame k else s.checkFrame k fr

def execFrame (link : LinkId) (fr : RxFrame) (s : State) : Res := .next (s.frameRx link.val fr).kick

/-! ### Timers and frames sent -/

/-- ACK_BLOCK_TIMER: an accepted frame has waited 16 block times for its report; a pending PACE goes first (R160). -/
def State.ackDue (s : State) (k : Nat) : State :=
  if s.linkLive k && (s.link k).ll.ackDue && !s.linkCut true k then (s.sendPace k).sendAck k else s

def execAckBlockTimer (link : LinkId) (s : State) : Res := .next (s.ackDue link.val)

/-- CRED_INIT_TIMER: the full set again every 100 us, once what is held from earlier sessions leaves room (R170). -/
def State.credInitDue (s : State) (k : Nat) : State :=
  let l := (s.link k).ll
  if s.linkLive k && decide (l.credInitAt + us5 100 ≤ s.clk.core) then
    s.modLL k fun l =>
      if l.carry ≤ 2560 then
        { l with credInitAt := l.credInitAt + us5 100, credInit := List.range 32, sharedLocal := 2560 - l.carry }
      else { l with credInitAt := l.credInitAt + us5 100 }
  else s

def execCredInitTimer (link : LinkId) (dt : Nat) (s : State) : Res := .next ((s.passNs dt).credInitDue link.val)

/-- RTO_NS as it acts, in units of 0.2 ns. -/
def State.rto (s : State) (k : Nat) : Nat := 5 * max 200 (bits (s.reg (linkBase k + 0x400)) 0 16)

/-- REPLAY_TIMEOUT: the oldest unacknowledged frame has waited RTO_NS. -/
def State.replayDue (s : State) (k : Nat) : State :=
  match (s.link k).ll.retry with
  | f :: _ => if s.linkLive k && decide (f.at5 + s.rto k ≤ s.clk.core) then s.startReplay k f.seq else s
  | [] => s

def execReplayTimeout (link : LinkId) (dt : Nat) (s : State) : Res := .next ((s.passNs dt).replayDue link.val).kick

/-- A frame boundary (R160): a copy of an injection before every other block (R486), else the pending control blocks and a frame,
or IDLE. After a curfew every frame waits for the far end's resume (R457). In the safe state a link that is not DOWN sends IDLE
(R422), and in curfew one on a row that carries frames does (R455); on other rows the training blocks go on (R136). -/
def State.frameBoundary (s : State) (k : Nat) : State :=
  if !s.linkSends k then s
  else if !s.running then if (s.fc.safe && s.linkUp k) || s.carriesFrames k then s.emit (.idle k 1) else s
  else if !s.carriesFrames k then s
  else if !(s.link k).ll.resumed s.clk.up then (s.sendControls k).emit (.idle k 1)
  else
    let s := s.linkResumed k
    if s.injects k then s.injectCopy k else (s.sendControls k).sendFrame k

def execFrameTx (link : LinkId) (s : State) : Res := .next (s.frameBoundary link.val).kick

/-! ### The scheduling interval (R198 to R201, R205) -/

/-- One link at the boundary of 1 us. -/
def State.linkBoundary (s : State) (k : Nat) : State :=
  let r := s.boundary k
  let s := s.modLink k fun l => { l with sch := r.1 }
  let s := if r.2 then s.raise srcGlost else s
  if r.1.scale < 65536 then s.count 4 3 k none else s

/-- The boundary: a committed table takes effect, every link and every toll gate refills. It comes once in an interval of milestone
time (R198); intervals that end without this row refill nothing (DESIGN CHOICE, log 165). -/
def State.schedBoundary (s : State) : State :=
  if !s.running || decide (s.usIndex ≤ s.schedUs) then s
  else
    let s := forEach (List.range 24) (fun k s => s.linkBoundary k) (State.applySched { s with schedUs := s.usIndex })
    forEach (List.range 32) (fun j s => s.refillGate j) s

def execSchedInterval (dt : Nat) (s : State) : Res := .next ((s.passNs dt).schedBoundary).kick

end Sys2Proof.Machine
end

