-- ==== Sys2Proof/Machine/Dispatch.lean ====
section
/-! DEFINITION. The dispatch: every command of the opcode table to its meaning. -/

namespace Sys2Proof.Machine

/-- The effect of a command on everything but the queue. -/
def exec (i : Instr) (s : State) : Host.Outcome State Fault Refusal :=
  match i with
  | .coldReset testmode => Sys2Proof.Machine.execColdReset testmode s
  | .warmReset => Sys2Proof.Machine.execWarmReset s
  | .blockRst => Sys2Proof.Machine.execBlockRst s
  | .partRst mask => Sys2Proof.Machine.execPartRst mask s
  | .partResetDone p => Sys2Proof.Machine.execPartResetDone p s
  | .linkRst mask => Sys2Proof.Machine.execLinkRst mask s
  | .bootStageAdvance selftestOk dt => Sys2Proof.Machine.execBootStageAdvance selftestOk dt s
  | .channelCredit ch => Sys2Proof.Machine.execChannelCredit ch s
  | .eportLoad port beat => Sys2Proof.Machine.execEportLoad port beat s
  | .eportStore port beat => Sys2Proof.Machine.execEportStore port beat s
  | .eportAadd port beat => Sys2Proof.Machine.execEportAadd port beat s
  | .eportAmin port beat => Sys2Proof.Machine.execEportAmin port beat s
  | .eportAmax port beat => Sys2Proof.Machine.execEportAmax port beat s
  | .eportAand port beat => Sys2Proof.Machine.execEportAand port beat s
  | .eportAor port beat => Sys2Proof.Machine.execEportAor port beat s
  | .eportAxor port beat => Sys2Proof.Machine.execEportAxor port beat s
  | .eportAswp port beat => Sys2Proof.Machine.execEportAswp port beat s
  | .eportAcas port beat => Sys2Proof.Machine.execEportAcas port beat s
  | .eportWdBeat port data => Sys2Proof.Machine.execEportWdBeat port data s
  | .eportCompletion port => Sys2Proof.Machine.execEportCompletion port s
  | .eportFabricTimeout port tag dt => Sys2Proof.Machine.execEportFabricTimeout port tag dt s
  | .carrierReadData port tag status data => Sys2Proof.Machine.execCarrierReadData port tag status data s
  | .carrierWriteAck port tag status => Sys2Proof.Machine.execCarrierWriteAck port tag status s
  | .nPortResponse port tag status data => Sys2Proof.Machine.execNPortResponse port tag status data s
  | .carrierPortTimeout port write tag dt => Sys2Proof.Machine.execCarrierPortTimeout port write tag dt s
  | .mgmtWrite addr size8 data => Sys2Proof.Machine.execMgmtWrite addr size8 data s
  | .rcFieldRead addr size8 => Sys2Proof.Machine.execRcFieldRead addr size8 s
  | .vwarnRise => Sys2Proof.Machine.execVwarnRise s
  | .vwarnRelease dt => Sys2Proof.Machine.execVwarnRelease dt s
  | .brownoutNoticeTimer dt => Sys2Proof.Machine.execBrownoutNoticeTimer dt s
  | .hbmHotChange stack high => Sys2Proof.Machine.execHbmHotChange stack high s
  | .hotNoticeTimer dt => Sys2Proof.Machine.execHotNoticeTimer dt s
  | .hclkLost => Sys2Proof.Machine.execHclkLost s
  | .refclkLost => Sys2Proof.Machine.execRefclkLost s
  | .speedSample period dt => Sys2Proof.Machine.execSpeedSample period dt s
  | .paceRecompute dt => Sys2Proof.Machine.execPaceRecompute dt s
  | .crossingResetRequest x coreSide => Sys2Proof.Machine.execCrossingResetRequest x coreSide s
  | .crossingResetAck x coreSide => Sys2Proof.Machine.execCrossingResetAck x coreSide s
  | .txeqApply lane => Sys2Proof.Machine.execTxeqApply lane s
  | .slip lane => Sys2Proof.Machine.execSlip lane s
  | .slipDone lane => Sys2Proof.Machine.execSlipDone lane s
  | .clear lane => Sys2Proof.Machine.execClear lane s
  | .windowDone lane bad => Sys2Proof.Machine.execWindowDone lane bad s
  | .blockLockAcquire lane => Sys2Proof.Machine.execBlockLockAcquire lane s
  | .blockLockLoss lane => Sys2Proof.Machine.execBlockLockLoss lane s
  | .cdrLockAcquire lane => Sys2Proof.Machine.execCdrLockAcquire lane s
  | .cdrLockLoss lane => Sys2Proof.Machine.execCdrLockLoss lane s
  | .adaptDone lane rx => Sys2Proof.Machine.execAdaptDone lane rx s
  | .fecCodewordRx link blocks symbols => Sys2Proof.Machine.execFecCodewordRx link blocks symbols s
  | .eyeScanStart lane => Sys2Proof.Machine.execEyeScanStart lane s
  | .eyeScanDone lane errs moved => Sys2Proof.Machine.execEyeScanDone lane errs moved s
  | .prbsEnable lane w => Sys2Proof.Machine.execPrbsEnable lane w s
  | .injOne lane => Sys2Proof.Machine.execInjOne lane s
  | .prbsChkLock lane => Sys2Proof.Machine.execPrbsChkLock lane s
  | .prbsChkUnlock lane => Sys2Proof.Machine.execPrbsChkUnlock lane s
  | .enable link => Sys2Proof.Machine.execEnable link s
  | .linkDisable link => Sys2Proof.Machine.execLinkDisable link s
  | .retrain link => Sys2Proof.Machine.execRetrain link s
  | .admitGuest link => Sys2Proof.Machine.execAdmit link s
  | .test link on => Sys2Proof.Machine.execTest link on s
  | .trainRowAction link => Sys2Proof.Machine.execTrainRowAction link s
  | .trainRowTimeout link dt => Sys2Proof.Machine.execTrainRowTimeout link dt s
  | .eyeCheckDone link => Sys2Proof.Machine.execEyeCheckDone link s
  | .stepped link => Sys2Proof.Machine.execStepped link s
  | .trainingBlockRx lane complemented w => Sys2Proof.Machine.execTrainingBlockRx lane complemented w s
  | .eqReqSend lane req => Sys2Proof.Machine.execEqReqSend lane req s
  | .helloTimer link dt => Sys2Proof.Machine.execHelloTimer link dt s
  | .hello link => Sys2Proof.Machine.execHello link s
  | .tcommitTrainingTable => Sys2Proof.Machine.execTcommitTrainingTable s
  | .tcommitInstalledPlan => Sys2Proof.Machine.execTcommitInstalledPlan s
  | .tcommitRoutingTable => Sys2Proof.Machine.execTcommitRoutingTable s
  | .tcommitSchedulingTable => Sys2Proof.Machine.execTcommitSchedulingTable s
  | .tcommitInnkeeperTable => Sys2Proof.Machine.execTcommitInnkeeperTable s
  | .tcommitSamovarTable => Sys2Proof.Machine.execTcommitSamovarTable s
  | .tcommitFormatTable => Sys2Proof.Machine.execTcommitFormatTable s
  | .tcommitSipTree => Sys2Proof.Machine.execTcommitSipTree s
  | .tcommitTastingMenu => Sys2Proof.Machine.execTcommitTastingMenu s
  | .commitDone => Sys2Proof.Machine.execCommitDone s
  | .frame link fr => Sys2Proof.Machine.execFrame link fr s
  | .ack link w => Sys2Proof.Machine.execAck link w s
  | .credit link w => Sys2Proof.Machine.execCredit link w s
  | .credInit link w => Sys2Proof.Machine.execCredInit link w s
  | .pace link w => Sys2Proof.Machine.execPace link w s
  | .fatal link w => Sys2Proof.Machine.execFatal link w s
  | .curfewEntryBlock link w => Sys2Proof.Machine.execCurfewEntryBlock link w s
  | .curfewResumeBlock link w => Sys2Proof.Machine.execCurfewResumeBlock link w s
  | .ackBlockTimer link => Sys2Proof.Machine.execAckBlockTimer link s
  | .credInitTimer link dt => Sys2Proof.Machine.execCredInitTimer link dt s
  | .replayTimeout link dt => Sys2Proof.Machine.execReplayTimeout link dt s
  | .frameTx link => Sys2Proof.Machine.execFrameTx link s
  | .schedInterval dt => Sys2Proof.Machine.execSchedInterval dt s
  | .rd src => Sys2Proof.Machine.execRd src s
  | .wr src => Sys2Proof.Machine.execWr src s
  | .rsigPacket src => Sys2Proof.Machine.execRsigPacket src s
  | .atom src => Sys2Proof.Machine.execAtom src s
  | .rdBf src => Sys2Proof.Machine.execRdBf src s
  | .wrBf src => Sys2Proof.Machine.execWrBf src s
  | .atomBf src => Sys2Proof.Machine.execAtomBf src s
  | .brd src => Sys2Proof.Machine.execBrd src s
  | .bwr src => Sys2Proof.Machine.execBwr src s
  | .brdBf src => Sys2Proof.Machine.execBrdBf src s
  | .bwrBf src => Sys2Proof.Machine.execBwrBf src s
  | .fillRequest src => Sys2Proof.Machine.execFillRequest src s
  | .cpl src => Sys2Proof.Machine.execCpl src s
  | .cplD src => Sys2Proof.Machine.execCplD src s
  | .onwardTimeout slot dt => Sys2Proof.Machine.execOnwardTimeout slot dt s
  | .busyRetry req dt => Sys2Proof.Machine.execBusyRetry req dt s
  | .stewardRequestTimeout req dt => Sys2Proof.Machine.execStewardRequestTimeout req dt s
  | .innkeeperEpoch dt => Sys2Proof.Machine.execInnkeeperEpoch dt s
  | .noteExpiry dt => Sys2Proof.Machine.execNoteExpiry dt s
  | .dirHoldEnd dt => Sys2Proof.Machine.execDirHoldEnd dt s
  | .plAsk src => Sys2Proof.Machine.execPlAsk src s
  | .plMove src => Sys2Proof.Machine.execPlMove src s
  | .plOpen src => Sys2Proof.Machine.execPlOpen src s
  | .plData src => Sys2Proof.Machine.execPlData src s
  | .plCommit src => Sys2Proof.Machine.execPlCommit src s
  | .plDir src => Sys2Proof.Machine.execPlDir src s
  | .plDrop src => Sys2Proof.Machine.execPlDrop src s
  | .plDirRetry pl dt => Sys2Proof.Machine.execPlDirRetry pl dt s
  | .queueBind q word data => Sys2Proof.Machine.execQueueBind q word data s
  | .queueUnbind q => Sys2Proof.Machine.execQueueUnbind q s
  | .start q => Sys2Proof.Machine.execStart q s
  | .restart q => Sys2Proof.Machine.execRestart q s
  | .queueClear q => Sys2Proof.Machine.execQueueClear q s
  | .skip q => Sys2Proof.Machine.execSkip q s
  | .queueHalt q => Sys2Proof.Machine.execQueueHalt q s
  | .doorbell q tenant value => Sys2Proof.Machine.execDoorbell q tenant value s
  | .ifetchLine stw => Sys2Proof.Machine.execIfetchLine stw s
  | .stewardChoose stw => Sys2Proof.Machine.execStewardChoose stw s
  | .stwCtlWrite stw en pool => Sys2Proof.Machine.execStwCtlWrite stw en pool s
  | .syncCtlWrite n alloc p => Sys2Proof.Machine.execSyncCtlWrite n alloc p s
  | .syncValWrite n value => Sys2Proof.Machine.execSyncValWrite n value s
  | .prtSyncAdd p n addend => Sys2Proof.Machine.execPrtSyncAdd p n addend s
  | .setg stw w => Sys2Proof.Machine.execSetg stw w s
  | .addg stw w => Sys2Proof.Machine.execAddg stw w s
  | .jmp stw w => Sys2Proof.Machine.execJmp stw w s
  | .bnz stw w => Sys2Proof.Machine.execBnz stw w s
  | .loop stw w => Sys2Proof.Machine.execLoop stw w s
  | .halt stw w => Sys2Proof.Machine.execHalt stw w s
  | .yield stw w => Sys2Proof.Machine.execYield stw w s
  | .copy stw w => Sys2Proof.Machine.execCopy stw w s
  | .put stw w => Sys2Proof.Machine.execPut stw w s
  | .get stw w => Sys2Proof.Machine.execGet stw w s
  | .puti stw w => Sys2Proof.Machine.execPuti stw w s
  | .fill stw w => Sys2Proof.Machine.execFill stw w s
  | .aadd stw w => Sys2Proof.Machine.execAadd stw w s
  | .amin stw w => Sys2Proof.Machine.execAmin stw w s
  | .amax stw w => Sys2Proof.Machine.execAmax stw w s
  | .aand stw w => Sys2Proof.Machine.execAand stw w s
  | .aor stw w => Sys2Proof.Machine.execAor stw w s
  | .axor stw w => Sys2Proof.Machine.execAxor stw w s
  | .aswp stw w => Sys2Proof.Machine.execAswp stw w s
  | .acas stw w => Sys2Proof.Machine.execAcas stw w s
  | .sig stw w => Sys2Proof.Machine.execSig stw w s
  | .wait stw w => Sys2Proof.Machine.execWait stw w s
  | .rsig stw w => Sys2Proof.Machine.execRsig stw w s
  | .fence stw w => Sys2Proof.Machine.execFence stw w s
  | .rsc stw w => Sys2Proof.Machine.execRsc stw w s
  | .agt stw w => Sys2Proof.Machine.execAgt stw w s
  | .sipred stw w => Sys2Proof.Machine.execSipred stw w s
  | .sipbar stw w => Sys2Proof.Machine.execSipbar stw w s
  | .scale stw w => Sys2Proof.Machine.execScale stw w s
  | .pin stw w => Sys2Proof.Machine.execPin stw w s
  | .unpin stw w => Sys2Proof.Machine.execUnpin stw w s
  | .migr stw w => Sys2Proof.Machine.execMigr stw w s
  | .repl stw w => Sys2Proof.Machine.execRepl stw w s
  | .unrepl stw w => Sys2Proof.Machine.execUnrepl stw w s
  | .hint stw w => Sys2Proof.Machine.execHint stw w s
  | .tload stw w => Sys2Proof.Machine.execTload stw w s
  | .tcommit stw w => Sys2Proof.Machine.execTcommit stw w s
  | .slipInstr stw w => Sys2Proof.Machine.execSlipInstr stw w s
  | .eqset stw w => Sys2Proof.Machine.execEqset stw w s
  | .eyescan stw w => Sys2Proof.Machine.execEyescan stw w s
  | .prbs stw w => Sys2Proof.Machine.execPrbs stw w s
  | .train stw w => Sys2Proof.Machine.execTrain stw w s
  | .linkset stw w => Sys2Proof.Machine.execLinkset stw w s
  | .taste stw w => Sys2Proof.Machine.execTaste stw w s
  | .mark stw w => Sys2Proof.Machine.execMark stw w s
  | .clBrd src => Sys2Proof.Machine.execClBrd src s
  | .clRing src => Sys2Proof.Machine.execClRing src s
  | .clDone src => Sys2Proof.Machine.execClDone src s
  | .clReady src => Sys2Proof.Machine.execClReady src s
  | .park g => Sys2Proof.Machine.execPark g s
  | .groupParked g => Sys2Proof.Machine.execGroupParked g s
  | .resume g => Sys2Proof.Machine.execResume g s
  | .abort g => Sys2Proof.Machine.execAbort g s
  | .stallDeadline g dt => Sys2Proof.Machine.execStallDeadline g dt s
  | .sipRed src => Sys2Proof.Machine.execSipRed src s
  | .sipBar src => Sys2Proof.Machine.execSipBar src s
  | .sipScale src => Sys2Proof.Machine.execSipScale src s
  | .sipAbort src => Sys2Proof.Machine.execSipAbort src s
  | .sipSlow src => Sys2Proof.Machine.execSipSlow src s
  | .sipTime src => Sys2Proof.Machine.execSipTime src s
  | .msGo => Sys2Proof.Machine.execMsGo s
  | .msSampleTimeout dt => Sys2Proof.Machine.execMsSampleTimeout dt s
  | .attest link => Sys2Proof.Machine.execAttest link s
  | .keyxOpen link => Sys2Proof.Machine.execKeyxOpen link s
  | .keyxEph link => Sys2Proof.Machine.execKeyxEph link s
  | .keyxConfirm link => Sys2Proof.Machine.execKeyxConfirm link s
  | .rekey link => Sys2Proof.Machine.execRekey link s
  | .advance link => Sys2Proof.Machine.execAdvance link s
  | .previousSlotRetire link dt => Sys2Proof.Machine.execPreviousSlotRetire link dt s
  | .secPartCtlWrite p valid bf tasteOk tag => Sys2Proof.Machine.execSecPartCtlWrite p valid bf tasteOk tag s
  | .scrubGo => Sys2Proof.Machine.execScrubGo s
  | .scrubDone => Sys2Proof.Machine.execScrubDone s
  | .spdmGo => Sys2Proof.Machine.execSpdmGo s
  | .spdmResponseDone => Sys2Proof.Machine.execSpdmResponseDone s
  | .faultDetect sources => Sys2Proof.Machine.execFaultDetect sources s
  | .errPulseEnd dt => Sys2Proof.Machine.execErrPulseEnd dt s
  | .fcStatusClear mask => Sys2Proof.Machine.execFcStatusClear mask s
  | .fcFirstClear => Sys2Proof.Machine.execFcFirstClear s
  | .errDriveWrite drive => Sys2Proof.Machine.execErrDriveWrite drive s
  | .faultInject source => Sys2Proof.Machine.execFaultInject source s
  | .faultb src => Sys2Proof.Machine.execFaultb src s
  | .counterSelectWrite n data => Sys2Proof.Machine.execCounterSelectWrite n data s
  | .counterPreset n data => Sys2Proof.Machine.execCounterPreset n data s
  | .traceEnable => Sys2Proof.Machine.execTraceEnable s
  | .traceRecordTake => Sys2Proof.Machine.execTraceRecordTake s
  | .traceDataRead => Sys2Proof.Machine.execTraceDataRead s
  | .fire k => Sys2Proof.Machine.execFire k s
  | .triggerTime dt => Sys2Proof.Machine.execTriggerTime dt s
  | .counterExport dt => Sys2Proof.Machine.execCounterExport dt s
  | .obWrite src => Sys2Proof.Machine.execObWrite src s
  | .curfewPacket src => Sys2Proof.Machine.execCurfewPacket src s
  | .enter => Sys2Proof.Machine.execEnter s
  | .curfewIn => Sys2Proof.Machine.execCurfewIn s
  | .curfewTimed dt => Sys2Proof.Machine.execCurfewTimed dt s
  | .curfewResume => Sys2Proof.Machine.execCurfewResume s
  | .resumeWaitExpiry link dt => Sys2Proof.Machine.execResumeWaitExpiry link dt s
  | .scanStart => Sys2Proof.Machine.execScanStart s
  | .seek sect num => Sys2Proof.Machine.execSeek sect num s
  | .scanDataRead => Sys2Proof.Machine.execScanDataRead s
  | .scansel w => Sys2Proof.Machine.execScansel w s
  | .scanout => Sys2Proof.Machine.execScanout s
  | .powerWindow watts dt => Sys2Proof.Machine.execPowerWindow watts dt s
  | .counterViewSnapshot dt => Sys2Proof.Machine.execCounterViewSnapshot dt s
  | .benchInject => Sys2Proof.Machine.execBenchInject s
  | .trstN => Sys2Proof.Machine.execTrstN s

end Sys2Proof.Machine
end

