-- ==== Sys2Proof/Machine/Step.lean ====
section
/-! DEFINITION. The step: the command at the front of the queue, or one tick of the milestone clock when the queue is
empty. -/

namespace Sys2Proof.Machine

/-- The state without the command at the front of its queue. -/
def State.rest (s : State) (l : List Instr) : State := { s with pending := l }

/-- One step: the command at the front of `pending` runs on the state with the queue's rest. On an empty queue the block
idles for one 0.8 ns tick of the milestone clock (DESIGN CHOICE, log 1). -/
def step (s : State) : Host.Outcome State Fault Refusal :=
  match s.pending with
  | [] => .next (s.pass 4)
  | c :: l => exec c (s.rest l)

/-- The command a table word spells, put at the front of the queue; the table gives no bits, so no word spells one. -/
def State.withFetchWord (s : State) (nbits w : Nat) : State :=
  match decodeTableWord nbits w with
  | some c => { s with pending := c :: s.pending }
  | none => s

end Sys2Proof.Machine
end

