-- ==== Sys2Proof/Safety.lean ====
section
/-! DEFINITION. What a safe run is, in the terms the statements use: how a command ends, when management commands act, and
the invariants of the block. -/

namespace Sys2Proof.Safety
open Sys2Proof.Machine

/-- The command's own effect on the block is `u`; what it sets free then happens before the command ends (`kick`). -/
def Does (c : Instr) (s u : State) : Prop := exec c s = .next u.kick

/-- The management port performs commands for a sender that holds a CMD credit (R33, R50). -/
def Port (s : State) : Prop := s.mgmtOpen = true ∧ s.mgCmd ≠ 0
/-- The management port performs commands, and no curfew holds writes (R33, R50, R454). -/
def Open (s : State) : Prop := Port s ∧ s.obs.curfew.on = false

/-- A management write whose effect is `u`, answered OK (R49). -/
def Answers (c : Instr) (s u : State) : Prop := Does c s (u.mgReply 0 mgOk)

/-- A step of the block whatever its command: `t` follows `s` by one command. -/
def Follows (s t : State) : Prop := ∃ c, exec c s = .next t

/-- Tenancy as R383 keeps it: partition 0 is valid, and no two valid partitions hold one tag. -/
def Tenancy (s : State) : Prop :=
  (s.part 0).valid = true ∧
    ∀ p r, p < 16 → r < 16 → p ≠ r → (s.part p).valid = true → (s.part r).valid = true → (s.part p).tag ≠ (s.part r).tag

end Sys2Proof.Safety
end

