-- ==== Sys2Proof/Certificates/Slice0/Obligations.lean ====
section
/-! DEFINITION. The statements for the provers. `Does c s u` says that command `c` at state `s` completes in the next state
that `u` and the work it has set free give; `Answers` that a management write does so with the response OK; `Port` that
the management port performs commands and `Open` that no curfew holds them either. -/

section Statements
open Sys2Proof Sys2Proof.Machine Sys2Proof.Safety

/-- A step takes the command at the front of the queue and runs it on the state with the queue's rest. -/
def Obligations.StepRunsFront : Prop :=
  ∀ (s : State) (c : Instr) (l : List Instr), s.pending = c :: l →
    step s = exec c (s.rest l) ∧ (s.rest l).pending = l ∧ ∀ m, (s.rest l).rest m = s.rest m

/-- With no command waiting the block idles for one tick of 0.8 ns: nothing but time moves (the model's choice, log 1). The model's
own choices in this are in the log: 1. -/
def Obligations.IdleStepIsTick : Prop :=
  ∀ s : State, s.pending = [] → ∃ k : Clock, step s = .next { s with clk := k } ∧ k.up = s.clk.up + 4 ∧ k.ofs = s.clk.ofs ∧
    (s.obs.curfew.on = true → k.core = s.clk.core ∧ k.act = s.clk.act) ∧
    (s.fc.safe = true ∨ s.pins.hold = true → k.act = s.clk.act)

/-- A cold reset leaves the state of State.reset with the strap as sampled; what is not the block's own stays: the queue of commands,
the record of what it sent, the counters of free values and of ids. A warm reset leaves that state too, at SRAM_INIT, but for the
fuse shadow, the clocks and TESTMODE, which stay, FC_STATUS and FC_FIRST, which go to the FC_LAST registers, and the carrier
commands, whose answers are awaited and discarded. BLOCK_RST is answered OK, and resets like a warm reset of its own cause once
its response has left: at once where the RSP credits let it out with the older ones, else it is due when they have left, whatever
responses come after it; before MGMT_OPEN it is answered
BOOTING. A boot stage whose time has come, VWARN low, is followed by the next one, with the initial credits when that is READY;
a self-test that failed ends in SELFTEST_FAIL with its source; before the time, or under VWARN, only time passes. That a warm reset takes
the TAP's registers and read position with it (log 152) and leaves SEC_OPKEY zero (log 119) are the model's choice and reading. The
model's other choices in this are in the log: 9, 10, 18, 160. -/
def Obligations.ResetsAndBoot : Prop :=
  (∀ (tm : Bool) (s : State), exec (.coldReset tm) s = .next { State.reset with
     pending := s.pending, sent := s.sent, freeCtr := s.freeCtr, nextId := s.nextId, boot := { testmode := tm } }) ∧
  (∀ s : State, exec .warmReset s = .next { State.reset with
     pending := s.pending, sent := s.sent, freeCtr := s.freeCtr, nextId := s.nextId, fuses := s.fuses, clk := s.clk
     boot := { stage := .sramInit, lastReset := 1, testmode := s.boot.testmode, released := s.clk.up }
     cpOut := s.cpOut.map fun a => { a with dead := true }
     fc := { lastStatus := s.fc.status, lastFirst := s.fc.first.word, lastTime := s.fc.first.time } }) ∧
  (∀ s : State, Port s →
     (s.boot.due = none → s.mgQ.length < s.mgCrd →
       exec .blockRst s = .next { State.reset with
         pending := s.pending, sent := s.sent ++ .mgCredit 1 :: (s.mgQ.map fun r => .mgRsp r.1 r.2) ++ [.mgRsp 0 mgOk], freeCtr := s.freeCtr, nextId := s.nextId
         fuses := s.fuses, clk := s.clk
         boot := { stage := .sramInit, lastReset := 2, testmode := s.boot.testmode, released := s.clk.up }
         cpOut := s.cpOut.map fun a => { a with dead := true }
         fc := { lastStatus := s.fc.status, lastFirst := s.fc.first.word, lastTime := s.fc.first.time } }) ∧
     (s.boot.due = none → s.mgCrd ≤ s.mgQ.length → ∃ t, exec .blockRst s = .next t ∧
       t.boot = { s.boot with due := some (s.mgQ.length + 1 - s.mgCrd) } ∧ t.queues = s.queues ∧
       t.mgQ = s.mgQ.drop s.mgCrd ++ [(0, mgOk)] ∧ t.links = s.links ∧ t.fc = s.fc) ∧
     (∀ k, s.boot.due = some k → s.mgCrd < k → s.mgCrd ≤ s.mgQ.length → ∃ t, exec .blockRst s = .next t ∧
       t.boot = { s.boot with due := some (k - s.mgCrd) } ∧ t.mgQ = s.mgQ.drop s.mgCrd ++ [(0, mgOk)])) ∧
  (∀ s : State, s.mgmtOpen = false → s.mgCmd ≠ 0 → exec .blockRst s = .next (s.mgReply 0 mgBooting)) ∧
  (∀ (ok : Bool) (dt : Nat) (s : State) (b : BootStage) (t : Nat),
     s.boot.stage.next (decide (s.boot.lastReset = 0)) = some (b, t) → s.pins.vwarn = false →
     s.boot.released + us5 t ≤ s.clk.up + 5 * dt →
     (s.boot.stage = .selftest ∧ ok = false →
       Does (.bootStageAdvance ok dt) s
         (State.raise { s.passNs dt with boot := { s.boot with stage := .selftestFail } } srcSelftest)) ∧
     (¬ (s.boot.stage = .selftest ∧ ok = false) → b ≠ .ready →
       Does (.bootStageAdvance ok dt) s { s.passNs dt with boot := { s.boot with stage := b } }) ∧
     (¬ (s.boot.stage = .selftest ∧ ok = false) → b = .ready →
       Does (.bootStageAdvance ok dt) s (State.giveCredits { s.passNs dt with boot := { s.boot with stage := b } }))) ∧
  (∀ (ok : Bool) (dt : Nat) (s : State), (∀ b t, s.boot.stage.next (decide (s.boot.lastReset = 0)) = some (b, t) →
       s.pins.vwarn = true ∨ s.clk.up + 5 * dt < s.boot.released + us5 t) →
     Does (.bootStageAdvance ok dt) s (s.passNs dt))

/-- PART_RST of a partition other than P0 that is not resetting sets PART_BUSY and resets it, or holds its reset while nothing is
admitted; P0, and one that is resetting, it leaves as they are; the end of a reset that is not held clears the bit and the
partition's format flags; with no reset under way it does nothing; and LINK_RST resets the link, outside the safe state, where it
does nothing. The model's own choices in this are in the log: 15, 16. -/
def Obligations.PartitionAndLinkResets : Prop :=
  (∀ (p : PartId) (s : State), p ≠ 0 → bit s.boot.partBusy p = false → s.admits = true → Open s →
    Answers (.partRst (BitVec.ofNat 16 (2 ^ p.val))) s
      (State.partReset { s with boot := { s.boot with partBusy := s.boot.partBusy ||| BitVec.ofNat 16 (2 ^ p.val) } } p)) ∧
  (∀ (p : PartId) (s : State), p ≠ 0 → bit s.boot.partBusy p = false → s.admits = false → Open s →
    Answers (.partRst (BitVec.ofNat 16 (2 ^ p.val))) s
      { s with boot := { s.boot with partBusy := s.boot.partBusy ||| BitVec.ofNat 16 (2 ^ p.val)
                                     partHeld := s.boot.partHeld ||| BitVec.ofNat 16 (2 ^ p.val) } }) ∧
  (∀ (p : PartId) (s : State), p = 0 ∨ bit s.boot.partBusy p = true → Open s →
    Answers (.partRst (BitVec.ofNat 16 (2 ^ p.val))) s s) ∧
  (∀ (p : PartId) (s : State), s.running = true → bit s.boot.partBusy p = true → bit s.boot.partHeld p = false →
    exec (.partResetDone p) s =
      .next { s with
        fmtFlags := s.fmtFlags &&& ~~~(BitVec.ofNat 64 (1 <<< p.val) ||| BitVec.ofNat 64 (1 <<< (32 + p.val)))
        boot := { s.boot with partBusy := s.boot.partBusy &&& ~~~(BitVec.ofNat 16 (2 ^ p.val)) } }) ∧
  (∀ (p : PartId) (s : State), bit s.boot.partBusy p = false → exec (.partResetDone p) s = .next s) ∧
  (∀ (k : LinkId) (s : State), s.fc.safe = false → Open s →
    Answers (.linkRst (BitVec.ofNat 24 (2 ^ k.val))) s (s.linkReset k)) ∧
  (∀ (mask : BitVec 24) (s : State), s.fc.safe = true → Open s → Answers (.linkRst mask) s s)

/-- A credit that comes on a channel on which the block is the sender is one credit more, and an event of the channel's counter in
its crossing; with 255 held it is a carrier port protocol error; while the port is in reset its counters stay zero. Which counters
a crossing has is the model's own choice, in the log: 128. -/
def Obligations.CreditsCount : Prop :=
  (∀ (n : EPortId) (s : State), s.portReset n = false → (s.eport n).cplCrd < 255 →
    Does (.channelCredit (.eCpl n)) s ((s.crossEvents n .cpl 1).modEPort n fun p => { p with cplCrd := p.cplCrd + 1 })) ∧
  (∀ (p : CPort) (s : State), s.portReset (cportXing p) = false →
    (s.crd p 0 < 255 → Does (.channelCredit (.rcmd p)) s ((s.crossEvents (cportXing p) .rcmd 1).modCrd p 0 (· + 1))) ∧
    (s.crd p 1 < 255 → Does (.channelCredit (.wcmd p)) s ((s.crossEvents (cportXing p) .wcmd 1).modCrd p 1 (· + 1))) ∧
    (s.crd p 2 < 255 → Does (.channelCredit (.wd p)) s ((s.crossEvents (cportXing p) .wdata 1).modCrd p 2 (· + 1)))) ∧
  (∀ (n : Fin 4) (s : State), s.portReset (cportXing (.n n)) = false → s.crd (.n n) 0 < 255 →
    Does (.channelCredit (.ncmd n)) s ((s.crossEvents (cportXing (.n n)) .rcmd 1).modCrd (.n n) 0 (· + 1))) ∧
  (∀ s : State, s.portReset mgXing = false → s.mgCrd < 255 →
    Does (.channelCredit .mgRsp) s (State.mgPump { s.crossEvents mgXing .rsp 1 with mgCrd := s.mgCrd + 1 })) ∧
  ∀ (ch : Channel) (s : State),
    (s.portReset (channelXing ch) = true → Does (.channelCredit ch) s s) ∧
    (s.portReset (channelXing ch) = false → 255 ≤ (match ch with
      | .eCpl n => (s.eport n).cplCrd
      | .rcmd p => s.crd p 0
      | .wcmd p => s.crd p 1
      | .wd p => s.crd p 2
      | .ncmd n => s.crd (.n n) 0
      | .mgRsp => s.mgCrd) → Does (.channelCredit ch) s ((s.crossEvents (channelXing ch) .proto 1).raise srcCpProto))

/-- An E-port load that passes every check makes a read request of its bytes, unless an earlier command of its stream and line is not a
request yet: then it waits. A store or an atomic takes its place on the port and waits for its WD beat; its CMD credit is returned,
unless the block withholds credits. The WD beat goes to the oldest command that waits for one, whose request is then made with its
bytes. A command that breaks R36, or is refused at this chip by R213, makes no request: it completes with its status at once, or, where
a WD beat belongs to it, when that beat has come. The model's own choices in this are in the log: 25. -/
def Obligations.EportCommands : Prop :=
  (∀ (port : EPortId) (beat : BitVec 128) (s : State), beatOp beat = 0 → (s.eport port).cmdCrd ≠ 0 →
     ((s.eport port).flight.all fun c => decide (c.1 ≠ beatTag beat)) = true → s.fc.safe = false → s.beatCheck beat = stOk →
     ((¬ ∃ c ∈ (s.eport port).flight, (c.2.stage = .needWd ∨ c.2.stage = .queued) ∧ c.2.early = none ∧
         beatStream c.2.beat = beatStream beat ∧ (beatAddr c.2.beat).toNat / 64 = (beatAddr beat).toNat / 64) →
       ∃ u r, Does (.eportLoad port beat) s u ∧ u.reqs = s.reqs ++ [r] ∧ r.id = s.nextId ∧ r.who = .eport port (beatTag beat) ∧
         r.fab = beatAddr beat ∧ r.n = beatLen beat ∧ r.write = false ∧ r.ordered = false ∧ r.stage = .held ∧
         r.pkt.op = (if rackGlobal (beatAddr beat) then 0x80 else 0x90) ∧ r.pkt.ptag = (s.part (beatPart beat)).tag ∧
         u.jobs = s.jobs ∧ u.cpq = s.cpq ∧ u.links = s.links ∧ u.queues = s.queues ∧ u.parts = s.parts) ∧
     ((∃ c ∈ (s.eport port).flight, (c.2.stage = .needWd ∨ c.2.stage = .queued) ∧ c.2.early = none ∧
         beatStream c.2.beat = beatStream beat ∧ (beatAddr c.2.beat).toNat / 64 = (beatAddr beat).toNat / 64) →
       ∃ u, Does (.eportLoad port beat) s u ∧ u.reqs = s.reqs ∧
         (u.eport port).flight = (s.eport port).flight ++ [(beatTag beat, { beat := beat, stage := .queued, at5 := s.clk.core })] ∧
         u.jobs = s.jobs ∧ u.links = s.links ∧ u.queues = s.queues)) ∧
  (∀ (port : EPortId) (beat : BitVec 128) (s : State), ∀ e ∈ [(Instr.eportStore port beat, 1), (.eportAadd port beat, 2),
       (.eportAmin port beat, 3), (.eportAmax port beat, 4), (.eportAand port beat, 5), (.eportAor port beat, 6),
       (.eportAxor port beat, 7), (.eportAswp port beat, 8), (.eportAcas port beat, 9)],
     beatOp beat = e.2 → (s.eport port).cmdCrd ≠ 0 → (s.eport port).wdBuf = [] →
     ((s.eport port).flight.all fun c => decide (c.1 ≠ beatTag beat)) = true → s.fc.safe = false → s.beatCheck beat = stOk →
     ∃ u, Does e.1 s u ∧ (u.eport port).wdWait = (s.eport port).wdWait ++ [some (beatTag beat)] ∧
       (u.eport port).flight = (s.eport port).flight ++ [(beatTag beat, { beat := beat, stage := .needWd, at5 := s.clk.core })] ∧
       (u.eport port).cmdCrd = (s.eport port).cmdCrd + (if s.withholds false then 0 else 1 + (s.eport port).cmdOwed) - 1 ∧ u.reqs = s.reqs ∧ u.jobs = s.jobs ∧
       (∀ n, n ≠ port.val → u.eport n = s.eport n) ∧ u.links = s.links ∧ u.queues = s.queues ∧ u.parts = s.parts) ∧
  (∀ (port : EPortId) (data : Bytes) (s : State) (tag : Nat) (ts : List (Option Nat)) (c : ECmd) (fl : List (Nat × ECmd)),
     (s.eport port).wdCrd ≠ 0 → (s.eport port).wdBuf = [] → (s.eport port).wdWait = some tag :: ts →
     (s.eport port).flight = (tag, c) :: fl → c.stage = .needWd → c.early = none → beatTag c.beat = tag →
     (∀ e ∈ fl, e.2.stage ≠ .queued) →
     ∃ u r, Does (.eportWdBeat port data) s u ∧ u.reqs = s.reqs ++ [r] ∧ r.who = .eport port tag ∧ r.fab = beatAddr c.beat ∧
       r.n = beatLen c.beat ∧ r.write = decide (beatOp c.beat ≠ 0) ∧ (u.eport port).wdWait = ts ∧
       (beatOp c.beat = 1 → r.pkt.data = slice (slice data 0 64) ((beatAddr c.beat).toNat % 64) (beatLen c.beat)) ∧
       (∀ n, n ≠ port.val → u.eport n = s.eport n) ∧ u.jobs = s.jobs ∧ u.links = s.links ∧ u.queues = s.queues) ∧
  ((∀ (beat : BitVec 128) (s : State),
     (beatOk beat = false → s.beatCheck beat = stMalformed) ∧
     (beatOk beat = true → s.beatCheck beat =
       s.issueCheck (beatPart beat) (beatAddr beat) (beatLen beat) (if beatOp beat = 0 then 0 else if beatOp beat = 1 then 1 else 2))) ∧
   (∀ (port : EPortId) (beat : BitVec 128) (st : Nat) (s : State), beatOp beat = 0 ∨ 0x0A ≤ beatOp beat → (s.eport port).cmdCrd ≠ 0 →
     ((s.eport port).flight.all fun c => decide (c.1 ≠ beatTag beat)) = true → s.fc.safe = false → s.beatCheck beat = st → st ≠ stOk →
     ∃ u, Does (.eportLoad port beat) s u ∧
       (u.eport port).cplQ = (s.eport port).cplQ ++ [(beatTag beat, BitVec.ofNat 4 st, [])] ∧
       (u.eport port).flight = (s.eport port).flight ++
         [(beatTag beat, { beat := beat, stage := .answered, early := some (BitVec.ofNat 4 st), at5 := s.clk.core })] ∧
       u.reqs = s.reqs ∧ u.jobs = s.jobs ∧ u.links = s.links ∧ u.queues = s.queues) ∧
   (∀ (port : EPortId) (beat : BitVec 128) (st : Nat) (s : State), ∀ e ∈ [(Instr.eportStore port beat, 1), (.eportAadd port beat, 2),
        (.eportAmin port beat, 3), (.eportAmax port beat, 4), (.eportAand port beat, 5), (.eportAor port beat, 6),
        (.eportAxor port beat, 7), (.eportAswp port beat, 8), (.eportAcas port beat, 9)],
     beatOp beat = e.2 → (s.eport port).cmdCrd ≠ 0 → (s.eport port).wdBuf = [] →
     ((s.eport port).flight.all fun c => decide (c.1 ≠ beatTag beat)) = true → s.fc.safe = false → s.beatCheck beat = st → st ≠ stOk →
     ∃ u, Does e.1 s u ∧ (u.eport port).wdWait = (s.eport port).wdWait ++ [some (beatTag beat)] ∧
       (u.eport port).flight = (s.eport port).flight ++
         [(beatTag beat, { beat := beat, stage := .needWd, early := some (BitVec.ofNat 4 st), at5 := s.clk.core })] ∧
       (u.eport port).cplQ = (s.eport port).cplQ ∧ u.reqs = s.reqs) ∧
   (∀ (port : EPortId) (data : Bytes) (s : State) (tag : Nat) (ts : List (Option Nat)) (c : ECmd) (fl : List (Nat × ECmd)) (st : BitVec 4),
     (s.eport port).wdCrd ≠ 0 → (s.eport port).wdBuf = [] → (s.eport port).wdWait = some tag :: ts →
     (s.eport port).flight = (tag, c) :: fl → c.stage = .needWd → c.early = some st → (∀ e ∈ fl, e.2.stage ≠ .queued) →
     ∃ u, Does (.eportWdBeat port data) s u ∧ u.reqs = s.reqs ∧ (u.eport port).wdWait = ts ∧
       (u.eport port).cplQ = (s.eport port).cplQ ++ [(tag, st, [])] ∧ (∀ n, n ≠ port.val → u.eport n = s.eport n) ∧ u.jobs = s.jobs))

/-- The oldest queued completion leaves when a CPL credit is held, outside curfew or in the safe state: its beat, its credit, its TAG
free, and a WD beat it never took belongs to no later command. A response with its command outstanding returns the beat's credit and is
taken as the command's answer, in the safe state only as the source it records; one without a credit is a carrier port protocol
error of its crossing. A command that has waited its time
out is given up: at an E-port its request times out; at a carrier port the command fails and its TAG stays taken. The model's
own choices in this are in the log: 24, 27. -/
def Obligations.PortAnswers : Prop :=
  (∀ (port : EPortId) (s : State) (tag : Nat) (st : BitVec 4) (data : Bytes) (l : List (Nat × BitVec 4 × Bytes)) (c : ECmd),
     (s.eport port).cplQ = (tag, st, data) :: l → (s.eport port).cplCrd ≠ 0 → s.obs.curfew.on = false ∨ s.fc.safe = true →
     ((s.eport port).flight.find? fun e => decide (e.1 = tag)) = some (tag, c) →
     ∃ u, Does (.eportCompletion port) s u ∧
       u.sent = s.sent ++ [.eCpl port (BitVec.ofNat 32 (tag <<< 23 + st.toNat <<< 19)) (cplBeat c.beat st data)] ∧
       u.eport port = { s.eport port with cplQ := l, cplCrd := (s.eport port).cplCrd - 1,
                                          flight := (s.eport port).flight.filter fun e => decide (e.1 ≠ tag)
                                          wdWait := (s.eport port).wdWait.map fun t => if t = some tag then none else t } ∧
       (∀ n, n ≠ port.val → u.eport n = s.eport n) ∧ u.reqs = s.reqs ∧ u.fc = s.fc ∧ u.cpCrd = s.cpCrd) ∧
  ((∀ (port : CPort) (tag : BitVec 9) (st : BitVec 2) (data : Bytes) (s : State) (a : Acc),
     (s.cpOut.find? fun b => decide (b.port = port ∧ b.tag = tag.toNat) && (some false == some b.write)) = some a →
     s.rxCrd port false ≠ 0 → st ≠ 3 → a.dead = false → s.fc.safe = false →
     Does (.carrierReadData port tag st data) s ((s.returnCredit port false).answer a st data)) ∧
   (∀ (port : CPort) (tag : BitVec 9) (st : BitVec 2) (s : State) (a : Acc),
     (s.cpOut.find? fun b => decide (b.port = port ∧ b.tag = tag.toNat) && (some true == some b.write)) = some a →
     s.rxCrd port true ≠ 0 → st ≠ 3 → a.dead = false → s.fc.safe = false →
     Does (.carrierWriteAck port tag st) s ((s.returnCredit port true).answer a st [])) ∧
   (∀ (port : Fin 4) (tag : BitVec 7) (st : BitVec 2) (data : Bytes) (s : State) (a : Acc),
     (s.cpOut.find? fun b => decide (b.port = .n port ∧ b.tag = tag.toNat)) = some a →
     s.rxCrd (.n port) false ≠ 0 → st ≠ 3 → a.dead = false → s.fc.safe = false →
     Does (.nPortResponse port tag st data) s ((s.returnCredit (.n port) false).answer a st data)) ∧
   (∀ (port : CPort) (n : Fin 4) (tag : BitVec 9) (tagN : BitVec 7) (st : BitVec 2) (data : Bytes) (s : State),
     (s.rxCrd port false = 0 → Does (.carrierReadData port tag st data) s (s.portProto (cportXing port))) ∧
     (s.rxCrd port true = 0 → Does (.carrierWriteAck port tag st) s (s.portProto (cportXing port))) ∧
     (s.rxCrd (.n n) false = 0 → Does (.nPortResponse n tagN st data) s (s.portProto (cportXing (.n n)))) ∧
     (∀ a, (s.cpOut.find? fun b => decide (b.port = port ∧ b.tag = tag.toNat) && (some false == some b.write)) = some a →
       s.rxCrd port false ≠ 0 → a.dead = false → s.fc.safe = true →
       let u := s.returnCredit port false
       let v : State := { u with cpOut := u.cpOut.erase a }
       (st = 0 → Does (.carrierReadData port tag st data) s v) ∧
       (st = 1 → Does (.carrierReadData port tag st data) s (v.raise (if a.smv && !a.write then srcStagePoison else srcCpPoison))) ∧
       (st = 2 → Does (.carrierReadData port tag st data) s (v.raise srcCpDecerr))))) ∧
  ((∀ (port : EPortId) (tag : BitVec 9) (dt : Nat) (s : State) (c : ECmd) (r : Req), s.running = true →
     ((s.eport port).flight.find? fun e => decide (e.1 = tag.toNat)) = some (tag.toNat, c) → c.stage ≠ .answered →
     c.at5 + s.fabricTmo ≤ s.clk.core + 5 * dt →
     (s.reqs.find? fun r => decide (r.who = .eport port tag.toNat) && !r.timedOut) = some r →
     Does (.eportFabricTimeout port tag dt) s ((s.passNs dt).timeOutReq r)) ∧
   (∀ (port : CPort) (write : Bool) (tag : BitVec 9) (dt : Nat) (s : State) (a : Acc), s.obs.curfew.on = false →
     (s.cpOut.find? fun b => decide (b.port = port ∧ b.tag = tag.toNat) && (isNPort port || b.write == write) && !b.dead) =
       some a →
     a.at5 + s.carrierTmo ≤ s.clk.core + 5 * dt → Does (.carrierPortTimeout port write tag dt) s ((s.passNs dt).expire a)))

/-- A write of the window: performed and answered OK; held in curfew (the hold list takes 256); MALFORMED where its address is not a
multiple of its size; BOOTING before MGMT_OPEN; without a CMD credit a carrier port protocol error. A read of the window answers the
word, with the counts of a lane brought up to the present, and an 8-byte one clears its RC fields, outside curfew; a 4-byte one
clears nothing, and returns its half. A 4-byte write to the low half of OBS_TRACE_CTL changes nothing. The model's own choices in
this are in the log: 19, 59, 108, 120. -/
def Obligations.ManagementAccess : Prop :=
  (∀ (addr : BitVec 26) (size8 : Bool) (data : BitVec 64) (s : State),
     (Open s → mgAligned addr.toNat size8 = true →
       Answers (.mgmtWrite addr size8 data) s (s.writeAt addr.toNat size8 data)) ∧
     (Port s → s.obs.curfew.on = true → mgAligned addr.toNat size8 = true → curfewOpen addr.toNat size8 data = false →
       s.obs.curfew.hold.length < 256 →
       Answers (.mgmtWrite addr size8 data) s
         { s with obs := { s.obs with curfew := { s.obs.curfew with hold := s.obs.curfew.hold ++ [(addr, size8, data)] } } }) ∧
     (Port s → mgAligned addr.toNat size8 = false →
       exec (.mgmtWrite addr size8 data) s = .next (s.mgReply 0 mgMalformed)) ∧
     (s.mgCmd = 0 → Does (.mgmtWrite addr size8 data) s (s.portProto mgXing)) ∧
     (s.mgmtOpen = false → s.mgCmd ≠ 0 → exec (.mgmtWrite addr size8 data) s = .next (s.mgReply 0 mgBooting))) ∧
  (∀ (addr : BitVec 26) (s : State), Port s →
     (addr.toNat % 8 = 0 → addr.toNat ≠ 0x20038 → addr.toNat ≠ 0x20308 →
       exec (.rcFieldRead addr true) s =
         .next (let u := s.settle addr.toNat
           (if u.obs.curfew.on then u else u.clearRc addr.toNat).mgReply (u.peek addr.toNat) mgOk)) ∧
     (addr.toNat % 4 = 0 → addr.toNat / 8 * 8 ≠ 0x20308 →
       exec (.rcFieldRead addr false) s =
         .next (let u := s.settle (addr.toNat / 8 * 8)
           u.mgReply (if addr.toNat % 8 = 4 then u.peek (addr.toNat / 8 * 8) >>> 32
             else u.peek (addr.toNat / 8 * 8) &&& 0xFFFFFFFF) mgOk)) ∧
     (addr.toNat < 0x200000 → ¬ (0x22000 ≤ addr.toNat ∧ addr.toNat < 0x23000) → s.settle addr.toNat = s)) ∧
  (∀ (data : BitVec 64) (s : State), Open s → Answers (.mgmtWrite 0x20010 false data) s s)

/-- VWARN at READY enters the hold: BROWNOUT and the notices; a hold that a BROWNOUT has begun goes on with its own. Its release ends the hold. While the hold lasts the notices are
repeated every 40 ms. A stack's heat is kept in HBM_HOT; the first rise raises HOT; notices follow each rise and every 40 ms. A
lost clock is its fault source. A measured period is kept with the largest; above
2,000 ps it is an undervoltage. The model's own choices in this are in the log: 11, 103. -/
def Obligations.PinsAndClocks : Prop :=
  ((∀ s : State, s.pins.vwarn = false → s.boot.stage = .ready → s.running = true → s.pins.hold = false →
     Does .vwarnRise s
       (State.raise { s with pins := { s.pins with vwarn := true, hold := true, holdNotice := s.clk.up } } srcBrownout).holdNotices) ∧
   (∀ s : State, s.pins.vwarn = false → s.pins.hold = true → Does .vwarnRise s { s with pins := { s.pins with vwarn := true } }) ∧
   (∀ s : State, s.pins.vwarn = false → s.pins.hold = false → s.boot.stage ≠ .ready →
     Does .vwarnRise s { s with pins := { s.pins with vwarn := true, holdNotice := s.clk.up } }) ∧
   (∀ (dt : Nat) (s : State), s.pins.hold = true → s.boot.stage = .ready → s.running = true →
     Does (.vwarnRelease dt) s (State.releaseHold { s.passNs dt with pins := { s.pins with vwarn := false } })) ∧
   (∀ (dt : Nat) (s : State), s.pins.hold = true → s.running = true → s.pins.holdNotice + ms5 40 ≤ s.clk.up + 5 * dt →
     Does (.brownoutNoticeTimer dt) s
       (State.holdNotices { s.passNs dt with pins := { s.pins with holdNotice := s.pins.holdNotice + ms5 40 } })) ∧
   (∀ (dt : Nat) (s : State), s.clk.up + 5 * dt < s.pins.holdNotice + ms5 40 → Does (.brownoutNoticeTimer dt) s (s.passNs dt))) ∧
  ((∀ (i : Fin 20) (s : State),
     Does (.hbmHotChange i false) s { s with pins := { s.pins with hot := s.pins.hot &&& ~~~(BitVec.ofNat 20 (2 ^ i.val)) } }) ∧
   (∀ (i : Fin 20) (s : State), s.pins.hot ≠ 0 → bit s.pins.hot i.val = false → s.running = true →
     Does (.hbmHotChange i true) s
       (State.slowNotices { s with pins := { s.pins with hot := s.pins.hot ||| BitVec.ofNat 20 (2 ^ i.val) } })) ∧
   (∀ (i : Fin 20) (s : State), s.pins.hot = 0 → s.fc.safe = false →
     Does (.hbmHotChange i true) s
       (let u := State.raise { s with pins := { s.pins with hot := BitVec.ofNat 20 (2 ^ i.val), hotNotice := s.clk.up } } srcHot
        if u.running then u.slowNotices else u)) ∧
   (∀ (dt : Nat) (s : State), s.running = true → s.pins.hot ≠ 0 → s.pins.hotNotice + ms5 40 ≤ s.clk.up + 5 * dt →
     Does (.hotNoticeTimer dt) s
       (State.slowNotices { s.passNs dt with pins := { s.pins with hotNotice := s.pins.hotNotice + ms5 40 } }))) ∧
  (∀ s : State, Does .hclkLost s (State.raise { s with pins := { s.pins with hclkDead := true } } srcHclkLost) ∧
     Does .refclkLost s (s.raise srcRefclkLost)) ∧
  (∀ (t : BitVec 16) (dt : Nat) (s : State), s.boot.stage ≠ .fuse →
     (t.toNat ≤ 2000 → Does (.speedSample t dt) s
       { s.passNs dt with pins := { s.pins with period := t, periodMax := if s.pins.periodMax < t then t else s.pins.periodMax } }) ∧
     (2000 < t.toNat → Does (.speedSample t dt) s
       (State.raise { s.passNs dt with pins := { s.pins with period := t, periodMax := if s.pins.periodMax < t then t else s.pins.periodMax } }
         srcUndervolt)))

/-- Every link takes the smallest PACE_K at which its line is no faster than the core, and 63 where none is: a higher value than the
announced one is announced at once, a lower one after ten computations of it. No lane and no queue changes. The model's own choices
in this are in the log: 17, 134. -/
def Obligations.PaceRecomputed : Prop :=
  ∀ (dt : Nat) (s : State), s.running = true → ∃ t, exec (.paceRecompute dt) s = .next t ∧ t.lanes = s.lanes ∧ t.queues = s.queues ∧
    ∀ k, k < 24 → ∀ j : Nat, j < 64 →
      ((s.link k).train.width * 265625 * 2 ^ (s.link k).train.grade.toNat * 32 * s.pins.period.toNat ≤ 528 * (32 + j) * 10 ^ 7 ∨
        j = 63) →
      (∀ i, i < j → 528 * (32 + i) * 10 ^ 7 <
        (s.link k).train.width * 265625 * 2 ^ (s.link k).train.grade.toNat * 32 * s.pins.period.toNat) →
      let l := (s.link k).ll
      let p : BitVec 6 := BitVec.ofNat 6 j
      (l.paceLocal < p → t.link k = { s.link k with ll := { l with paceLocal := p, paceDue := true, fall := 0, fallTo := 0 } }) ∧
      (p = l.paceLocal → t.link k = { s.link k with ll := { l with fall := 0, fallTo := 0 } }) ∧
      (p < l.paceLocal → l.fall = 0 ∨ l.fallTo ≠ p → t.link k = { s.link k with ll := { l with fall := 1, fallTo := p } }) ∧
      (p < l.paceLocal → 0 < l.fall → l.fall < 9 → l.fallTo = p → t.link k = { s.link k with ll := { l with fall := l.fall + 1 } }) ∧
      (p < l.paceLocal → 9 ≤ l.fall → l.fallTo = p →
        t.link k = { s.link k with ll := { l with paceLocal := p, paceDue := true, fall := 0, fallTo := 0 } })

/-- A reset request raises the request and the acknowledgement of its side, and the other side flushes its half of every event
counter: what it shows of those it sends, and its last accepted value of the others; at a
carrier port every credit counter is zero then, of the credits the block holds and of those the carrier holds; the headers of a lane
whose receive crossing it is are counted first, and every other lane stays. The acknowledgement
lets both levels of its side fall and flushes the half of its side; with the other side out of reset the port's receivers return
their initial credits, and the headers of a lane are counted from then on. An acknowledgement of a side that is not in reset does
nothing, nor one of the clocked side of a lane's receive crossing while clock recovery has no lock. Neither touches another crossing.
The model's own choices in this are in the log: 14, 59, 61, 128, 145. -/
def Obligations.CrossingResets : Prop :=
  (∀ (x : Crossing) (core : Bool) (s : State), ∃ t, exec (.crossingResetRequest x core) s = .next t ∧
    (t.xings.get {} (xingKey x)).side core = { req := true, ack := true } ∧
    (t.xings.get {} (xingKey x)).side (!core) = (s.xings.get {} (xingKey x)).side (!core) ∧
    (let u : State := match x with
        | .laneRx n => s.headSettle n.val
        | _ => s
     (∀ ch : EvCh, (t.xings.get {} (xingKey x)).ctrs.get {} ch.num =
        if decide (ch ∈ coreEvents) = core then { (u.xings.get {} (xingKey x)).ctrs.get {} ch.num with taken := 0 }
        else { (u.xings.get {} (xingKey x)).ctrs.get {} ch.num with sent := 0 }) ∧
     t.lanes = u.lanes) ∧
    (∀ m : Nat, (∀ n, x = .laneRx n → m ≠ n.val) → t.lane m = s.lane m) ∧
    (∀ y, y ≠ x → t.xings.get {} (xingKey y) = s.xings.get {} (xingKey y)) ∧
    (∀ n : Fin 53, x = .hclk n →
      (n.val < 16 → (t.eport n.val).cmdCrd = 0 ∧ (t.eport n.val).wdCrd = 0 ∧ (t.eport n.val).cmdOwed = 0 ∧
        (t.eport n.val).wdOwed = 0 ∧ (t.eport n.val).cplCrd = 0) ∧
      (∀ p, hclkPort n.val = some p → (∀ c < 3, t.crd p c = 0) ∧ ∀ wack, t.rxCrd p wack = 0) ∧
      (n.val = 52 → t.mgCrd = 0 ∧ t.mgCmd = 0)) ∧
    t.links = s.links ∧ t.queues = s.queues) ∧
  (∀ (x : Crossing) (core : Bool) (s : State), (s.xings.get {} (xingKey x)).side core = { req := true, ack := true } →
      (∀ n, x = .laneRx n → core = true ∨ (s.lane n.val).cdr = true) → ∃ h,
    h.side core = ({} : HandLevels) ∧ h.side (!core) = (s.xings.get {} (xingKey x)).side (!core) ∧
    (∀ ch : EvCh, h.ctrs.get {} ch.num =
      if decide (ch ∈ coreEvents) = core then { (s.xings.get {} (xingKey x)).ctrs.get {} ch.num with sent := 0 }
      else { (s.xings.get {} (xingKey x)).ctrs.get {} ch.num with taken := 0 }) ∧
    Does (.crossingResetAck x core) s
      (if (s.xings.get {} (xingKey x)).side (!core) = {} then
        State.renewed { s with xings := s.xings.put {} (xingKey x) h } x
       else { s with xings := s.xings.put {} (xingKey x) h })) ∧
  (∀ (x : Crossing) (core : Bool) (s : State), (s.xings.get {} (xingKey x)).side core = {} ∨
      (core = false ∧ ∃ n, x = .laneRx n ∧ (s.lane n.val).cdr = false) → Does (.crossingResetAck x core) s s)

/-- TXEQ_APPLY: staged coefficients that meet both conditions of R103 become the transmitter's; others set FIR_ERR and change
nothing else. Bit slip: SLIP on TRAINING and TEST rows, one behind another, refused on other rows; SLIP_DONE moves the boundary by one
bit and restarts the counts, and a queued slip begins, or is refused on another row; with no slip pending it does nothing. CLEAR
restarts the window, or, with a slip in progress, is noted for its end. WINDOW_DONE: 1,024 headers counted, both counts held at no
less than they have shown, the invalid ones not counted yet counted in HDR_ERR, and what waits for the window is told; a window that
is not counting, or that no header reaches, without clock recovery or through a receive crossing in reset, is not ended. What the lane has received up to then is counted first: in a window that counts, one header of every
66 bits at the lane's grade, none of them the last, of which a free number is invalid. The model's own
choices in this are in the log: 59, 129. -/
def Obligations.LaneAlignment : Prop :=
  (∀ (n : LaneId) (s : State), Open s →
     ((s.lane n.val).staged.pre.toNat + (s.lane n.val).staged.main.toNat + (s.lane n.val).staged.post.toNat ≤ 63 ∧
       8 + (s.lane n.val).staged.pre.toNat + (s.lane n.val).staged.post.toNat ≤ (s.lane n.val).staged.main.toNat →
       Answers (.txeqApply n) s (s.setLane n.val { s.lane n.val with cur := (s.lane n.val).staged, firErr := false })) ∧
     (¬ ((s.lane n.val).staged.pre.toNat + (s.lane n.val).staged.main.toNat + (s.lane n.val).staged.post.toNat ≤ 63 ∧
       8 + (s.lane n.val).staged.pre.toNat + (s.lane n.val).staged.post.toNat ≤ (s.lane n.val).staged.main.toNat) →
       Answers (.txeqApply n) s (s.setLane n.val { s.lane n.val with firErr := true }))) ∧
  (∀ (n : LaneId) (s : State),
     let u := s.headSettle n.val
     (Open s → ¬ (s.laneState n.val = 1 ∨ s.laneState n.val = 2) →
       Answers (.slip n) s
         (u.setLane n.val { u.lane n.val with align := { (u.lane n.val).align with rej := true } })) ∧
     (Open s → s.laneState n.val = 1 ∨ s.laneState n.val = 2 → (s.lane n.val).align.pend = false →
       Answers (.slip n) s
         (u.setLane n.val { u.lane n.val with
           align := { (u.lane n.val).align with pend := true, rej := false, counting := false } })) ∧
     (Open s → s.laneState n.val = 1 ∨ s.laneState n.val = 2 → (s.lane n.val).align.pend = true →
       Answers (.slip n) s
         (u.setLane n.val { u.lane n.val with
           align := { (u.lane n.val).align with queued := (s.lane n.val).align.queued + 1, rej := false } })) ∧
     ((s.lane n.val).align.pend = true → (s.lane n.val).align.queued = 0 →
       Does (.slipDone n) s
         (u.setLane n.val { u.lane n.val with
           align := { (u.lane n.val).align with pend := false, clearPend := false, good := 0, bad := 0, done := false
                                                counting := true, since := s.clk.up, ofs := (s.lane n.val).align.ofs + 1 } })) ∧
     (∀ q, (s.lane n.val).align.pend = true → (s.lane n.val).align.queued = q + 1 →
       (s.laneState n.val = 1 ∨ s.laneState n.val = 2 →
         Does (.slipDone n) s
           (u.setLane n.val { u.lane n.val with
             align := { (u.lane n.val).align with queued := q, good := 0, bad := 0, done := false, counting := true
                                                  since := s.clk.up, ofs := (s.lane n.val).align.ofs + 1 } })) ∧
       (¬ (s.laneState n.val = 1 ∨ s.laneState n.val = 2) →
         Does (.slipDone n) s
           (u.setLane n.val { u.lane n.val with
             align := { (u.lane n.val).align with pend := false, clearPend := false, queued := 0, rej := true, good := 0, bad := 0
                                                  done := false, counting := true, since := s.clk.up
                                                  ofs := (s.lane n.val).align.ofs + 1 } }))) ∧
     ((s.lane n.val).align.pend = false → Does (.slipDone n) s (u.setLane n.val (u.lane n.val))) ∧
     (Open s → (s.lane n.val).align.pend = false →
       Answers (.clear n) s
         (u.setLane n.val { u.lane n.val with
           align := { (u.lane n.val).align with good := 0, bad := 0, done := false, counting := true, since := s.clk.up } })) ∧
     (Open s → (s.lane n.val).align.pend = true →
       Answers (.clear n) s
         (u.setLane n.val { u.lane n.val with align := { (u.lane n.val).align with clearPend := true } }))) ∧
  (∀ (n : LaneId) (s : State), let l := s.lane n.val
     s.laneHears n.val = true → l.align.counting = true → l.align.pend = false → l.align.good.toNat + l.align.bad.toNat ≤ 1023 →
     let k := min (1023 - (l.align.good.toNat + l.align.bad.toNat)) (lineHeads l.grade (s.clk.up - l.align.since))
     ∃ b, b ≤ k ∧ (s.windowSettle n.val).lane n.val = { l with
         hdrErr := satAdd l.hdrErr b
         align := { l.align with good := BitVec.ofNat 11 (l.align.good.toNat + (k - b)), bad := BitVec.ofNat 11 (l.align.bad.toNat + b)
                                 since := l.align.since + headTime l.grade k } } ∧
       ∀ m, m ≠ n.val → (s.windowSettle n.val).lane m = s.lane m) ∧
  (∀ (n : LaneId) (bad : Fin 1025) (s : State), (s.lane n.val).align.counting = true → (s.lane n.val).align.pend = false →
     s.laneHears n.val = true →
     Does (.windowDone n bad) s
       (let b := min (max bad.val (s.lane n.val).align.bad.toNat) (1024 - (s.lane n.val).align.good.toNat)
        let u := s.setLane n.val { s.lane n.val with
           align := { (s.lane n.val).align with counting := false, done := true, good := BitVec.ofNat 11 (1024 - b)
                                                bad := BitVec.ofNat 11 b }
           noteWin := [], hdrFrom := s.clk.up }
        (if b - (s.lane n.val).align.bad.toNat = 0 then u
          else u.headerErrs n.val (b - (s.lane n.val).align.bad.toNat)).noteAll (s.lane n.val).noteWin)) ∧
  (∀ (n : LaneId) (bad : Fin 1025) (s : State), (s.lane n.val).align.counting = false ∨ (s.lane n.val).align.pend = true ∨
       s.laneHears n.val = false → Does (.windowDone n bad) s s)

/-- Locks: block lock rises only with clock recovery locked; its loss ends the run of training blocks and counts the 16 headers that
broke it, in HDR_ERR and in the window that counts, and, on an active lane whose receive crossing is not in reset, raises LANE_LOSS.
Clock recovery that locks lets the lane's receive crossing out of reset. Its loss takes both locks, ends a check and a scan, reports
the lane loss, and puts the crossing into reset; on an active lane the link fails when it was the last one. Adaptation that completes
is taken with ADAPT 1 or for a change of grade, noted for the scan that runs where a coefficient changes, and otherwise the values
hold. A codeword of an active FEC is decoded from its blocks or symbols: eight uncorrectable ones in a row fail the link; a good one
ends the run, and its corrections are counted by lane, as events of its receive crossing; none is taken where the class takes no
codeword of that form, where no frames flow, or while a receive crossing of the link is in reset. What the scrambler sends the
descrambler gives back, and an F1 codeword as it is sent decodes to itself with nothing corrected. The model's own choices in this
are in the log: 59, 128, 129, 145, 158. -/
def Obligations.LaneLocksAndCodewords : Prop :=
  (∀ (n : LaneId) (s : State),
     Does (.blockLockAcquire n) s (s.setLane n.val { s.lane n.val with blk := (s.lane n.val).cdr }) ∧
     Does (.cdrLockAcquire n) s
       ((s.modLane n.val fun l =>
         { l with cdr := true, hdrFrom := s.clk.up, align := { l.align with since := s.clk.up } }).xingAck (.laneRx n) false) ∧
     ((s.lane n.val).blk = true →
       let v := s.setLane n.val { s.lane n.val with
         blk := false, train := { (s.lane n.val).train with run := 0, inv := 0, ts := 0, seen := 0 } }
       let u := v.headTake n.val 16
       ((s.lane n.val).active = false ∨ s.laneCut false n.val = true → Does (.blockLockLoss n) s u) ∧
       ((s.lane n.val).active = true → s.laneCut false n.val = false →
         Does (.blockLockLoss n) s
           (((u.crossKey n.val .lockLoss 1).modTrain (n.val / 4) fun t => { t with loss := true }).raise srcLaneLoss)) ∧
       (s.laneHears n.val = true → ∃ j, 16 ≤ j ∧ (u.lane n.val).hdrErr = satAdd (s.lane n.val).hdrErr j) ∧
       (s.laneHears n.val = true → (s.lane n.val).align.counting = true → (s.lane n.val).align.pend = false →
         (s.lane n.val).align.good.toNat + (s.lane n.val).align.bad.toNat + 16 ≤ 1023 →
         (s.lane n.val).align.bad.toNat + 16 ≤ (u.lane n.val).align.bad.toNat)) ∧
     ((s.lane n.val).blk = false → Does (.blockLockLoss n) s s) ∧
     ((s.lane n.val).cdr = true →
       let v := ((s.headSettle n.val).prbsUnlock n.val).modLane n.val fun l =>
         { l with cdr := false, blk := false, train := { l.train with run := 0, inv := 0, ts := 0, seen := 0 } }
       let w := v.scanCut n.val
       let x := if (w.lane n.val).active = true ∧ w.laneCut false n.val = false then
           ((w.crossKey n.val .lockLoss 1).modTrain (n.val / 4) fun t => { t with loss := true }).raise srcLaneLoss
         else w
       let u := x.xingRequest (.laneRx n) false
       ((s.lane n.val).active = false → Does (.cdrLockLoss n) s u) ∧
       ((s.lane n.val).active = true → Does (.cdrLockLoss n) s
           (if ((List.range 4).map fun j => u.lane (n.val / 4 * 4 + j)).all fun l => !l.active || !l.cdr then u.failLink (n.val / 4)
            else u))) ∧
     ((s.lane n.val).cdr = false → Does (.cdrLockLoss n) s s) ∧
     (∀ rx : Adapted, (s.lane n.val).adapt = true ∨ (s.lane n.val).grading = true →
       Does (.adaptDone n rx) s (s.setLane n.val { s.lane n.val with
         adaptDone := true, grading := false, rx := rx
         eye := { (s.lane n.val).eye with
             shift := (s.lane n.val).eye.shift || decide ((s.lane n.val).rx.ctle ≠ rx.ctle ∨ (s.lane n.val).rx.vga ≠ rx.vga ∨
               (s.lane n.val).rx.dfe0 ≠ rx.dfe0 ∨ (s.lane n.val).rx.dfe1 ≠ rx.dfe1) } })) ∧
     (∀ rx : Adapted, (s.lane n.val).adapt = false → (s.lane n.val).grading = false →
       Does (.adaptDone n rx) s (s.setLane n.val (s.lane n.val)))) ∧
  (∀ (k : LinkId) (blocks : List (BitVec 66)) (syms : List (BitVec 10)) (c : Line) (s : State),
     s.carriesFrames k.val = true → s.linkCut false k.val = false →
     (s.decodeWord k.val blocks syms = some (c, none) →
       ((s.link k.val).fec.run < 7 →
         Does (.fecCodewordRx k blocks syms) s
           ((s.takeLine k.val c).modLink k.val fun l =>
             { l with fec := { l.fec with uncorr := satAdd l.fec.uncorr 1, run := (s.link k.val).fec.run + 1 } })) ∧
       ((s.link k.val).fec.run = 7 →
         Does (.fecCodewordRx k blocks syms) s
           (((s.takeLine k.val c).modLink k.val fun l =>
             { l with fec := { l.fec with uncorr := satAdd l.fec.uncorr 1, run := 0 } }).failLink k.val))) ∧
     (∀ fixes f, s.decodeWord k.val blocks syms = some (c, some fixes) →
       f = ((fixes.take 4).zipIdx.filter fun e => decide (e.1 ≠ 0)) →
       Does (.fecCodewordRx k blocks syms) s
         (forEach f (fun e u =>
             ((u.crossKey (4 * k.val + e.2) .fecFix e.1).modLane (4 * k.val + e.2) fun l =>
               { l with fecFix := satAdd l.fecFix e.1 }).count 2 0 (4 * k.val + e.2) none e.1)
           ((s.takeLine k.val c).modLink k.val fun l =>
             { l with fec := { l.fec with run := 0, corr := if f = [] then l.fec.corr else satAdd l.fec.corr 1 } })))) ∧
  (∀ (k : LinkId) (blocks : List (BitVec 66)) (syms : List (BitVec 10)) (s : State),
     s.decodeWord k.val blocks syms = none ∨ s.carriesFrames k.val = false ∨ s.linkCut false k.val = true →
       Does (.fecCodewordRx k blocks syms) s s) ∧
  (∀ (k : Nat) (blocks : List (BitVec 66)) (syms : List (BitVec 10)) (s : State),
     ((s.link k).fec.cur ≠ 1 ∨ blocks.length ≠ 33) → ((s.link k).fec.cur ≠ 2 ∨ syms.length ≠ 544) →
       s.decodeWord k blocks syms = none) ∧
  (∀ (st : BitVec 58) (l : List Bool), descramble st (scramble st l).1 = (l, (scramble st l).2)) ∧
  (∀ (w base : Nat) (l : List (List Bool)), l.length = 32 →
     f1Decode w base (l ++ [f1Parity w base l]) = some (l ++ [f1Parity w base l], []))

/-- An eye scan: a valid setting runs until its dwell ends; at G1 only the middle eye can be scanned, and no other eye 3: such a scan
ends INVALID at once; START in a scan does nothing. The result stands with DONE, a check of the link goes on with its next point,
and what waits for DONE is told; ADAPT_MOVED is 0 where neither a coefficient changed in the scan nor adaptation could run in it, and 1
where one changed. PRBS runs only on a TEST row, with a pattern below 6, and is refused with REJ elsewhere; a
generator that starts anew sends its stream; a checker that is stopped unlocks. INJ_ONE inverts one bit of a running generator. A
checker locks only with CHK_EN 1 and clock recovery locked, and is otherwise left alone; it unlocks for 32 errors, which count with
the bits up to them, and its counts stop then. The counts of a locked checker take every whole bit since they were last looked at, the
sixteenths of a bit that remain are kept, and the errors among them are too few to end the lock. The model's own choices in this are in the log:
59, 129. -/
def Obligations.EyeScansAndPrbs : Prop :=
  (∀ (n : LaneId) (s : State),
     (Open s → (s.lane n.val).eye.busy = true → Answers (.eyeScanStart n) s s) ∧
     (Open s → (s.lane n.val).eye.busy = false → (s.lane n.val).eye.eye ≠ 3 →
       ((s.lane n.val).grade = 0 → (s.lane n.val).eye.eye = 1) →
       Answers (.eyeScanStart n) s
         (s.setLane n.val { s.lane n.val with
           eye := { (s.lane n.val).eye with busy := true, done := false, invalid := false, moved := false
                                            ran := (s.lane n.val).adapt || (s.lane n.val).grading, shift := false
                                            runEye := (s.lane n.val).eye.eye, runDwell := (s.lane n.val).eye.dwell
                                            runPhase := (s.lane n.val).eye.phase, runVofs := (s.lane n.val).eye.vofs } })) ∧
     (Open s → (s.lane n.val).eye.busy = false → (s.lane n.val).eye.eye = 3 ∨ (s.lane n.val).grade = 0 ∧ (s.lane n.val).eye.eye ≠ 1 →
       Answers (.eyeScanStart n) s
         (((s.setLane n.val { s.lane n.val with
           eye := { (s.lane n.val).eye with busy := false, done := true, invalid := true, moved := false }
           noteEye := [] }).checkNext n.val true).noteAll (s.lane n.val).noteEye)) ∧
     (∀ (errs : BitVec 32) (moved : Bool), (s.lane n.val).eye.busy = true →
       Does (.eyeScanDone n errs moved) s
         (((s.setLane n.val { s.lane n.val with
           eye := { (s.lane n.val).eye with busy := false, done := true, invalid := false
                                            moved := (s.lane n.val).eye.shift || ((s.lane n.val).eye.ran && moved), errs := errs }
           noteEye := [] }).checkNext n.val (decide ((eyePoints (s.link (n.val / 4)).train.eye.cls).2.1 < errs.toNat))).noteAll
             (s.lane n.val).noteEye)) ∧
     (∀ (errs : BitVec 32) (moved : Bool), (s.lane n.val).eye.busy = false → Does (.eyeScanDone n errs moved) s s)) ∧
  (∀ (n : LaneId) (s : State),
     (∀ w : PrbsSet, Open s →
       (s.laneState n.val = 2 ∨ (w.gen || w.chk) = false) → w.pattern.toNat < 6 →
       let u := if w.chk then s else s.prbsUnlock n.val
       let v := if w.gen = true ∧ { (s.lane n.val).prbs.set with chk := w.chk } ≠ w then (u.emit (.prbs n.val w u.free)).drew else u
       Answers (.prbsEnable n w) s (v.modLane n.val fun l =>
         { l with prbs := { l.prbs with set := w, rej := l.prbs.rej && !(w.gen || w.chk) } })) ∧
     (∀ w : PrbsSet, Open s → ((w.gen || w.chk) = true ∧ s.laneState n.val ≠ 2) ∨ 6 ≤ w.pattern.toNat →
       Answers (.prbsEnable n w) s ((s.prbsUnlock n.val).modLane n.val fun l =>
         { l with prbs := { l.prbs with set := { w with gen := false, chk := false }, rej := true } })) ∧
     (Open s → (s.lane n.val).prbs.set.gen = true →
       Answers (.injOne n) s
         ((s.setLane n.val { s.lane n.val with
           prbs := { (s.lane n.val).prbs with inject := (s.lane n.val).prbs.inject + 1 } }).emit (.prbsFlip n.val))) ∧
     (Open s → (s.lane n.val).prbs.set.gen = false → Answers (.injOne n) s s) ∧
     ((s.lane n.val).prbs.set.chk = true → (s.lane n.val).cdr = true → (s.lane n.val).prbs.lock = false →
       exec (.prbsChkLock n) s =
         .next (s.setLane n.val { s.lane n.val with prbs := { (s.lane n.val).prbs with lock := true, since := s.clk.up, part := 0 } })) ∧
     ((s.lane n.val).prbs.set.chk = false ∨ (s.lane n.val).cdr = false ∨ (s.lane n.val).prbs.lock = true →
       exec (.prbsChkLock n) s = .next (s.setLane n.val (s.lane n.val))) ∧
     ((s.lane n.val).prbs.lock = false → exec (.prbsChkUnlock n) s = .next s) ∧
     ((s.lane n.val).prbs.lock = true →
       ∃ t k e, exec (.prbsChkUnlock n) s = .next t ∧
         t.lane n.val = { s.lane n.val with
           prbs := { (s.lane n.val).prbs with lock := false, bits := (s.lane n.val).prbs.bits + k
                                              errs := (s.lane n.val).prbs.errs + e, since := s.clk.up } } ∧
         k = max 32 ((85 * 2 ^ (s.lane n.val).grade.toNat * (s.clk.up - (s.lane n.val).prbs.since) + (s.lane n.val).prbs.part) / 16) ∧
         32 ≤ e ∧ e ≤ k ∧ t.freeCtr = s.freeCtr + 1 ∧ t.links = s.links ∧ t.queues = s.queues) ∧
     ((s.lane n.val).prbs.lock = true → ∃ e,
       let d := 85 * 2 ^ (s.lane n.val).grade.toNat * (s.clk.up - (s.lane n.val).prbs.since) + (s.lane n.val).prbs.part
       (s.prbsSettle n.val).lane n.val = { s.lane n.val with
         prbs := { (s.lane n.val).prbs with bits := (s.lane n.val).prbs.bits + d / 16
                                            errs := (s.lane n.val).prbs.errs + e, since := s.clk.up, part := d % 16 } } ∧
       e ≤ 31 * ((d / 16 + 63) / 64)))

/-- LNK_TRAIN_CTL: ENABLE clears the retry counter and the cap and enters row 0, in the safe state it is only noted, and a link with an UNUSED entry
does not take it; DISABLE takes the link DOWN, in the safe state it is only noted; RETRAIN and TEST are kept for the rows; ADMIT
admits a stranger the verdict names and is refused otherwise. The model's own choices in this are in the log: 130. -/
def Obligations.TrainControl : Prop :=
  ∀ (k : LinkId) (s : State), Open s →
    ((s.link k.val).train.enable = false → s.barred k.val = false → s.fc.safe = false →
      Answers (.enable k) s
        ((s.modTrain k.val fun t => { t with enable := true, retry := 0, cap := 3 }).enterRow k.val 0)) ∧
    ((s.link k.val).train.enable = false → s.barred k.val = false → s.fc.safe = true →
      Answers (.enable k) s (s.modTrain k.val fun t => { t with enable := true })) ∧
    ((s.link k.val).train.enable = false → s.barred k.val = true → Answers (.enable k) s (s.setLink k.val (s.link k.val))) ∧
    ((s.link k.val).train.enable = true → s.fc.safe = false → Answers (.linkDisable k) s (s.downLink k.val)) ∧
    ((s.link k.val).train.enable = true → s.fc.safe = true →
      Answers (.linkDisable k) s (s.modTrain k.val fun t => { t with enable := false })) ∧
    Answers (.retrain k) s (s.modTrain k.val fun t => { t with retrain := true }) ∧
    ((s.link k.val).guest.verdict = .qUnexpected ∨ (s.link k.val).guest.verdict = .qWrongPeer →
      Answers (.admitGuest k) s
        (s.setLink k.val { s.link k.val with
          guest := { (s.link k.val).guest with verdict := .admitted }
          train := { (s.link k.val).train with admitNow := true, admitRej := false } })) ∧
    (¬ ((s.link k.val).guest.verdict = .qUnexpected ∨ (s.link k.val).guest.verdict = .qWrongPeer) →
      Answers (.admitGuest k) s
        (s.setLink k.val { s.link k.val with train := { (s.link k.val).train with admitRej := true } })) ∧
    ∀ on, Answers (.test k on) s (s.modTrain k.val fun t => { t with test := on })

/-- Training: the first row in table order, of those the link stands on, whose condition holds acts, and the link enters its NEXT; an
UP row needs the far end's FEC class, as its last training block gave it, else CAUSE is 5 and the link enters its FAILED row. On the
lead row's timeout a row whose condition holds still acts; none holding, the link enters TMO_NEXT. The ends of the eye check and of
a step. A valid training block on a locked lane of a link that is not DOWN, its receive crossing out of reset: where frames flow it
counts towards TS_SEEN and its fields are kept, elsewhere its fields and its request are taken; a count of 0 moves the receivers of an
active lane's link to the block's grade. An invalid block ends the runs, and is a malformed block where frames flow, as one from a
swapped pair is there; elsewhere that counts the run of those. A request for a coefficient takes a turn
of EQ_TGL, and is sent where the lane sends training blocks. An UP row that finds another FEC class is R124's; that its FAILED row is
the first lead row with STATE FAILED, and that an action clears the latches of its condition, are readings of the model, in the log: 53
and 56. The model's own choices in this are in the log: 53, 55, 56, 57, 145. -/
def Obligations.TrainingActs : Prop :=
  (∀ (k : LinkId) (s : State), s.admits = true → (s.link k.val).train.enable = true →
     (∀ r, s.satisfied k.val = some r →
       let w := s.trainRow k.val r
       let v := s.modTrain k.val fun t => t.acted (rowCond w)
       let u := if rowAction w ≠ 4 ∧ (v.standsOn k.val).any (fun i => decide (rowAction (v.trainRow k.val i) = 4)) = true then v.drew else v
       (rowAction w ≠ 9 →
         Does (.trainRowAction k) s ((u.doAction k.val (rowAction w) (rowArg w)).enterRow k.val (rowNext w))) ∧
       (rowAction w = 9 → (u.link k.val).train.farFec = (u.link k.val).fec.req →
         Does (.trainRowAction k) s ((u.doUp k.val).enterRow k.val (rowNext w))) ∧
       (rowAction w = 9 → (u.link k.val).train.farFec ≠ (u.link k.val).fec.req →
         let x := u.modTrain k.val fun t => { t with cause := 5 }
         (∀ f, x.failedRow k.val = some f → Does (.trainRowAction k) s (x.enterRow k.val f)) ∧
         (x.failedRow k.val = none → Does (.trainRowAction k) s x))) ∧
     (s.satisfied k.val = none → Does (.trainRowAction k) s s) ∧
     (∀ dt, let w := s.trainRow k.val (s.link k.val).train.row.toNat
       (rowCount w ≠ 0 → (s.link k.val).train.entered + rowTimeout w ≤ s.clk.act + 5 * dt →
         (s.passNs dt).satisfied k.val = none →
         Does (.trainRowTimeout k dt) s ((s.passNs dt).enterRow k.val (rowTmoNext w))) ∧
       (∀ r, rowCount w ≠ 0 → (s.link k.val).train.entered + rowTimeout w ≤ s.clk.act + 5 * dt →
         (s.passNs dt).satisfied k.val = some r → Does (.trainRowTimeout k dt) s ((s.passNs dt).actRow k.val r)) ∧
       (rowCount w = 0 ∨ s.clk.act + 5 * dt < (s.link k.val).train.entered + rowTimeout w →
         Does (.trainRowTimeout k dt) s (s.passNs dt)))) ∧
  ((∀ (k : LinkId) (s : State), (s.link k.val).train.eye.running = true → (s.ranks k.val fun l => l.active && l.eye.chk.isSome) = [] →
     Does (.eyeCheckDone k) s (s.modTrain k.val fun t =>
       { t with eye := { t.eye with running := false, pass := !(s.link k.val).train.eye.failed
                                    fail := (s.link k.val).train.eye.failed } })) ∧
   (∀ (k : LinkId) (g : BitVec 2) (s : State), (s.link k.val).train.stepTo = some g →
     (s.ranks k.val fun l => l.active && !(decide (l.grade = g) && l.cdr && l.adaptDone)) = [] →
     Does (.stepped k) s (s.modTrain k.val fun t => { t with stepTo := none, stepDone := true }))) ∧
  (∀ (n : LaneId) (w : BitVec 64) (s : State),
     ((s.lane n.val).blk = false ∨ s.laneState n.val = 0 ∨ s.laneCut false n.val = true →
       ∀ inv, Does (.trainingBlockRx n inv w) s s) ∧
     ((s.lane n.val).blk = true → s.laneState n.val ≠ 0 → s.laneCut false n.val = false → s.carriesFrames (n.val / 4) = true →
       let broken := s.setLane n.val { s.lane n.val with train := { (s.lane n.val).train with seen := 0 } }
       (trainValid w = true →
         let l := (s.lane n.val).takeTrain (n.val % 4) w
         let u := s.setLane n.val { l with train := { l.train with run := 0, seen := (s.lane n.val).train.seen + 1 } }
         Does (.trainingBlockRx n false w) s
           (if (s.lane n.val).active = true ∧ bits w 32 6 = 0 then
             forEach (List.range 4) (fun j v => v.laneGrade (4 * (n.val / 4) + j) (w.extractLsb' 38 2)) u else u)) ∧
       (trainValid w = false → Does (.trainingBlockRx n false w) s (broken.ctlMalf (n.val / 4))) ∧
       Does (.trainingBlockRx n true w) s (broken.ctlMalf (n.val / 4))) ∧
     ((s.lane n.val).blk = true → s.laneState n.val ≠ 0 → s.laneCut false n.val = false → s.carriesFrames (n.val / 4) = false →
       (trainValid w = true →
         let l := ((s.lane n.val).takeTrain (n.val % 4) w).takeEq (decide (s.laneState n.val = 1)) w
         let u := (s.modTrain (n.val / 4) fun t => { t with farFec := w.extractLsb' 26 2 }).setLane n.val l
         Does (.trainingBlockRx n false w) s
           (if (s.lane n.val).active = true ∧ bits w 32 6 = 0 then
             forEach (List.range 4) (fun j v => v.laneGrade (4 * (n.val / 4) + j) (w.extractLsb' 38 2)) u else u)) ∧
       (trainValid w = false →
         Does (.trainingBlockRx n false w) s
           (s.setLane n.val { s.lane n.val with train := { (s.lane n.val).train with inv := 0, run := 0, ts := 0 } })) ∧
       (trainValid (~~~w) = true →
         Does (.trainingBlockRx n true w) s
           (s.setLane n.val { s.lane n.val with
             train := { (s.lane n.val).train with inv := (s.lane n.val).train.inv + 1, run := 0, ts := 0 } })) ∧
       (trainValid (~~~w) = false →
         Does (.trainingBlockRx n true w) s
           (s.setLane n.val { s.lane n.val with train := { (s.lane n.val).train with inv := 0, run := 0, ts := 0 } }))) ∧
     (∀ req : BitVec 3, Open s →
       ∃ u, Answers (.eqReqSend n req) s u ∧
         u.lane n.val = { s.lane n.val with
           eq := { (s.lane n.val).eq with req := req, tgl := !(s.lane n.val).eq.tgl, out := req } } ∧
         u.sent = s.sent ++ (if s.sendsTrain n.val then [.train n.val (u.trainBlock (n.val / 4) (n.val % 4) 63)] else []) ∧
         u.links = s.links ∧ u.queues = s.queues))

/-- GO commits the code of its row: refused with REJ while a commit runs; otherwise it is checked, and with every check passed it is
BUSY with the image of its bank, PEND of the code falls, and a plan locks SEC_OPKEY. COMMIT_DONE puts the table in force; it does
nothing with no commit under way, and while an operation of a group that the table changes is in progress, which ends under the old
table. The model's own choices in this are in the log: 44. -/
def Obligations.Commits : Prop :=
  (∀ s : State, Open s → ∀ e ∈ [(Instr.tcommitTrainingTable, 1), (.tcommitInstalledPlan, 2), (.tcommitRoutingTable, 3),
      (.tcommitSchedulingTable, 4), (.tcommitInnkeeperTable, 5), (.tcommitSamovarTable, 6), (.tcommitFormatTable, 7),
      (.tcommitSipTree, 8), (.tcommitTastingMenu, 9)],
    (s.commit.busy = true →
      Answers e.1 s { s.setReg 0x10 (BitVec.ofNat 64 e.2) with commit := { s.commit with rej := true } }) ∧
    (s.commit.busy = false → Answers e.1 s ((s.setReg 0x10 (BitVec.ofNat 64 e.2)).startCommit (BitVec.ofNat 8 e.2) none)) ∧
    (s.commit.busy = false → ∀ g, (s.setReg 0x10 (BitVec.ofNat 64 e.2)).commitCheck e.2 ((s.setReg 0x10 (BitVec.ofNat 64 e.2)).bank e.2) = (1, g) →
      Answers e.1 s { s.setReg 0x10 (BitVec.ofNat 64 e.2) with
        sec := { s.sec with opLock := s.sec.opLock || decide (e.2 = 2) }
        commit := { s.commit with busy := true, rej := false, locked := true, byInstr := false, code := BitVec.ofNat 8 e.2, result := 1
                                  detail := 0, image := s.bank e.2, queue := none
                                  pend := s.commit.pend &&& ~~~(BitVec.ofNat 10 (2 ^ e.2)) } })) ∧
  (∀ s : State, s.commit.busy = false ∨ s.admits = false ∨ s.commitWaits = true → Does .commitDone s s) ∧
  (∀ (s : State) (g : Nat), g < 512 → s.sipBusy g = true →
    (s.commit.code = 6 → gChanges s.smvTab (imgWord 6 s.commit.image) g = true → s.commitWaits = true) ∧
    (s.commit.code = 8 → sipChanges s.sipTab (imgWord 8 s.commit.image) g = true → s.commitWaits = true)) ∧
  (∀ s : State, s.commit.busy = true → s.admits = true → s.commitWaits = false →
    Does .commitDone s
      (let u := (if s.commit.code = 2 then s.installPlan s.commit.image
          else s.install s.commit.code.toNat s.commit.image).modCommit fun c => { c with busy := false, image := [], queue := none }
       State.nextCommit (match s.commit.queue with
         | some (q, n) => u.answerQueue q n []
         | none => u)))

/-- Standalone control blocks act on a link that carries frames and whose receive crossing is out of reset (FATAL on any link that is
not DOWN), when their check, type and reserved fields are right; one that is not right is counted in CTL_MALF and does nothing else.
Each ends the lanes' runs of training blocks. In the safe state a FATAL block is recorded, and nothing else is done. CURFEW blocks: an entry with a higher SERIAL enters curfew with the block's ORIGIN and
SERIAL, in curfew only the larger SERIAL is kept; in curfew a resume with a SERIAL at least this block's own resumes it with that
SERIAL, and outside curfew one ends the link's wait. The model's own
choices in this are in the log: 23, 64, 65, 166. -/
def Obligations.ControlBlocks : Prop :=
  (∀ (k : LinkId) (w : BitVec 64) (s : State), s.linkHears k.val = true →
     let u := s.endTs k.val
     (blockValid 0x33 w = true →
       Does (.ack k w) s ((u.takeAckNak k.val (w.extractLsb' 44 12) (bit w 43)).takeCredit k.val (bits w 38 5) (w.extractLsb' 29 9))) ∧
     (blockValid 0x4B w = true →
       Does (.credit k w) s ((u.takeCredit k.val (bits w 51 5) (w.extractLsb' 42 9)).takeCredit k.val (bits w 37 5) (w.extractLsb' 28 9))) ∧
     (blockValid 0x55 w = true → Does (.credInit k w) s (u.takeCredInit k.val (bits w 51 5) (bits w 42 9) (bits w 28 14))) ∧
     (blockValid 0x66 w = true →
       Does (.pace k w) s (u.setLink k.val { u.link k.val with ll := { (u.link k.val).ll with paceFar := w.extractLsb' 50 6 } })) ∧
     ∀ e ∈ [(Instr.ack k w, 0x33), (.credit k w, 0x4B), (.credInit k w, 0x55), (.pace k w, 0x66)],
       blockValid e.2 w = false → Does e.1 s (u.ctlMalf k.val)) ∧
  (∀ (k : LinkId) (w : BitVec 64) (s : State), s.fc.safe = false → s.linkUp k.val = true → s.linkCut false k.val = false →
     let u := s.endTs k.val
     (blockValid 0x99 w = true →
       Does (.fatal k w) s
         (((u.setLink k.val { u.link k.val with ll := { (u.link k.val).ll with farFatal := true, stopped := true } }).raise
           srcFarFatal).failLink k.val)) ∧
     (blockValid 0x99 w = false → Does (.fatal k w) s (u.ctlMalf k.val))) ∧
  (∀ (k : LinkId) (w : BitVec 64) (s : State), s.fc.safe = true → s.linkUp k.val = true → s.linkCut false k.val = false →
     (blockValid 0x99 w = true → exec (.fatal k w) s =
       .next (State.raise (s.setLink k.val { s.link k.val with ll := { (s.link k.val).ll with farFatal := true } }) srcFarFatal)) ∧
     (blockValid 0x99 w = false → exec (.fatal k w) s = .next s)) ∧
  (∀ (k : LinkId) (w : BitVec 64) (s : State), s.linkUp k.val = true → s.linkCut false k.val = false →
     let u := s.endTs k.val
     (blockValid 0x87 w = true →
       (bits w 54 2 = 0 → s.obs.curfew.on = false → s.obs.curfew.serial < w.extractLsb' 11 32 →
         Does (.curfewEntryBlock k w) s (u.enterCurfew 4 k.val (w.extractLsb' 43 11) (w.extractLsb' 11 32))) ∧
       (bits w 54 2 = 0 → s.obs.curfew.on = false → w.extractLsb' 11 32 ≤ s.obs.curfew.serial → Does (.curfewEntryBlock k w) s u) ∧
       (bits w 54 2 = 0 → s.obs.curfew.on = true →
         Does (.curfewEntryBlock k w) s { u with obs := { u.obs with curfew := { u.obs.curfew with
           serial := (if s.obs.curfew.serial < w.extractLsb' 11 32 then w.extractLsb' 11 32 else s.obs.curfew.serial) } } }) ∧
       (bits w 54 2 = 1 → s.obs.curfew.on = false → Does (.curfewResumeBlock k w) s (u.linkResumed k.val)) ∧
       (bits w 54 2 = 1 → s.obs.curfew.on = true → s.obs.curfew.serial ≤ w.extractLsb' 11 32 →
         Does (.curfewResumeBlock k w) s
           ((State.resume { u with obs := { u.obs with curfew := { u.obs.curfew with serial := w.extractLsb' 11 32 } } }).linkResumed
             k.val)) ∧
       (bits w 54 2 = 1 → s.obs.curfew.on = true → w.extractLsb' 11 32 < s.obs.curfew.serial →
         Does (.curfewResumeBlock k w) s u)) ∧
     (blockValid 0x87 w = false →
       Does (.curfewEntryBlock k w) s (u.ctlMalf k.val) ∧ Does (.curfewResumeBlock k w) s (u.ctlMalf k.val)))

/-- A credit report frees units at the far end, a report of more than are out is refused; an acknowledgement of `n` frames lets them
go; a CRED_INIT within a session may not change DED or lower SHARED. A frame that passed its check with the next SEQ is
accepted: rxSeq takes it and its acknowledgement becomes due; one with another SEQ is discarded with a NAK. -/
def Obligations.LinkAccounting : Prop :=
  ((∀ (k : LinkId) (p : Fin 32) (cum : BitVec 9) (s : State),
     let q := (s.link k.val).ll.pools.get {} p.val
     let d := (cum - q.cumRx).toNat
     (d ≤ q.out → let t := s.takeCredit k.val p.val cum
       ((t.link k.val).ll.pools.get {} p.val) = { q with out := q.out - d, cumRx := cum } ∧
       (∀ r, r ≠ p.val → (t.link k.val).ll.pools.get {} r = (s.link k.val).ll.pools.get {} r) ∧
       (∀ j, j ≠ k.val → t.link j = s.link j)) ∧
     (q.out < d → (s.takeCredit k.val p.val cum) = s.ctlMalf k.val)) ∧
   (∀ (k : LinkId) (n : Nat) (s : State), 0 < n → n ≤ (s.link k.val).ll.retry.length → n < 4096 →
     let t := s.takeAck k.val ((s.link k.val).ll.acked + BitVec.ofNat 12 n)
     (t.link k.val).ll.retry = (s.link k.val).ll.retry.drop n ∧
     (t.link k.val).ll.acked = (s.link k.val).ll.acked + BitVec.ofNat 12 n ∧
     (t.link k.val).ll.pools = (s.link k.val).ll.pools ∧ ∀ j, j ≠ k.val → t.link j = s.link j) ∧
   (∀ (k : LinkId) (p : Fin 32) (ded shared : Nat) (s : State),
     ((s.link k.val).ll.pools.get {} p.val).init = true ∧ ((s.link k.val).ll.pools.get {} p.val).dedFar ≠ ded ∨
       shared < (s.link k.val).ll.sharedFar →
     s.takeCredInit k.val p.val ded shared = s.ctlMalf k.val)) ∧
  (∀ (k : LinkId) (h : Word) (payload : Bytes) (cur : Bool) (s : State),
     bit h 30 = false → h.extractLsb' 40 12 = (s.link k.val).ll.acked →
     (h.extractLsb' 52 12 ≠ (s.link k.val).ll.rxSeq + 1 →
       ((s.checkedFrame k.val h payload cur).link k.val).ll.rxSeq = (s.link k.val).ll.rxSeq ∧
       ((s.checkedFrame k.val h payload cur).link k.val).ll.nakSent = true ∧
       ((s.checkedFrame k.val h payload cur).link k.val).inbox = (s.link k.val).inbox) ∧
     (h.extractLsb' 52 12 = (s.link k.val).ll.rxSeq + 1 →
       ((s.checkedFrame k.val h payload cur).link k.val).ll.rxSeq = h.extractLsb' 52 12 ∧
       ((s.checkedFrame k.val h payload cur).link k.val).ll.nakSent = false ∧
       ((s.checkedFrame k.val h payload cur).link k.val).ll.ackDue = true))

/-- A frame whose check passes goes on with the plaintext it carries; one that fails is counted, and answered by one NAK until a
frame is accepted again, but for a frame that the NAK asked for, whose failure is answered by a new one. A frame the crossing could not take, one that a control block broke into, or one holding a block of an
uncorrectable codeword is discarded the same way, and the control block acts. A bench part that captures the link's frames records
it first. After a FATAL block of the far end frames are captured and not accepted. The model's own choices in this are in the log: 69, 110,
153. -/
def Obligations.FramesReceived : Prop :=
  (∀ (k : LinkId) (fr : RxFrame) (s : State), s.linkHears k.val = true → (s.link k.val).ll.stopped = true →
    (bits (word64 fr.bytes 0) 0 8 ≠ 0x78 → Does (.frame k fr) s (s.endTs k.val)) ∧
    (bits (word64 fr.bytes 0) 0 8 = 0x78 → Does (.frame k fr) s ((s.captureFrame k.val (slice fr.bytes 0 256)).endTs k.val))) ∧
  ∀ (k : LinkId) (fr : RxFrame) (s : State), s.linkHears k.val = true → (s.link k.val).ll.stopped = false →
    (bits (word64 fr.bytes 0) 0 8 ≠ 0x78 → Does (.frame k fr) s ((s.endTs k.val).ctlMalf k.val)) ∧
    (bits (word64 fr.bytes 0) 0 8 = 0x78 →
      let u := (s.captureFrame k.val (slice fr.bytes 0 256)).endTs k.val
      (fr.full = true → Does (.frame k fr) s ((u.modCnt k.val fun c => { c with paceDrop := satAdd c.paceDrop 1 }).discardFrame k.val)) ∧
      (∀ w, fr.full = false → fr.ctl = some w →
        Does (.frame k fr) s
          (((u.modCnt k.val fun c => { c with frameMalf := satAdd c.frameMalf 1 }).discardFrame k.val).strayControl k.val w)) ∧
      (fr.full = false → fr.ctl = none → fr.bad = true → Does (.frame k fr) s (u.discardFrame k.val)) ∧
      (∀ m sec cur, fr.full = false → fr.ctl = none → fr.bad = false →
        (u.link k.val).sec.check u.clk.core fr.bytes = some (m, sec, cur) →
        Does (.frame k fr) s ((u.modLink k.val fun l => { l with sec := sec }).checkedFrame k.val (word64 fr.bytes 0) m cur)) ∧
      (fr.full = false → fr.ctl = none → fr.bad = false → (u.link k.val).sec.check u.clk.core fr.bytes = none →
        let v := (u.modCnt k.val fun c => { c with chkFail := satAdd c.chkFail 1 }).count 1 3 k.val none
        ((u.link k.val).ll.nakSent = false ∨ (word64 fr.bytes 0).extractLsb' 52 12 = (u.link k.val).ll.rxSeq + 1 →
          Does (.frame k fr) s
            ((v.setLink k.val { v.link k.val with ll := { (v.link k.val).ll with nakPend := true, nakSent := true } }).tagFailure
              k.val fr.clean)) ∧
        ((u.link k.val).ll.nakSent = true → (word64 fr.bytes 0).extractLsb' 52 12 ≠ (u.link k.val).ll.rxSeq + 1 →
          Does (.frame k fr) s ((v.setLink k.val (v.link k.val)).tagFailure k.val fr.clean))))

/-- The timers of a link that carries frames: an acknowledgement that has waited leaves in an ACK block, behind a PACE block
that is pending; the CRED_INIT set goes out again every 100 us; the oldest unacknowledged frame is sent again after RTO_NS. A
frame boundary: control blocks and a frame; a copy of an injection, where one can leave; after a curfew control blocks and IDLE
until frames may be sent; IDLE with nothing to send, in the safe state, and in curfew on a row that carries frames; nothing
before the lane clocks run or while the crossing is in reset. A replay from one SEQ that is the sixteenth in a row fails the
link, after a curfew too. The boundary of a scheduling interval: a committed table comes into force, then every link and every
toll gate refills, in ascending order; before the next interval of milestone time has begun, nothing does. That a copy of an
injection goes out at a frame boundary, and when one can, is R486 and R487 as the model reads them, in the log: 94. The model's
own choices in this are in the log: 47, 66, 94, 165. -/
def Obligations.LinkTimers : Prop :=
  (∀ (k : LinkId) (s : State), s.running = true → s.carriesFrames k.val = true →
     ((s.link k.val).ll.ackDue = true → s.linkCut true k.val = false →
       ((s.link k.val).ll.paceDue = false → exec (.ackBlockTimer k) s = .next (s.sendAck k.val)) ∧
       ((s.link k.val).ll.paceDue = true → exec (.ackBlockTimer k) s = .next
         (((s.setLink k.val { s.link k.val with ll := { (s.link k.val).ll with paceDue := false } }).emit
           (.control k.val (paceBlock (s.link k.val).ll.paceLocal))).sendAck k.val))) ∧
     (∀ dt, (s.link k.val).ll.credInitAt + us5 100 ≤ s.clk.core + 5 * dt → (s.link k.val).ll.carry ≤ 2560 →
       exec (.credInitTimer k dt) s = .next ((s.passNs dt).setLink k.val { s.link k.val with
         ll := { (s.link k.val).ll with credInitAt := (s.link k.val).ll.credInitAt + us5 100, credInit := List.range 32
                                        sharedLocal := 2560 - (s.link k.val).ll.carry } })) ∧
     (∀ dt f l, (s.link k.val).ll.retry = f :: l → f.at5 + s.rto k.val ≤ s.clk.core + 5 * dt →
       Does (.replayTimeout k dt) s ((s.passNs dt).startReplay k.val f.seq)) ∧
     (s.linkSends k.val = true → (s.link k.val).ll.resumed s.clk.up = true → (s.linkResumed k.val).injects k.val = false →
       Does (.frameTx k) s (((s.linkResumed k.val).sendControls k.val).sendFrame k.val)) ∧
     (s.linkSends k.val = true → (s.link k.val).ll.resumed s.clk.up = true → (s.linkResumed k.val).injects k.val = true →
       Does (.frameTx k) s ((s.linkResumed k.val).injectCopy k.val)) ∧
     (s.linkSends k.val = true → (s.link k.val).ll.resumed s.clk.up = false →
       Does (.frameTx k) s ((s.sendControls k.val).emit (.idle k.val 1)))) ∧
  (∀ (k : LinkId) (s : State), s.linkSends k.val = false ∨ s.running = true ∧ s.carriesFrames k.val = false →
     Does (.frameTx k) s s) ∧
  (∀ (k : LinkId) (s : State), s.linkSends k.val = true → s.running = false →
     (s.fc.safe = true ∧ s.linkUp k.val = true ∨ s.carriesFrames k.val = true → Does (.frameTx k) s (s.emit (.idle k.val 1))) ∧
     (¬ (s.fc.safe = true ∧ s.linkUp k.val = true ∨ s.carriesFrames k.val = true) → Does (.frameTx k) s s)) ∧
  (∀ (k : LinkId) (s : State), s.running = true → s.carriesFrames k.val = true → s.injects k.val = false →
     s.linkSends k.val = true →
     (s.link k.val).ll.resumeWait = none → (s.link k.val).ll.paceDue = false → (s.link k.val).ll.nakPend = false →
     (s.link k.val).ll.reportPool = none → (s.link k.val).ll.credInit = [] → (s.link k.val).ll.replay = none →
     (1024 ≤ (s.link k.val).ll.retry.length →
       ∃ u, Does (.frameTx k) s u ∧ u.sent = s.sent ++ [.idle k.val 1] ∧ (∀ j : LinkId, u.link j.val = s.link j.val) ∧
         u.lanes = s.lanes ∧ u.fc = s.fc ∧ u.obs = s.obs) ∧
     ((s.link k.val).outq = [] →
       ∃ u, Does (.frameTx k) s u ∧ u.sent = s.sent ++ [.idle k.val 1] ∧
         (∀ j : LinkId, u.link j.val = { s.link j.val with sch := (u.link j.val).sch } ∧ (j ≠ k → u.link j.val = s.link j.val)) ∧
         u.lanes = s.lanes ∧ u.fc = s.fc ∧ u.obs = s.obs)) ∧
  (∀ (k : LinkId) (s : State), (s.link k.val).ll.resumeWait ≠ none → (s.link k.val).ll.retry ≠ [] →
     let l := (s.link k.val).ll
     let q := l.acked + 1
     let n := if l.runFrom = q ∧ l.runCount ≠ 0 then l.runCount + 1 else 1
     let u := (s.setLink k.val { s.link k.val with ll := { l with
       resumeWait := none, replay := some q, runFrom := q, runCount := n
       cnt := { l.cnt with replays := satAdd l.cnt.replays 1 } } }).count 1 2 k.val none
     s.linkResumed k.val = if 16 ≤ n then u.failLink k.val else u) ∧
  (∀ (dt : Nat) (s : State), s.running = true → s.schedUs < (s.passNs dt).clk.ms / 5000 →
     Does (.schedInterval dt) s
       (forEach (List.range 32) (fun j s => s.refillGate j)
         (forEach (List.range 24) (fun k s => s.linkBoundary k)
           (State.applySched { s.passNs dt with schedUs := (s.passNs dt).clk.ms / 5000 })))) ∧
  (∀ (dt : Nat) (s : State), s.running = false ∨ (s.passNs dt).clk.ms / 5000 ≤ s.schedUs →
     Does (.schedInterval dt) s (s.passNs dt))

/-- HELLO: the oldest one of the link is taken; while this end still sends them one leaves every 100 us. Keys: ATTEST takes the oldest
fragment; a KEYX of the link's exchange goes on with it, and a malformed one fails the proof; a CONFIRM that verifies in the last
phase proves the far end and ends the exchange; REKEY starts one on a link in DATA, and does nothing on another; ADVANCE asks a
sender that protects its frames; the previous slot is emptied after 100 us. The model's own choices in this are in the log: 62,
63. -/
def Obligations.HelloAndKeys : Prop :=
  ((∀ (k : LinkId) (p : Pkt) (s : State), s.running = true → s.localPkt k.val (fun q => q.op = 0x20) = some p →
     Does (.hello k) s ((s.consume k.val p).takeHello k.val (slice p.data 0 112))) ∧
   (∀ (k : LinkId) (dt : Nat) (s : State), s.admits = true → (s.link k.val).guest.sending = true → s.carriesFrames k.val = true →
     (s.link k.val).guest.due + us5 100 ≤ s.clk.act + 5 * dt →
     Does (.helloTimer k dt) s
       (((s.passNs dt).setLink k.val { s.link k.val with
         guest := { (s.link k.val).guest with due := (s.link k.val).guest.due + us5 100 } }).sendHello k.val))) ∧
  ((∀ (k : LinkId) (p : Pkt) (s : State), s.running = true → s.localPkt k.val (fun q => q.op = 0x21) = some p →
     Does (.attest k) s ((s.consume k.val p).takeAtt k.val p)) ∧
   (∀ (k : LinkId) (s : State), s.running = true → (s.link k.val).train.state = 3 ∨ (s.link k.val).train.state = 4 →
     (s.link k.val).guest.verdict ≠ .qHostile →
     ∀ e ∈ [(Instr.keyxOpen k, 0, fun d u => State.takeOpen u k.val d), (.keyxEph k, 1, fun d u => State.takeEph u k.val d),
       (.keyxConfirm k, 2, fun d u => State.takeConfirm u k.val d)],
     ∀ p, s.localPkt k.val (fun q => decide (q.op = 0x22) &&
       (decide (kexKind q.data = e.2.1) || decide (e.2.1 = 0 ∧ 2 < kexKind q.data))) = some p →
       (kexOk (slice p.data 0 p.len.toNat) = true →
         ((s.link k.val).sec.kex.phase = 0 ∨ kexSid (slice p.data 0 p.len.toNat) = (s.link k.val).sec.kex.sid) →
         Does e.1 s (e.2.2 (slice p.data 0 p.len.toNat) (s.consume k.val p))) ∧
       (kexOk (slice p.data 0 p.len.toNat) = false → Does e.1 s ((s.consume k.val p).proofFails k.val 3))) ∧
   (∀ (k : LinkId) (p : Pkt) (s : State), s.running = true → (s.link k.val).train.state = 3 ∨ (s.link k.val).train.state = 4 →
     (s.link k.val).guest.verdict ≠ .qHostile → s.localPkt k.val (fun q => decide (q.op = 0x22) &&
       (decide (kexKind q.data = 2) || decide ((2 : Nat) = 0 ∧ 2 < kexKind q.data))) = some p →
     let d := slice p.data 0 p.len.toNat
     let c := s.consume k.val p
     kexOk d = true → kexSid d = (s.link k.val).sec.kex.sid → (s.link k.val).sec.kex.phase = 3 →
     slice d 8 48 = c.confirmMac k.val (c.isLo k.val) →
     ∃ u, Does (.keyxConfirm k) s u ∧ (u.link k.val).sec.proven = true ∧ (u.link k.val).sec.kex = {} ∧ u.parts = s.parts) ∧
   (∀ (k : LinkId) (s : State), Open s → s.inData k.val = true → Answers (.rekey k) s (s.startProof k.val)) ∧
   (∀ (k : LinkId) (s : State), Open s → s.inData k.val = false → Answers (.rekey k) s s) ∧
   (∀ (k : LinkId) (s : State), Open s →
     Answers (.advance k) s (s.setLink k.val { s.link k.val with
       sec := { (s.link k.val).sec with advance := (s.link k.val).sec.advance || (s.link k.val).sec.txOn } })) ∧
   (∀ (k : LinkId) (dt : Nat) (s : State), s.running = true → (s.link k.val).sec.prev.key ≠ [] →
     (s.link k.val).sec.prevAt + us5 100 ≤ s.clk.core + 5 * dt →
     exec (.previousSlotRetire k dt) s =
       .next ((s.passNs dt).setLink k.val { s.link k.val with sec := { (s.link k.val).sec with prev := {} } })))

/-- A HELLO is compared with the plan entry in the order of the verdicts: bench, no entry, another port, another passport, another
class. -/
def Obligations.VerdictOrder : Prop :=
  ∀ (k : LinkId) (h : Bytes) (s : State),
    (helloPclass h = 1 → s.fuses.bench = false → s.compare k.val h = .qBench) ∧
    (¬ (helloPclass h = 1 ∧ s.fuses.bench = false) →
      (s.planLink k.val = none → s.compare k.val h = .qUnexpected) ∧
      (∀ e, s.planLink k.val = some e → e.farKind = 0 → s.compare k.val h = .qUnexpected) ∧
      ∀ e, s.planLink k.val = some e → e.farKind ≠ 0 →
        (¬ (helloKind h = e.farKind ∧ helloId h = e.farId ∧ helloPort h = e.farPort) → s.compare k.val h = .qWrongPeer) ∧
        (helloKind h = e.farKind ∧ helloId h = e.farId ∧ helloPort h = e.farPort →
          (helloPassport h ≠ e.farDig → s.compare k.val h = .qIdentity) ∧
          (helloPassport h = e.farDig → helloClass h ≠ e.cls → s.compare k.val h = .qClass) ∧
          (helloPassport h = e.farDig → helloClass h = e.cls → s.compare k.val h = .match_)))

/-- SEC_PART_CTL: a write is refused whole, with REJ, when it would change the tag of a valid partition, take a tag another valid
partition holds, or clear VALID of P0 or of a partition with a bound queue or an allocated sync object. Otherwise all of it is
in effect. No other partition changes. A tag that no valid local partition holds (R383): no partition is charged, the packet
goes to slot 16 of its VC (R197), and a request that bears it is denied (R214). -/
def Obligations.PartitionControl : Prop :=
  (∀ (p : PartId) (valid bf tasteOk : Bool) (tag : BitVec 16) (s : State), Open s → ∃ u,
     Answers (.secPartCtlWrite p valid bf tasteOk tag) s u ∧ (∀ r, r ≠ p.val → u.part r = s.part r) ∧ u.queues = s.queues ∧
     u.links = s.links ∧ u.syncs = s.syncs ∧
     (((s.part p.val).valid = true ∧ valid = true ∧ (s.part p.val).tag ≠ tag ∨
       valid = true ∧ (∃ r, r < 16 ∧ r ≠ p.val ∧ (s.part r).valid = true ∧ (s.part r).tag = tag) ∨
       (s.part p.val).valid = true ∧ valid = false ∧ (p.val = 0 ∨ s.boundQueues p.val ≠ 0 ∨
         ∃ e ∈ s.syncs, e.2.alloc = true ∧ e.2.part.toNat = p.val)) →
       u.part p.val = { s.part p.val with rej := true }) ∧
     (¬ ((s.part p.val).valid = true ∧ valid = true ∧ (s.part p.val).tag ≠ tag ∨
       valid = true ∧ (∃ r, r < 16 ∧ r ≠ p.val ∧ (s.part r).valid = true ∧ (s.part r).tag = tag) ∨
       (s.part p.val).valid = true ∧ valid = false ∧ (p.val = 0 ∨ s.boundQueues p.val ≠ 0 ∨
         ∃ e ∈ s.syncs, e.2.alloc = true ∧ e.2.part.toNat = p.val)) →
       u.part p.val = { valid := valid, bf := bf, tasteOk := tasteOk, tag := tag })) ∧
  (∀ (p : Pkt) (s : State), (∀ r, r < 16 → (s.part r).valid = true → (s.part r).tag ≠ p.ptag) →
     s.tagPart p.ptag = none ∧ (∀ k, s.shaperOf k p = 80 + (p.vc - 3)) ∧
     ∀ src, p.wellLaid = true →
       (p.isBf = false → s.segValid (keySeg (pageKey p.addr)) = true ∧
         bits p.addr 0 46 + p.span ≤ s.segPages (keySeg (pageKey p.addr)) * mib2) →
       s.admitReq src p = s.reply p { status := stDenied } [])

/-- Scrubbing: GO starts the range of MODE RANGE or the ranges of a segment, and is refused while a scrub runs or on settings that
are not allowed; one of SIZE 0 is done at once; it ends DONE when nothing is left to zero. The SPDM mailbox: a request of 1 to 4,096 bytes joins the
responder's queue, another sets ERR; a response takes the oldest request, and one of the mailbox lands in the response buffer
with DONE and its length. The model's own choices in this are in the log: 22, 95, 101. -/
def Obligations.ScrubAndSpdm : Prop :=
  ((∀ s : State, Open s → s.sec.scrub.busy = true →
     Answers .scrubGo s { s with sec := { s.sec with scrub := { s.sec.scrub with rej := true, done := false } } }) ∧
   (∀ s : State, Open s → s.sec.scrub.busy = false → bit (s.reg 0x30058) 62 = true →
     Answers .scrubGo s { s with sec := { s.sec with scrub := (if s.wholly s.scrubRange.1 s.scrubRange.2 then
       (if s.scrubRange.2 = 0 then { done := true } else { busy := true, todo := [s.scrubRange] })
       else { s.sec.scrub with rej := true, done := false }) } }) ∧
   (∀ s : State, Open s → s.sec.scrub.busy = false → bit (s.reg 0x30058) 62 = false →
     s.segValid (bits (s.reg 0x30058) 0 10) = false ∨
       (s.inn.lodge.any fun e => e.2.busy && decide (keySeg e.2.key = bits (s.reg 0x30058) 0 10)) = true →
     Answers .scrubGo s { s with sec := { s.sec with scrub := { s.sec.scrub with rej := true, done := false } } }) ∧
   (∀ s : State, Open s → s.sec.scrub.busy = false → bit (s.reg 0x30058) 62 = false → s.segValid (bits (s.reg 0x30058) 0 10) = true →
     (s.inn.lodge.any fun e => e.2.busy && decide (keySeg e.2.key = bits (s.reg 0x30058) 0 10)) = false →
     Answers .scrubGo s { s with sec := { s.sec with scrub :=
       { busy := true, todo := s.segRanges (bits (s.reg 0x30058) 0 10) } } }) ∧
   (∀ s : State, s.running = true → s.sec.scrub.busy = true → s.sec.scrub.todo = [] →
     exec .scrubDone s = .next { s with sec := { s.sec with scrub := { s.sec.scrub with busy := false, done := true } } })) ∧
  ((∀ s : State, Open s → s.sec.spdm.busy = false → s.boot.stage = .ready → 0 < bits (s.reg 0x38000) 0 13 → bits (s.reg 0x38000) 0 13 ≤ 4096 →
     ∃ m : Bytes, m.length = bits (s.reg 0x38000) 0 13 ∧
       (∀ i (h : i < m.length), m[i] = (s.reg (0x36000 + i / 8 * 8)).extractLsb' (i % 8 * 8) 8) ∧
       Answers .spdmGo s { s with sec := { s.sec with spdm :=
         { s.sec.spdm with err := false, done := false, queue := s.sec.spdm.queue ++ [(none, 0, m)] } } }) ∧
   (∀ s : State, Open s → s.sec.spdm.busy = false → ¬ (s.boot.stage = .ready ∧ 0 < bits (s.reg 0x38000) 0 13 ∧ bits (s.reg 0x38000) 0 13 ≤ 4096) →
     Answers .spdmGo s { s with sec := { s.sec with spdm := { s.sec.spdm with err := true, done := false } } }) ∧
   (∀ (s : State) (m : Bytes) (no : BitVec 8) (l : List (Option Nat × BitVec 8 × Bytes)), s.running = true →
     s.sec.spdm.queue = (none, no, m) :: l →
     let a := (s.sec.spdm.conns.get {} 0).answer s.spdmSelf m
     let u := (s.modSpdm fun x => { x with queue := l, conns := x.conns.put {} 0 a.2 }).drew
     Does .spdmResponseDone s
       (State.modSpdm (u.setRegs 0x37000 (bytesWords a.1)) fun x => { x with done := true, rspLen := a.1.length })))

/-- Sources detected in one handshake are recorded together, then each reacts at its instance; what the running core does about one
waits in curfew for the resume, and is not done in the safe state; an injected source is one at no
instance, and only a part under test takes it. FC_STATUS, FC_FIRST and ERR_N: bits written 1 clear, in the safe state not those
of class F; FC_FIRST is freed; DRIVE drives ERR_N; a pulse ends after its width. FAULTB: one with the tag of P0 is logged, in
the next of sixteen places, any other counted. The model's own choices in this are in the log: 103, 166. -/
def Obligations.FaultReports : Prop :=
  ((∀ (l : List (Fin 64 × Nat)) (s : State),
     Does (.faultDetect l) s
       (forEach (l.map fun e => (e.1.val, e.2)) (fun e s => s.react e.1 e.2)
         (State.raiseAll (if ∃ e ∈ l, e.1.val = srcHclkLost then { s with pins := { s.pins with hclkDead := true } } else s)
           (l.map fun e => e.1.val).dedup))) ∧
   (∀ (src n : Nat) (s : State), let u := s.strike src n
     (u.fc.safe = true → s.react src n = u) ∧
     (u.fc.safe = false → u.obs.curfew.on = true → s.react src n =
       { u with obs := { u.obs with curfew := { u.obs.curfew with late := u.obs.curfew.late ++ [(src, n)] } } }) ∧
     (u.fc.safe = false → u.obs.curfew.on = false → s.react src n = u.respondTo src n)) ∧
   (∀ (src n : Nat) (l : List (Nat × Nat)) (s : State), s.obs.curfew.late = (src, n) :: l →
     s.reactLate = forEach l (fun e s => s.respondTo e.1 e.2)
       (State.respondTo { s with obs := { s.obs with curfew := { s.obs.curfew with late := [] } } } src n)) ∧
   (∀ (src : BitVec 6) (s : State), Open s → s.mayInject = true →
     Answers (.faultInject src) s
       (let u := (s.setReg 0x10050 (BitVec.ofNat 64 src.toNat)).raiseAll [src.toNat] true
        if src.toNat = srcRng ∨ src.toNat = srcBrownout then u.react src.toNat 0 else u)) ∧
   (∀ (src : BitVec 6) (s : State), Open s → s.mayInject = false → Answers (.faultInject src) s s)) ∧
  ((∀ (mask : BitVec 64) (s : State), Open s → ∃ u, Answers (.fcStatusClear mask) s u ∧
     u.fc = { s.fc with status := s.fc.status &&& ~~~(if s.fc.safe then mask &&& ~~~(classMask 3) else mask) } ∧
     (s.pins.hclkDead = false → u.pins.faultOut = faultOutOf u.fc.status) ∧ (s.pins.hclkDead = true → u.pins = s.pins) ∧
     u.links = s.links ∧ u.lanes = s.lanes ∧ u.queues = s.queues) ∧
   (∀ s : State, Open s → Answers .fcFirstClear s { s with fc := { s.fc with first := {} } }) ∧
   (∀ (drive : Bool) (s : State), Open s → Answers (.errDriveWrite drive) s { s with fc := { s.fc with drive := drive } }) ∧
   (∀ (dt t : Nat) (s : State), s.fc.pulse = some t → t + 5 * max 500 (min 10000 (bits (s.reg 0x10038) 0 14)) ≤ s.clk.up + 5 * dt →
     exec (.errPulseEnd dt) s = .next { s.passNs dt with fc := { s.fc with pulse := none } }) ∧
   (∀ (dt t : Nat) (s : State), s.fc.pulse = some t → s.clk.up + 5 * dt < t + 5 * max 500 (min 10000 (bits (s.reg 0x10038) 0 14)) →
     exec (.errPulseEnd dt) s = .next (s.passNs dt))) ∧
  (∀ (src : SrcId) (p : Pkt) (s : State), s.running = true →
     (s.inboxOf src.val).find? (fun q => decide (q.op.toNat = 0x23 ∧ q.dst = s.chip)) = some p →
     (p.ptag = s.p0Tag → ∃ u, Does (.faultb src) s u ∧ u.fc.count = s.fc.count + 1 ∧
       u.fc.log.get [] (s.fc.count.toNat % 16) =
         [word64 p.data 0, word64 p.data 8, word64 p.data 16, BitVec.ofNat 64 p.src.toNat] ∧
       (∀ i, i ≠ s.fc.count.toNat % 16 → u.fc.log.get [] i = s.fc.log.get [] i) ∧ u.fc.status = s.fc.status) ∧
     (p.ptag ≠ s.p0Tag → ∃ u, Does (.faultb src) s u ∧ u.fc = { s.fc with refused := satAdd s.fc.refused 1 }))

/-- What a detection records: its bit of FC_STATUS rises and none falls; FC_FIRST takes the source and the milestone time if it held
none, and otherwise only OVF; a source of class F leaves the part in the safe state, and one that ends a running commit so records
CONFIG with it. -/
def Obligations.FaultRecorded : Prop :=
  ∀ (n : Fin 64) (s : State), srcClass n.val ≠ 0 →
    bit (s.raise n.val).fc.status n.val = true ∧ (∀ m, bit s.fc.status m = true → bit (s.raise n.val).fc.status m = true) ∧
    (s.commit.busy = true → s.fc.safe = false → srcClass n.val = 3 →
      bit (s.raise n.val).fc.status srcConfig = true ∧ (s.raise n.val).commit.busy = false ∧
      (s.fc.first.valid = false → (s.raise n.val).fc.first =
        { valid := true, ovf := true, inj := false, cls := 3, source := BitVec.ofNat 6 n.val, time := s.now })) ∧
    (s.commit.busy = false ∨ s.fc.safe = true → s.fc.first.valid = false → (s.raise n.val).fc.first =
      { valid := true, ovf := false, inj := false, cls := BitVec.ofNat 2 (srcClass n.val), source := BitVec.ofNat 6 n.val, time := s.now }) ∧
    (s.fc.first.valid = true → (s.raise n.val).fc.first = { s.fc.first with ovf := true }) ∧
    (srcClass n.val = 3 → (s.raise n.val).fc.safe = true) ∧ (s.fc.safe = true → (s.raise n.val).fc.safe = true) ∧
    (s.raise n.val).lanes = s.lanes ∧ (s.raise n.val).parts = s.parts ∧ (s.raise n.val).queues = s.queues

/-- FC_FIRST (R418): sources detected together, CONFIG among them where they put the block into the safe state and end a commit
(R470, R477), set their bits; with VALID 0 it takes the one of highest class and then lowest bit,
with the milestone time, and OVF where there were several; with VALID 1 only OVF. A write of 1 to VALID clears it, and a warm
reset copies its time. -/
def Obligations.FirstCapture : Prop :=
  (∀ (l : List Nat) (inj : Bool) (s : State), (∀ n ∈ l, n < 64 ∧ srcClass n ≠ 0) → l.Nodup → l ≠ [] →
    let t := s.raiseAll l inj
    let all := if s.commit.busy = true ∧ s.fc.safe = false ∧ srcConfig ∉ l ∧
      (∃ n ∈ l, srcClass n = 3 ∨ bit (s.reg 0x10058) n = true) then l ++ [srcConfig] else l
    (∀ n ∈ all, bit t.fc.status n = true) ∧
    (s.fc.first.valid = true → t.fc.first = { s.fc.first with ovf := true }) ∧
    (s.fc.first.valid = false → ∀ n ∈ all,
      (∀ m ∈ all, m ≠ n → srcClass m < srcClass n ∨ srcClass m = srcClass n ∧ n < m) →
      t.fc.first = { valid := true, ovf := decide (1 < all.length), inj := inj, cls := BitVec.ofNat 2 (srcClass n)
                     source := BitVec.ofNat 6 n, time := s.now })) ∧
  (∀ s : State, Open s → Answers .fcFirstClear s { s with fc := { s.fc with first := {} } }) ∧
  (∀ s : State, ∃ t, exec .warmReset s = .next t ∧ t.fc.lastTime = s.fc.first.time ∧ t.fc.lastFirst = s.fc.first.word)

/-- Escalation (R428): a source escalated by its bit of FC_ESCALATE enters the safe state, its class captured unchanged; one that is
neither escalated nor of class F leaves the part out of it; a reserved bit does nothing; an F source enters it whatever its bit. -/
def Obligations.Escalation : Prop :=
  ∀ (n : Nat) (s : State), n < 64 →
    (srcClass n ≠ 0 → bit (s.reg 0x10058) n = true → (s.raise n).fc.safe = true) ∧
    (srcClass n = 3 → (s.raise n).fc.safe = true) ∧
    (srcClass n ≠ 3 → bit (s.reg 0x10058) n = false → (s.raise n).fc.safe = s.fc.safe) ∧
    (srcClass n ≠ 0 → s.fc.first.valid = false → (s.raise n).fc.first.cls = BitVec.ofNat 2 (srcClass n)) ∧
    (srcClass n = 0 → s.raise n = s)

/-- Binding: a write of word 0, 1 or 2 of a resting or unbound queue that passes every check binds it IDLE with its descriptor, the
first check that fails sets BIND_ERR and leaves it unbound, one that was bound and rested too; word 0 with VALID 0 only stands in an
unbound queue; and a queue that does not rest refuses with BIND_ERR 6. UNBIND takes
a resting queue away. A descriptor that an error has struck stays so until word 0 is written. What binding leaves: the queue is IDLE with nothing published and registers of zero, and no other queue
changes. The model's own choices in this are in the log: 75, 76. -/
def Obligations.QueueBinding : Prop :=
  (∀ (q : QueueId) (s : State), Open s →
     let stays := fun (word : Fin 3) (u : State) =>
       if (s.queue q.val).bad && decide (word ≠ 0) then u.modQueue q.val fun d => { d with bad := true } else u
     (∀ data : Word, (s.queue q.val).st = .unbound → ((s.queue q.val).withWord 0 data).valid = true →
       (s.bindErr q.val ((s.queue q.val).withWord 0 data) = 0 →
         Answers (.queueBind q 0 data) s (s.bindQueue q.val ((s.queue q.val).withWord 0 data))) ∧
       (∀ e, e ≠ 0 → s.bindErr q.val ((s.queue q.val).withWord 0 data) = e →
         Answers (.queueBind q 0 data) s
           (s.setQueue q.val { (s.queue q.val).withWord 0 data with
             bind := ((s.queue q.val).withWord 0 data).bind &&& 0x7FFFFFFFFFFFFFFF, bindErr := BitVec.ofNat 4 e }))) ∧
     (∀ (word : Fin 3) (data : Word), (s.queue q.val).st ≠ .unbound → s.resting q.val = false →
       Answers (.queueBind q word data) s (stays word (s.setQueue q.val { s.queue q.val with bindErr := 6 }))) ∧
     (∀ (word : Fin 3) (data : Word), word ≠ 0 → (s.queue q.val).st = .unbound →
       Answers (.queueBind q word data) s (stays word (s.setQueue q.val ((s.queue q.val).withWord word.val data)))) ∧
     (∀ (word : Fin 3) (data : Word), (s.queue q.val).st ≠ .unbound → s.resting q.val = true →
       (word = 0 → ((s.queue q.val).withWord 0 data).valid = true) →
       s.bindErr q.val ((s.queue q.val).withWord word.val data) = 0 →
       Answers (.queueBind q word data) s (stays word (s.bindQueue q.val ((s.queue q.val).withWord word.val data)))) ∧
     (∀ (word : Fin 3) (data : Word) (e : Nat), (s.queue q.val).st ≠ .unbound → s.resting q.val = true →
       (word = 0 → ((s.queue q.val).withWord 0 data).valid = true) →
       e ≠ 0 → s.bindErr q.val ((s.queue q.val).withWord word.val data) = e →
       let n := (s.queue q.val).withWord word.val data
       let u := (s.setQueue q.val n).unbind q.val
       Answers (.queueBind q word data) s (stays word (u.setQueue q.val { u.queue q.val with
         bind := n.bind &&& 0x7FFFFFFFFFFFFFFF, bindErr := BitVec.ofNat 4 e })) ∧ (u.queue q.val).st = .unbound) ∧
     (∀ data : Word, (s.queue q.val).st = .unbound → ((s.queue q.val).withWord 0 data).valid = false →
       Answers (.queueBind q 0 data) s (s.setQueue q.val ((s.queue q.val).withWord 0 data))) ∧
     ((s.queue q.val).st ≠ .unbound → s.resting q.val = true →
       ∃ u, Answers (.queueUnbind q) s u ∧ (u.queue q.val).st = .unbound ∧ (u.queue q.val).valid = false ∧
         (u.queue q.val).ring = (s.queue q.val).ring ∧
         ∀ r, r ≠ q.val → u.queue r = s.queue r)) ∧
  (∀ (q : QueueId) (d : Queue) (s : State),
     ((s.bindQueue q.val d).queue q.val).st = .idle ∧ ((s.bindQueue q.val d).queue q.val).tail = 0 ∧
     ((s.bindQueue q.val d).queue q.val).head = 0 ∧ ((s.bindQueue q.val d).queue q.val).pc = 0 ∧
     ((s.bindQueue q.val d).queue q.val).bind = d.bind ∧ ((s.bindQueue q.val d).queue q.val).insns = [] ∧
     ((s.bindQueue q.val d).queue q.val).fresh = some (List.replicate 16 0) ∧
     (∀ r, r ≠ q.val → (s.bindQueue q.val d).queue r = s.queue r) ∧ (s.bindQueue q.val d).parts = s.parts ∧
     (s.bindQueue q.val d).syncs = s.syncs)

/-- Q_CTL on a queue whose descriptor is whole: START, RESTART, CLEAR, SKIP and HALT, each in the states that Table 11.1 and R279 give
it, and without effect in the others. The model's own choices in this are in the log: 40, 70, 75. -/
def Obligations.QueueControl : Prop :=
  ∀ (q : QueueId) (s : State), Open s → (s.queue q.val).bad = false →
    ((s.queue q.val).st = .idle → (s.queue q.val).program = true → Answers (.start q) s (s.startProgram q.val 0)) ∧
    ((s.queue q.val).st = .idle → (s.queue q.val).program = false → (s.queue q.val).cnt ≠ (s.queue q.val).tail →
      Answers (.start q) s (s.setQueue q.val { s.queue q.val with st := .ready })) ∧
    ((s.queue q.val).st = .idle → (s.queue q.val).program = false → (s.queue q.val).cnt = (s.queue q.val).tail → Answers (.start q) s s) ∧
    ((s.queue q.val).st ≠ .idle → (s.queue q.val).st ≠ .halted → Answers (.start q) s s) ∧
    ((s.queue q.val).st = .halted →
      Answers (.start q) s (State.resumeQueue (s.setQueue q.val { s.queue q.val with halt := false }) q.val)) ∧
    ((s.queue q.val).st ≠ .unbound → (s.queue q.val).program = true →
      Answers (.restart q) s (State.startProgram (State.dropLines (s.abandon q.val) q.val fun _ => true) q.val 0)) ∧
    ((s.queue q.val).st ≠ .unbound → (s.queue q.val).program = false → let u := State.dropLines (s.abandon q.val) q.val fun _ => true
      Answers (.restart q) s
        (State.enterIdle (u.setQueue q.val { u.queue q.val with
            pc := ((u.queue q.val).pc + ((u.queue q.val).tail - (u.queue q.val).cnt).toNat) % max (u.queue q.val).size 1
            cnt := (u.queue q.val).tail, head := (u.queue q.val).tail }) q.val)) ∧
    ((s.queue q.val).st = .faulted →
      Answers (.queueClear q) s (State.settleHead (s.setQueue q.val
        { s.queue q.val with st := .halted, code := 0, info := 0, ovf := false, faultPc := 0, dbRej := false, hold := none }) q.val)) ∧
    ((s.queue q.val).st ≠ .faulted → Answers (.queueClear q) s s) ∧
    ((s.queue q.val).st = .halted → (s.queue q.val).program = true ∨ (s.queue q.val).cnt ≠ (s.queue q.val).tail →
      Answers (.skip q) s (State.settleHead (s.setQueue q.val
        { s.queue q.val with pc := ((s.queue q.val).pc + 1) % max (s.queue q.val).size 1, cnt := (s.queue q.val).cnt + 1
                             insns := (s.queue q.val).insns.map fun i => { i with retired := true } }) q.val)) ∧
    ((s.queue q.val).st ≠ .halted ∨ (s.queue q.val).program = false ∧ (s.queue q.val).cnt = (s.queue q.val).tail →
      Answers (.skip q) s s) ∧
    (∀ o c v, (s.queue q.val).st = .waiting → (s.queue q.val).park = .sync o c v →
      Answers (.queueHalt q) s
        (((s.unwait q.val).modQueue q.val fun d => { d with st := .halted, park := .none }).leave q.val)) ∧
    ((s.queue q.val).st = .waiting → (∀ o c v, (s.queue q.val).park ≠ .sync o c v) →
      Answers (.queueHalt q) s (s.setQueue q.val { s.queue q.val with halt := true })) ∧
    ((s.queue q.val).st = .ready →
      Answers (.queueHalt q) s (State.leave (s.setQueue q.val { s.queue q.val with st := .halted }) q.val)) ∧
    ((s.queue q.val).st = .active → Answers (.queueHalt q) s (s.setQueue q.val { s.queue q.val with halt := true })) ∧
    ((s.queue q.val).st = .faulted ∨ (s.queue q.val).st = .halted ∨ (s.queue q.val).st = .idle ∨ (s.queue q.val).st = .unbound →
      Answers (.queueHalt q) s s)

/-- Doorbells: a FIFO queue publishes up to the value, when the value passes neither the ring nor what is already published; a
PROGRAM queue starts with it as its argument when IDLE and keeps it pending otherwise; a tenant's doorbell reaches its own
queues only; an unbound queue refuses the driver's with DB_REJ. Each doorbell is an event of the management port's crossing. The model's own choice in this is in the log: 128. -/
def Obligations.Doorbells : Prop :=
  ∀ (q : QueueId) (v : BitVec 32) (s : State), Open s → let w := s.crossEvents mgXing .doorbell 1
    (∀ p : Option PartId, (∀ r, p = some r → s.ownsQueue r.val q.val = true) → (s.queue q.val).program = true → (s.queue q.val).st = .idle →
      Answers (.doorbell q p v) s (w.startProgram q.val v)) ∧
    (∀ p : Option PartId, (∀ r, p = some r → s.ownsQueue r.val q.val = true) → (s.queue q.val).program = true → (s.queue q.val).st ≠ .idle →
      (s.queue q.val).st ≠ .unbound →
      Answers (.doorbell q p v) s (w.setQueue q.val { s.queue q.val with tail := v, pend := true })) ∧
    (∀ p : Option PartId, (∀ r, p = some r → s.ownsQueue r.val q.val = true) → (s.queue q.val).program = false → (s.queue q.val).st ≠ .unbound →
      (v - (s.queue q.val).head).toNat ≤ (s.queue q.val).size →
      ((s.queue q.val).tail - (s.queue q.val).head).toNat ≤ (v - (s.queue q.val).head).toNat →
      ∃ u, Answers (.doorbell q p v) s u ∧
        u.queue q.val = { s.queue q.val with tail := v, st := if (s.queue q.val).st = .idle ∧ (s.queue q.val).cnt ≠ v then .ready else (s.queue q.val).st } ∧
        (∀ r, r ≠ q.val → u.queue r = s.queue r) ∧ u.parts = s.parts ∧ u.syncs = s.syncs) ∧
    (∀ p : Option PartId, (∀ r, p = some r → s.ownsQueue r.val q.val = true) → (s.queue q.val).program = false → (s.queue q.val).st ≠ .unbound →
      ¬ ((v - (s.queue q.val).head).toNat ≤ (s.queue q.val).size ∧
        ((s.queue q.val).tail - (s.queue q.val).head).toNat ≤ (v - (s.queue q.val).head).toNat) →
      Answers (.doorbell q p v) s (w.setQueue q.val { s.queue q.val with dbRej := true })) ∧
    ((s.queue q.val).st = .unbound → Answers (.doorbell q none v) s (w.setQueue q.val { s.queue q.val with dbRej := true })) ∧
    (∀ p : PartId, s.ownsQueue p.val q.val = false → Answers (.doorbell q (some p) v) s w)

/-- Stewards: a write of STW_CTL takes effect at once on a steward at a boundary, where EN 0 puts every context back, and another POOL
those of the queues outside it; on a steward that runs an instruction its contexts stay until the boundary; at its choice a
steward claims the queue, or runs its next instruction by class and opcode; a ring line that has come stands in its cache. The
model's own choices in this are in the log: 71, 73, 109. -/
def Obligations.Stewards : Prop :=
  (∀ (n : StwId) (en : Bool) (pool : BitVec 4) (s : State), Open s → (s.stw n.val).cur.isSome = true →
    ∃ u, Answers (.stwCtlWrite n en pool) s u ∧ (u.stw n.val).en = en ∧ (u.stw n.val).pool = pool.toNat ∧
      (u.stw n.val).ctxs = (s.stw n.val).ctxs ∧ ∀ m, m ≠ n.val → u.stw m = s.stw m) ∧
  (∀ (n : StwId) (en : Bool) (pool : BitVec 4) (s : State), Open s → (s.stw n.val).cur = none →
    ∃ ctl u, u = s.setStw n.val { s.stw n.val with ctl := ctl } ∧ (u.stw n.val).en = en ∧ (u.stw n.val).pool = pool.toNat ∧
      Answers (.stwCtlWrite n en pool) s
        (forEach ((s.stw n.val).ctxs.map fun c => c.2.queue) (fun q v =>
          if en = false ∨ (v.queue q).pool ≠ pool.toNat then v.leave q else v) u)) ∧
  (∀ (n : StwId) (q : Nat) (s : State), s.pick n.val = .claim q → Does (.stewardChoose n) s (s.claim n.val q)) ∧
  (∀ (n : StwId) (q cls op : Nat) (w : Fields) (f : Nat → Fields → State → State) (s : State), cls < 16 → op < 256 →
    s.pick n.val = .run q (insnWord cls op w) → insnBody cls op = some f →
    Does (.stewardChoose n) s (f q w (s.begin n.val q (insnWord cls op w)))) ∧
  (∀ (n : StwId) (q cls op : Nat) (w : Fields) (s : State), cls < 16 → op < 256 →
    s.pick n.val = .run q (insnWord cls op w) → insnBody cls op = none →
    Does (.stewardChoose n) s ((s.begin n.val q (insnWord cls op w)).execFault q qfIllegal)) ∧
  (∀ (n : StwId) (s : State), s.pick n.val = .none → Does (.stewardChoose n) s s) ∧
  (∀ (n : StwId) (q line : Nat) (j : Job) (l : List Job) (s : State), s.running = true → s.jobs = j :: l → j.what = .ringLine n.val q line →
    j.left = 0 → j.status = stOk → (∀ k ∈ l, k.id ≠ j.id) →
    Does (.ifetchLine n) s (State.cacheLine { s with jobs := l } n.val q line (j.bytes j.base 64)))

/-- Sync objects: SYNC_CTL allocates and frees, refused with REJ when it would pass the partition's quota, free an object with
waiters, or move one to another partition; SYNC_VAL sets the value; a tenant's add reaches its own objects only. Each value is
the new one for every waiter. An update of a sync object that no queue waits for and no menu entry names changes its value and
nothing of the other objects, queues or registers. -/
def Obligations.SyncObjects : Prop :=
  (∀ (n : SyncId) (s : State), Open s →
     (∀ (alloc : Bool) (p : BitVec 4),
       (¬ ((alloc = true ∧ (s.sync n.val).alloc = false ∧ s.syncFull n.val p.toNat = true) ∨
           (alloc = false ∧ (s.sync n.val).alloc = true ∧ (s.sync n.val).waiters ≠ []) ∨
           ((s.sync n.val).alloc = true ∧ (s.sync n.val).part ≠ p)) →
         Answers (.syncCtlWrite n alloc p) s (s.setSync n.val { s.sync n.val with alloc := alloc, part := p, rej := false })) ∧
       ((alloc = true ∧ (s.sync n.val).alloc = false ∧ s.syncFull n.val p.toNat = true) ∨
           (alloc = false ∧ (s.sync n.val).alloc = true ∧ (s.sync n.val).waiters ≠ []) ∨
           ((s.sync n.val).alloc = true ∧ (s.sync n.val).part ≠ p) →
         Answers (.syncCtlWrite n alloc p) s (s.setSync n.val { s.sync n.val with rej := true }))) ∧
     (∀ v : Word, Answers (.syncValWrite n v) s ((s.setSync n.val { s.sync n.val with bad := false }).update n.val true v)) ∧
     (∀ (p : PartId) (v : Word), s.syncOwned n.val p.val = true → Answers (.prtSyncAdd p n v) s (s.update n.val false v)) ∧
     (∀ (p : PartId) (v : Word), s.syncOwned n.val p.val = false → Answers (.prtSyncAdd p n v) s s)) ∧
  (∀ (n : SyncId) (set : Bool) (v : Word) (s : State), (s.sync n.val).bad = false → (s.sync n.val).waiters = [] → s.tables.menu = [] →
     ((s.update n.val set v).sync n.val).value = (if set then v else (s.sync n.val).value + v) ∧
     ((s.update n.val set v).sync n.val).alloc = (s.sync n.val).alloc ∧
     (∀ m, m ≠ n.val → (s.update n.val set v).sync m = s.sync m) ∧ (s.update n.val set v).queues = s.queues ∧
     (s.update n.val set v).stws = s.stws ∧ (s.update n.val set v).win = s.win ∧ (s.update n.val set v).lanes = s.lanes ∧
     (s.update n.val set v).links = s.links)

/-- SETG, ADDG, JMP, BNZ, LOOP, HALT and YIELD, run at steward `n` as the next instruction of queue `q`. A taken transfer goes
forward `dist` entries in the ring, `dist` counted round the ring; outside the ring, and in a FIFO queue to the same or an
unpublished entry, it faults FLOW. The model's own choices in this are in the log: 109. -/
def Obligations.ControlInsns : Prop :=
  (∀ (n : StwId) (q : Nat) (w : Fields) (s : State),
     (s.pick n.val = .run q (insnWord 0 0 w) → w.only true false false false 0 0 yAll = true →
       Does (.setg n w) s ((s.begin n.val q (insnWord 0 0 w)).finish q [(w.d.toNat, w.y)])) ∧
     (s.pick n.val = .run q (insnWord 0 1 w) → w.only true true true false 1 0 yAll = true →
       let b := s.begin n.val q (insnWord 0 1 w)
       Does (.addg n w) s (b.finish q [(w.d.toNat, b.gA q w + (if w.flag 0 then b.gB q w else w.y))])) ∧
     (s.pick n.val = .run q (insnWord 0 2 w) → w.only false false false false 0 destMask = true →
       Does (.jmp n w) s ((s.begin n.val q (insnWord 0 2 w)).jump q w.dest [])) ∧
     (s.pick n.val = .run q (insnWord 0 3 w) → w.only false true false false 1 destMask yAll = true →
       let b := s.begin n.val q (insnWord 0 3 w)
       let m : Word := if w.y = 0 then BitVec.allOnes 64 else w.y
       (w.flag 0 = false → b.gA q w &&& m ≠ 0 → Does (.bnz n w) s (b.jump q w.dest [])) ∧
       (w.flag 0 = false → b.gA q w &&& m = 0 → Does (.bnz n w) s (b.finish q [])) ∧
       (w.flag 0 = true → b.gA q w &&& m ≠ 0 → Does (.bnz n w) s (b.finish q [])) ∧
       (w.flag 0 = true → b.gA q w &&& m = 0 → Does (.bnz n w) s (b.jump q w.dest []))) ∧
     (s.pick n.val = .run q (insnWord 0 4 w) → w.only false true false false 0 destMask = true →
       let b := s.begin n.val q (insnWord 0 4 w)
       (1 < (b.gA q w).toNat → Does (.loop n w) s (b.jump q w.dest [(w.a.toNat, b.gA q w - 1)])) ∧
       ((b.gA q w).toNat ≤ 1 → Does (.loop n w) s (b.finish q [(w.a.toNat, 0)]))) ∧
     (s.pick n.val = .run q (insnWord 0 5 w) → w.only false false false false 0 0 = true →
       let u := (s.begin n.val q (insnWord 0 5 w)).retire q []
       ((u.queue q).program = false →
         Does (.halt n w) s (((u.setQueue q { u.queue q with st := .halted, halt := false }).leave q).freeStw q)) ∧
       ((u.queue q).program = true →
         let v := ((u.setQueue q { u.queue q with halt := false }).enterIdle q).freeStw q
         Does (.halt n w) s (if (v.queue q).pend && decide ((v.queue q).st = .idle) then v.startProgram q (u.queue q).tail else v))) ∧
     (s.pick n.val = .run q (insnWord 0 6 w) → w.only false false false false 0 0 = true →
       let b := s.begin n.val q (insnWord 0 6 w)
       ∀ x, b.ctxOf q = some (n.val, x) → Does (.yield n w) s ((b.modStw n.val fun v => { v with yielded := some q }).finish q []))) ∧
  (∀ (q x : Nat) (writes : List (Nat × Word)) (s : State),
     ((s.queue q).size ≤ x → s.jump q x writes = s.execFault q qfFlow) ∧
     (x < (s.queue q).size → (s.queue q).program = true →
       s.jump q x writes = s.finish q writes ((x + (s.queue q).size - (s.queue q).pc) % (s.queue q).size)) ∧
     (x < (s.queue q).size → (s.queue q).program = false →
       (let dist := (x + (s.queue q).size - (s.queue q).pc) % (s.queue q).size
        (0 < dist ∧ dist < ((s.queue q).tail - (s.queue q).cnt).toNat → s.jump q x writes = s.finish q writes dist) ∧
        (¬ (0 < dist ∧ dist < ((s.queue q).tail - (s.queue q).cnt).toNat) → s.jump q x writes = s.execFault q qfFlow))))

/-- Retiring writes a register of the queue's context and no other, moves PC on round the ring and counts the instruction; no other
queue changes. -/
def Obligations.RetireWritesOneRegister : Prop :=
  ∀ (q r dist : Nat) (v : Word) (n slot : Nat) (c : Ctx) (s : State), s.ctxOf q = some (n, slot, c) → c.loading = false →
    c.regs.length = 16 → r < 16 → ((s.stw n).ctxs.map (·.1)).Nodup →
    let t := s.retire q [(r, v)] dist
    (t.greg q r = v) ∧ (∀ k, k < 16 → k ≠ r → t.greg q k = s.greg q k) ∧
    (t.queue q).pc = ((s.queue q).pc + dist) % max (s.queue q).size 1 ∧
    (t.queue q).cnt = (s.queue q).cnt + BitVec.ofNat 32 dist ∧ (∀ p, p ≠ q → t.queue p = s.queue p) ∧
    (t.stw n).retired = satAdd (s.stw n).retired 1 ∧ (∀ m, m ≠ n → t.stw m = s.stw m) ∧
    t.parts = s.parts ∧ t.syncs = s.syncs ∧ t.lanes = s.lanes ∧ t.links = s.links ∧ t.reqs = s.reqs ∧ t.win = s.win

/-- COPY, PUT, GET, PUTI and FILL at their first piece, with operands that pass every check: the requests of the piece, which ends
at the next 2 MiB boundary of a fabric address; a later piece goes on where the last one ended. A length of 0 retires at once, and
a COPY, PUT, GET or FILL of a length above 40 bits faults MALFORMED, as does a FILL of a board-flat address (SEL 0x00), and a
COPY whose source and destination overlap in one space; a FILL of an address of a reserved SEL faults BADADDR. The model's own choices in this are in the log: 109. -/
def Obligations.MoveInsns : Prop :=
  (∀ (q : Nat) (dst src len : Word) (checks : List Nat) (fd fs : Bool) (piece : Insn → Word → Word → Nat → State → State) (i : Insn) (s : State),
    (s.queue q).present = some i → i.off ≠ 0 →
    let d := i.dst + BitVec.ofNat 64 i.off
    let c := i.src + BitVec.ofNat 64 i.off
    let k := i.len - i.off
    let k := if fd then min k (toPage d) else k
    let k := if fs then min k (toPage c) else k
    s.move q dst src len checks fd fs piece = piece i d c k (s.modInsn q fun i => { i with off := i.off + k })) ∧
  ∀ (n : StwId) (q : Nat) (w : Fields) (s : State), (s.queue q).present = none →
    (∀ e ∈ [(Instr.copy n w, 0), (.put n w, 1), (.get n w, 2)], s.pick n.val = .run q (insnWord 1 e.2 w) →
      w.only true true true false 0 0 = true →
      let b := s.begin n.val q (insnWord 1 e.2 w)
      (b.gB q w = 0 → Does e.1 s (b.finish q [])) ∧
      (bits (b.gB q w) 40 24 ≠ 0 → Does e.1 s (b.execFault q qfRequest stMalformed))) ∧
    (s.pick n.val = .run q (insnWord 1 0 w) → w.only true true true false 0 0 = true →
      let b := s.begin n.val q (insnWord 1 0 w)
      let d := (b.gD q w).toNat
      let c := (b.gA q w).toNat
      let k := (b.gB q w).toNat
      0 < k → k < 2 ^ 40 → bits (b.gD q w) 56 8 = bits (b.gA q w) 56 8 → d < c + k → c < d + k →
      Does (.copy n w) s (b.execFault q qfRequest stMalformed)) ∧
    (s.pick n.val = .run q (insnWord 1 0 w) → w.only true true true false 0 0 = true →
      let b := s.begin n.val q (insnWord 1 0 w)
      let d := b.gD q w
      let c := b.gA q w
      let k := (b.gB q w).toNat
      0 < k → k < 2 ^ 40 → overlaps d c k = false → b.issueCheck (b.queue q).part d k 1 = stOk →
      b.issueCheck (b.queue q).part c k 0 = stOk →
      let m := min (min k (toPage d)) (toPage c)
      Does (.copy n w) s
        (forEach (chunks m) (fun x u =>
            (u.fabReq q (c + BitVec.ofNat 64 x.1) x.2 0xE0 0xF0 (readRcw x.2) (.copyRe (u.nextId + 1)) false false).fabReq q
              (d + BitVec.ofNat 64 x.1) x.2 0xE1 0xF1 [] (.copyWr (c + BitVec.ofNat 64 x.1)) true true)
          (b.modInsn q fun i => { i with dst := d, src := c, len := k, off := m }))) ∧
    (s.pick n.val = .run q (insnWord 1 1 w) → w.only true true true false 0 0 = true →
      let b := s.begin n.val q (insnWord 1 1 w)
      let d := b.gD q w
      let c := b.gA q w
      let k := (b.gB q w).toNat
      0 < k → k < 2 ^ 40 → b.issueCheck (b.queue q).part d k 1 = stOk → b.localCheck (b.queue q).part c k 0 = stOk →
      let m := min k (toPage d)
      let u := b.modInsn q fun i => { i with dst := d, src := c, len := k, off := m }
      Does (.put n w) s
        (if small d k then u.fabReq q d m 0x81 0x91 [] (.put c.toNat) true true
         else forEach (chunks m) (fun x v =>
           v.fabReq q (d + BitVec.ofNat 64 x.1) x.2 0xE1 0xF1 [] (.put (c.toNat + x.1)) true true) u)) ∧
    (s.pick n.val = .run q (insnWord 1 2 w) → w.only true true true false 0 0 = true →
      let b := s.begin n.val q (insnWord 1 2 w)
      let d := b.gD q w
      let c := b.gA q w
      let k := (b.gB q w).toNat
      0 < k → k < 2 ^ 40 → b.localCheck (b.queue q).part d k 1 = stOk → b.issueCheck (b.queue q).part c k 0 = stOk →
      let m := min k (toPage c)
      let u := b.modInsn q fun i => { i with dst := d, src := c, len := k, off := m }
      Does (.get n w) s
        (if small c k then u.fabReq q c m 0x80 0x90 (readRcw m) (.get d.toNat) false false
         else forEach (chunks m) (fun x v =>
           v.fabReq q (c + BitVec.ofNat 64 x.1) x.2 0xE0 0xF0 (readRcw x.2) (.get (d.toNat + x.1)) false false) u)) ∧
    (s.pick n.val = .run q (insnWord 1 3 w) → let k := bits w.x 0 6
      (w.only true false true false 0 0x3F && decide (k ≤ 32 ∧ w.b.toNat + (k + 7) / 8 ≤ 16)) = true →
      let b := s.begin n.val q (insnWord 1 3 w)
      let d := b.gD q w
      (k = 0 → Does (.puti n w) s (b.finish q [])) ∧
      (0 < k → oneLine d.toNat k = true → b.issueCheck (b.queue q).part d k 1 = stOk →
        Does (.puti n w) s
          ((b.modInsn q fun i => { i with len := k, off := k }).fabReq q d k 0x81 0x91 (b.regBytes q w.b.toNat k) .plain true true))) ∧
    (s.pick n.val = .run q (insnWord 1 4 w) → w.only true true true false 1 0 = true →
      let b := s.begin n.val q (insnWord 1 4 w)
      let d := b.gD q w
      let k := (b.gB q w).toNat
      (k = 0 → Does (.fill n w) s (b.finish q [])) ∧
      (2 ^ 40 ≤ k → Does (.fill n w) s (b.execFault q qfRequest stMalformed)) ∧
      (0 < k → k < 2 ^ 40 → bits d 56 8 = 0 → Does (.fill n w) s (b.execFault q qfRequest stMalformed)) ∧
      (0 < k → k < 2 ^ 40 → 2 ≤ bits d 56 8 → Does (.fill n w) s (b.execFault q qfRequest stBadaddr)) ∧
      (0 < k → k < 2 ^ 40 → rackGlobal d = true → b.issueCheck (b.queue q).part d k 1 = stOk →
        let m := min k (toPage d)
        let u := b.modInsn q fun i => { i with dst := d, src := (if w.flag 0 then 0 else b.gA q w), len := k, off := m }
        Does (.fill n w) s
          ((u.fabReq q d m 0xCC 0xCC (leBytes 8 (if w.flag 0 then 0 else b.gA q w).toNat ++ leBytes 8 (m - 1)) .plain true
            false).modReq u.nextId fun r => { r with pkt := { r.pkt with len := 16 } })))

/-- The eight atomics: one ordered request for the operand's bytes. An atomic or a placement instruction that has asked parks for
its answer once no request of it is left to send, and goes on until then. The model's own choices in this are in the log: 109. -/
def Obligations.AtomicInsns : Prop :=
  (∀ (q : Nat) (i : Insn) (s : State), let t := s.settleHead q
    (t.queue q).st = .active → (t.queue q).present = some i → parks i.word = true → i.off ≠ 0 →
    (t.unsent q i.seq = false → s.settleQueue q = t.parkQueue q .answer) ∧ (t.unsent q i.seq = true → s.settleQueue q = t)) ∧
  ∀ (n : StwId) (q : Nat) (w : Fields) (s : State),
    ∀ e ∈ [(Instr.aadd n w, AtomOp.aadd, 0), (.amin n w, .amin, 1), (.amax n w, .amax, 2), (.aand n w, .aand, 3), (.aor n w, .aor, 4),
      (.axor n w, .axor, 5), (.aswp n w, .aswp, 6), (.acas n w, .acas, 7)],
    s.pick n.val = .run q (insnWord 2 e.2.2 w) →
    (w.only true true true (decide (e.2.1 = .acas)) 0 0x1F3 && atomAccepts e.2.1 (bits w.x 4 4) (bits w.x 0 2) (bit w.x 8)) = true →
    let b := s.begin n.val q (insnWord 2 e.2.2 w)
    let k := 2 ^ bits w.x 0 2
    ((b.gA q w).toNat % k = 0 → b.issueCheck (b.queue q).part (b.gA q w) k 2 = stOk →
      Does e.1 s
        (((b.fabReq q (b.gA q w) k (0x88 + e.2.2) (0x98 + e.2.2)
          (leBytes 16 (bits w.x 0 2 <<< 12 + bits w.x 4 4 <<< 15 + b2n (bit w.x 8) <<< 19) ++ leBytes 8 ((b.gB q w).toNat % 2 ^ (8 * k)) ++
            leBytes 8 (if e.2.1 = .acas then (b.gC q w).toNat % 2 ^ (8 * k) else 0)) .plain true true).modReq b.nextId
          fun r => { r with pkt := { r.pkt with len := 32 } }).requested q)) ∧
    ((b.gA q w).toNat % k = 0 → b.issueCheck (b.queue q).part (b.gA q w) k 2 ≠ stOk →
      Does e.1 s (b.execFault q qfRequest (b.issueCheck (b.queue q).part (b.gA q w) k 2))) ∧
    ((b.gA q w).toNat % k ≠ 0 → Does e.1 s (b.execFault q qfRequest stMalformed))

/-- SIG, WAIT, RSIG and FENCE: SIG and RSIG wait for the queue's earlier writes, FENCE for all its earlier requests; a WAIT whose
condition fails joins the object's list; the request of an RSIG is made, and a parked RSIG retires once it has been sent. The
condition of a WAIT: at least, equal, not equal, on unsigned numbers. That an RSIG is sent with the partition's TAG whatever its VALID
is, is the model's choice, in the log: 155. The model's other choices in this are in the log: 72, 109. -/
def Obligations.SyncInsns : Prop :=
  (∀ (n : StwId) (q : Nat) (w : Fields) (s : State),
     (s.pick n.val = .run q (insnWord 3 0 w) → w.only false true false false 3 0xFFF yAll = true →
       let b := s.begin n.val q (insnWord 3 0 w)
       let o := bits w.x 0 12
       (b.syncOwned o (b.queue q).part = false → Does (.sig n w) s (b.execFault q qfSyncOwner)) ∧
       (b.syncOwned o (b.queue q).part = true → (b.sync o).bad = false → b.written q = true →
         Does (.sig n w) s ((b.finish q []).update o (w.flag 0) (if w.flag 1 then b.gA q w else w.y))) ∧
       (b.syncOwned o (b.queue q).part = true → (b.sync o).bad = false → b.written q = false →
         Does (.sig n w) s ((b.modInsn q fun i => { i with src := if w.flag 1 then b.gA q w else w.y }).parkQueue q .release))) ∧
     (s.pick n.val = .run q (insnWord 3 1 w) → (w.only false true false false 7 0xFFF yAll && decide (bits w.f 0 2 ≠ 3)) = true →
       let b := s.begin n.val q (insnWord 3 1 w)
       let o := bits w.x 0 12
       let v := if w.flag 2 then b.gA q w else w.y
       (b.syncOwned o (b.queue q).part = false → Does (.wait n w) s (b.execFault q qfSyncOwner)) ∧
       (b.syncOwned o (b.queue q).part = true → (b.sync o).bad = false → waitHolds (bits w.f 0 2) (b.sync o).value v = true →
         Does (.wait n w) s (b.finish q [])) ∧
       (b.syncOwned o (b.queue q).part = true → (b.sync o).bad = false → waitHolds (bits w.f 0 2) (b.sync o).value v = false →
         Does (.wait n w) s
           ((State.parkQueue (b.setSync o { b.sync o with waiters := (b.sync o).waiters ++ [q] }) q (.sync o (bits w.f 0 2) v)).count
             7 1 q (some (b.queue q).part)))) ∧
     (s.pick n.val = .run q (insnWord 3 2 w) → w.only false true false false 3 0x7FF0FFF yAll = true →
       let b := s.begin n.val q (insnWord 3 2 w)
       let v := if w.flag 1 then b.gA q w else w.y
       (b.written q = true →
         Does (.rsig n w) s
           ((b.addReq { id := 0, who := .insn q (b.seqOf q), stream := some (queueStream q), ordered := true
                        pkt := { op := 0x82, ptag := (b.part (b.queue q).part).tag, dst := w.x.extractLsb' 16 11, len := 16
                                 data := leBytes 8 (bits w.x 0 12 + 4096 * b2n (w.flag 0)) ++ leBytes 8 v.toNat } }).requested q)) ∧
       (b.written q = false → Does (.rsig n w) s ((b.modInsn q fun i => { i with src := v }).parkQueue q .release))) ∧
     (s.pick n.val = .run q (insnWord 3 3 w) → w.only false false false false 0 0 = true →
       let b := s.begin n.val q (insnWord 3 3 w)
       (b.quiet q = true → Does (.fence n w) s (b.finish q [])) ∧
       (b.quiet q = false → Does (.fence n w) s (b.parkQueue q .quiet)))) ∧
  (∀ (q : Nat) (i : Insn) (s : State), let t := s.settleHead q
    (t.queue q).st = .waiting → (t.queue q).park = .sending → (t.queue q).present = some i → t.unsent q i.seq = false →
    s.settleQueue q = t.finish q []) ∧
  (∀ v x : Word, (waitHolds 0 v x = true ↔ x.toNat ≤ v.toNat) ∧ (waitHolds 1 v x = true ↔ v = x) ∧
     (waitHolds 2 v x = true ↔ v ≠ x))

/-- RSC, AGT, SIPRED, SIPBAR and SCALE of a group's own communication queue: an RSC or AGT joins the group, and the queue parks; the
others are issued to the group's tree, a SIPRED of no bytes is done. Any other queue faults GROUP, and so does a group that is
not valid or has no tree. The model's own choices in this are in the log: 109. -/
def Obligations.CollectiveInsns : Prop :=
  ∀ (n : StwId) (q : Nat) (w : Fields) (s : State),
    (∀ e ∈ [(Instr.rsc n w, false, 0), (.agt n w, true, 1)], s.pick n.val = .run q (insnWord 4 e.2.2 w) →
      let b := s.begin n.val q (insnWord 4 e.2.2 w)
      let g := bits w.x 0 9
      let code := bits w.x 12 4
      let k := (b.gC q w).toNat
      let len := (k * (b.fmt code).width + 7) / 8
      (w.only false true true true 0 0x1F1FF 0xFFF && b.fmtValid code) = true →
      (¬ ((b.queue q).comm = true ∧ (b.queue q).group = g ∧ gValid b.smvTab g = true ∧ gPart b.smvTab g = (b.queue q).part) →
        Does e.1 s (b.execFault q qfGroup)) ∧
      ((b.queue q).comm = true → (b.queue q).group = g → gValid b.smvTab g = true → gPart b.smvTab g = (b.queue q).part →
        b.syncOwned (bits w.y 0 12) (b.queue q).part = true → (b.sync (bits w.y 0 12)).bad = false →
        (k = 0 ∨ k < 2 ^ 40 ∧ (b.gA q w = b.gB q w ∨ ¬ ((b.gA q w).toNat < (b.gB q w).toNat + len ∧ (b.gB q w).toNat < (b.gA q w).toNat + len)) ∧
          b.localCheck (b.queue q).part (b.gA q w) len 0 = stOk ∧ b.localCheck (b.queue q).part (b.gB q w) len 1 = stOk) →
        Does e.1 s
          (let c : Coll :=
            { queue := q, seq := b.seqOf q, pc := (b.queue q).pc, cnt := (b.queue q).cnt, agt := e.2.1, fmt := code, sgn := bit w.x 16, src := (b.gA q w).toNat
              dst := (b.gB q w).toNat, count := k, obj := bits w.y 0 12, priv := decide ((b.queue q).prio = 0) }
           (b.modGrp g fun d => { d with wait := some c }).parkQueue q .answer))) ∧
    (s.pick n.val = .run q (insnWord 4 2 w) →
      let b := s.begin n.val q (insnWord 4 2 w)
      let g := bits w.x 0 9
      let ty := bits w.x 9 2
      let k := bits w.x 12 6
      (w.only true true false false 3 0x3FFFF && decide (ty ≠ 3 ∧ bits w.f 0 2 ≠ 3 ∧ k ≤ 32) && decide (k % (if ty = 2 then 8 else 4) = 0) &&
        decide (w.a.toNat + (k + 7) / 8 ≤ 16 ∧ w.d.toNat + (k + 7) / 8 ≤ 16)) = true →
      (¬ ((b.queue q).comm = true ∧ (b.queue q).group = g ∧ tValid b.sipTab g = true) → Does (.sipred n w) s (b.execFault q qfGroup)) ∧
      ((b.queue q).comm = true → (b.queue q).group = g → tValid b.sipTab g = true →
       (k = 0 → Does (.sipred n w) s (b.finish q [])) ∧
       (0 < k → Does (.sipred n w) s (b.sipIssue q g
        { op := 1, ctl := fields [(7, 6, k), (5, 2, ty), (4, 1, b2n (bit w.x 11)), (2, 2, bits w.f 0 2)], seq := 0
          data := slice (b.regBytes q w.a.toNat k) 0 32, own := true, queue := q, insn := 0, desc := b.fmtWord 0 })))) ∧
    (s.pick n.val = .run q (insnWord 4 3 w) → w.only false false false false 0 0x1FF = true →
      let b := s.begin n.val q (insnWord 4 3 w)
      (¬ ((b.queue q).comm = true ∧ (b.queue q).group = bits w.x 0 9 ∧ tValid b.sipTab (bits w.x 0 9) = true) →
        Does (.sipbar n w) s (b.execFault q qfGroup)) ∧
      ((b.queue q).comm = true → (b.queue q).group = bits w.x 0 9 → tValid b.sipTab (bits w.x 0 9) = true →
        Does (.sipbar n w) s (b.sipIssue q (bits w.x 0 9)
          { op := 2, ctl := 0, seq := 0, data := zeros 32, own := true, queue := q, insn := 0 }))) ∧
    (s.pick n.val = .run q (insnWord 4 4 w) →
      let b := s.begin n.val q (insnWord 4 4 w)
      let g := bits w.x 0 9
      let code := bits w.x 12 4
      let k := (b.gB q w).toNat
      let len := (k * (b.fmt code).width + 7) / 8
      (w.only true true true true 0 0xF1FF && b.fmtValid code && narrowFmt code (b.fmt code)) = true →
      (¬ ((b.queue q).comm = true ∧ (b.queue q).group = g ∧ tValid b.sipTab g = true) → Does (.scale n w) s (b.execFault q qfGroup)) ∧
      ((b.queue q).comm = true → (b.queue q).group = g → tValid b.sipTab g = true →
      (k = 0 ∨ k < 2 ^ 40 ∧ b.localCheck (b.queue q).part (b.gA q w) len 0 = stOk ∧
        b.localCheck (b.queue q).part (b.gA q w) len 1 = stOk) →
      let u := b.sipIssue q g { op := 3, ctl := fields [(13, 4, code)], seq := 0, data := zeros 32, own := decide (k = 0), queue := q, insn := 0
                                base := (b.gA q w).toNat, count := k, scale := (b.gC q w).extractLsb' 0 32, desc := b.fmtWord code }
      Does (.scale n w) s (if k = 0 then u else u.startJob (.smv g 0 .maxRead 0) [((b.gA q w).toNat, len)] [])))

/-- PIN, UNPIN, MIGR, REPL, UNREPL: one PL_ASK with the kind, target, flags, object and chip, when the object, if it is of this chip,
is of the queue's partition; SYNC_OWNER else. HINT asks for each page of the segment in turn. The operand of a placement instruction: a rack-global address
of a page the queue may read, of a segment its partition owns unless it is P0. The model's own choices in this are in the log:
109. -/
def Obligations.PlacementInsns : Prop :=
  (∀ (n : StwId) (q : Nat) (w : Fields) (s : State),
     (∀ e ∈ [(Instr.pin n w, kPin, 0), (.unpin n w, kUnpin, 1), (.migr n w, kMigr, 2), (.repl n w, kRepl, 3), (.unrepl n w, kUnrepl, 4)],
       s.pick n.val = .run q (insnWord 5 e.2.2 w) → w.only true true (decide (e.2.1 ≠ kUnpin)) false 3 0x7FF0FFF = true →
       let b := s.begin n.val q (insnWord 5 e.2.2 w)
       let a := b.gA q w
       let t := if e.2.1 = kUnpin then 0 else b.gB q w
       bits t 11 53 = 0 → b.placeCheck q a = stOk →
       ((bits w.x 16 11 = b.chip.toNat →
          b.syncOwned (bits w.x 0 12) (b.queue q).part = true ∧ (b.sync (bits w.x 0 12)).bad = false) →
        Does e.1 s
          ((b.placeAsk q (pageKey a) (fields [(60, 4, e.2.1), (49, 11, t.toNat), (48, 1, b2n (w.flag 0)), (47, 1, b2n (w.flag 1)),
            (35, 12, bits w.x 0 12), (24, 11, bits w.x 16 11), (23, 1, b2n (decide ((b.queue q).part = 0)))])).requested q)) ∧
       (bits w.x 16 11 = b.chip.toNat → b.syncOwned (bits w.x 0 12) (b.queue q).part = false →
        Does e.1 s (b.execFault q qfSyncOwner))) ∧
     (s.pick n.val = .run q (insnWord 5 5 w) → w.only false true true false 0 0 = true →
       let b := s.begin n.val q (insnWord 5 5 w)
       let k := pageKey (b.gA q w)
       ((b.gB q w) = 0 → Does (.hint n w) s (b.finish q [])) ∧
       ((b.gB q w) ≠ 0 → b.placeCheck q (b.gA q w) = stOk →
         Does (.hint n w) s
           (forEach (List.range (min (b.gB q w).toNat (b.segPages (keySeg k) - keyPage k)))
             (fun i u => u.placeAsk q (k + i) (fields [(60, 4, kHint)])) (b.modInsn q fun i => { i with len := 1, off := 1 }))) ∧
       ((b.gB q w) ≠ 0 → b.placeCheck q (b.gA q w) ≠ stOk →
         Does (.hint n w) s (b.execFault q qfRequest (b.placeCheck q (b.gA q w)))))) ∧
  (∀ (q : Nat) (a : Word) (s : State),
     (bits a 56 8 = 0 → s.placeCheck q a = stMalformed) ∧
     (bits a 56 8 ≠ 0 → s.issueCheck (s.queue q).part a 1 0 ≠ stOk → s.placeCheck q a = s.issueCheck (s.queue q).part a 1 0) ∧
     (bits a 56 8 ≠ 0 → s.issueCheck (s.queue q).part a 1 0 = stOk →
       ((s.queue q).part = 0 ∨ s.segOwner (keySeg (pageKey a)) = (s.queue q).part → s.placeCheck q a = stOk) ∧
       (¬ ((s.queue q).part = 0 ∨ s.segOwner (keySeg (pageKey a)) = (s.queue q).part) → s.placeCheck q a = stDenied)))

/-- TLOAD and TCOMMIT of a table code: a queue of another partition than P0 faults CONFIG. A TLOAD of no bytes is done; one of whole
words within the bank reads its source; another faults CONFIG, or REQUEST where its length or its source fails the check. A
TCOMMIT waits its turn, and its queue parks. The model's own choices in this are in the log: 109. -/
def Obligations.TableInsns : Prop :=
  ∀ (n : StwId) (q : Nat) (w : Fields) (s : State), 1 ≤ bits w.x 0 8 → bits w.x 0 8 ≤ 9 →
    (s.pick n.val = .run q (insnWord 6 0 w) → w.only false true true true 0 0xFF = true →
      let b := s.begin n.val q (insnWord 6 0 w)
      let a := b.gA q w
      let k := (b.gB q w).toNat
      let o := (b.gC q w).toNat
      ((b.queue q).part ≠ 0 → Does (.tload n w) s (b.execFault q qfConfig)) ∧
      ((b.queue q).part = 0 → k = 0 → Does (.tload n w) s (b.finish q [])) ∧
      ((b.queue q).part = 0 → 2 ^ 40 ≤ k → Does (.tload n w) s (b.execFault q qfRequest stMalformed)) ∧
      ((b.queue q).part = 0 → 0 < k → k < 2 ^ 40 → k % 8 = 0 → o % 8 = 0 → o + k ≤ bankExtent (bits w.x 0 8) →
        (b.localCheck 0 a k 0 = stOk →
          Does (.tload n w) s
            ((b.modInsn q fun i => { i with dst := BitVec.ofNat 64 (bankBase (bits w.x 0 8) + o), src := a, len := k }).startJob
              (.tload q (b.seqOf q)) [(a.toNat, k)] [])) ∧
        (b.localCheck 0 a k 0 ≠ stOk → Does (.tload n w) s (b.execFault q qfRequest (b.localCheck 0 a k 0)))) ∧
      ((b.queue q).part = 0 → 0 < k → k < 2 ^ 40 → ¬ (k % 8 = 0 ∧ o % 8 = 0 ∧ o + k ≤ bankExtent (bits w.x 0 8)) →
        Does (.tload n w) s (b.execFault q qfConfig))) ∧
    (s.pick n.val = .run q (insnWord 6 1 w) → w.only false false false false 0 0xFF = true →
      let b := s.begin n.val q (insnWord 6 1 w)
      ((b.queue q).part ≠ 0 → Does (.tcommit n w) s (b.execFault q qfConfig)) ∧
      ((b.queue q).part = 0 →
        Does (.tcommit n w) s
          (State.nextCommit ((b.parkQueue q .answer).modCommit fun c =>
            { c with waiting := c.waiting ++ [(q, b.seqOf q, w.x.extractLsb' 0 8)] }))))

/-- SLIP, EQSET, EYESCAN, PRBS, TRAIN and LINKSET for a queue of P0: the effect of the lane or link register they stand for; with NOTIFY
the object must be of the partition, and it is noted at the lane. The lane and link instructions of a queue of another partition than P0 fault PRIVILEGE and do nothing else. The model's own choices
in this are in the log: 104, 105, 106, 107, 109. -/
def Obligations.LaneInsns : Prop :=
  (∀ (n : StwId) (q : Nat) (w : Fields) (s : State),
     (s.pick n.val = .run q (insnWord 7 0 w) → (w.only true false false false 3 laneX && decide (bits w.x 0 7 ≤ 95)) = true →
       let b := s.begin n.val q (insnWord 7 0 w)
       (b.queue q).part = 0 → w.flag 1 = false →
       Does (.slipInstr n w) s
         ((if w.flag 0 then b.doClearWin (bits w.x 0 7) else b.doSlip (bits w.x 0 7)).slipEnd q w)) ∧
     (s.pick n.val = .run q (insnWord 7 0 w) → (w.only true false false false 3 laneX && decide (bits w.x 0 7 ≤ 95)) = true →
       let b := s.begin n.val q (insnWord 7 0 w)
       (b.queue q).part = 0 → w.flag 1 = true →
       let u := b.modLane (bits w.x 0 7) fun l => { l with noteWin := l.noteWin ++ [bits w.x 16 12] }
       (b.syncOwned (bits w.x 16 12) 0 = true → (b.sync (bits w.x 16 12)).bad = false →
         Does (.slipInstr n w) s
           ((if w.flag 0 then u.doClearWin (bits w.x 0 7) else u.doSlip (bits w.x 0 7)).slipEnd q w)) ∧
       (b.syncOwned (bits w.x 16 12) 0 = false → Does (.slipInstr n w) s (b.execFault q qfSyncOwner))) ∧
     (s.pick n.val = .run q (insnWord 7 1 w) → (w.only true false false false 0 0x7F 0x3FFFF && decide (bits w.x 0 7 ≤ 95)) = true →
       let b := s.begin n.val q (insnWord 7 1 w)
       (b.queue q).part = 0 →
       let u := b.writeTxeq (bits w.x 0 7) (fields [(63, 1, 1)] ||| w.y)
       Does (.eqset n w) s (u.finish q [(w.d.toNat, (u.lane (bits w.x 0 7)).txeqWord)])) ∧
     (s.pick n.val = .run q (insnWord 7 2 w) → (w.only true false false false 2 laneX 0xFFFFFF && decide (bits w.x 0 7 ≤ 95)) = true →
       let b := s.begin n.val q (insnWord 7 2 w)
       (b.queue q).part = 0 →
       let v := if w.flag 1 then b.modLane (bits w.x 0 7) fun l => { l with noteEye := l.noteEye ++ [bits w.x 16 12] } else b
       let u := v.writeEye (bits w.x 0 7) (fields [(63, 1, 1)] ||| w.y)
       ((w.flag 1 = true → b.syncOwned (bits w.x 16 12) 0 = true ∧ (b.sync (bits w.x 16 12)).bad = false) →
         Does (.eyescan n w) s (u.finish q [(w.d.toNat, (u.lane (bits w.x 0 7)).eye.statWord)])) ∧
       (w.flag 1 = true → b.syncOwned (bits w.x 16 12) 0 = false → Does (.eyescan n w) s (b.execFault q qfSyncOwner))) ∧
     (s.pick n.val = .run q (insnWord 7 3 w) → (w.only true false false false 5 0x7F 0xFF0003 && decide (bits w.x 0 7 ≤ 95)) = true →
       let b := s.begin n.val q (insnWord 7 3 w)
       let k := bits w.x 0 7
       (b.queue q).part = 0 →
       (w.flag 2 = false →
         let u := b.writePrbs k (fields [(63, 1, b2n (w.flag 0))] ||| w.y)
         Does (.prbs n w) s (u.finish q [(w.d.toNat, (u.lane k).prbs.ctlWord)])) ∧
       (w.flag 2 = true →
         let c := b.prbsSettle k
         Does (.prbs n w) s
           (((c.clearLane k 0x48).writePrbs k (fields [(63, 1, b2n (w.flag 0))] ||| w.y)).finish q
             [(w.d.toNat, (c.lane k).prbs.cntWord)]))) ∧
     (s.pick n.val = .run q (insnWord 7 4 w) → (w.only false false false false 1 0x1F && decide (bits w.x 0 5 ≤ 23)) = true →
       let b := s.begin n.val q (insnWord 7 4 w)
       (b.queue q).part = 0 →
       Does (.train n w) s
         ((b.modTrain (bits w.x 0 5) fun t => if w.flag 0 then { t with failp := true } else { t with pass := true }).finish q [])) ∧
     (s.pick n.val = .run q (insnWord 7 5 w) → ∀ a, (w.only true true false false 1 0xFF007FFF) = true → linksetAddr w = some a →
       let b := s.begin n.val q (insnWord 7 5 w)
       (b.queue q).part = 0 →
       (w.flag 0 = true → Does (.linkset n w) s ((b.writeReg a (b.gA q w)).finish q [])) ∧
       (w.flag 0 = false → Does (.linkset n w) s
         (((b.settle a).clearRc a).finish q [(w.d.toNat, (b.settle a).peek a)])))) ∧
  (∀ (n : StwId) (q : Nat) (w : Fields) (s : State),
     ∀ e ∈ [(Instr.slipInstr n w, 0), (.eqset n w, 1), (.eyescan n w, 2), (.prbs n w, 3), (.train n w, 4), (.linkset n w, 5)],
       s.pick n.val = .run q (insnWord 7 e.2 w) → ((s.begin n.val q (insnWord 7 e.2 w)).queue q).part ≠ 0 →
       Does e.1 s ((s.begin n.val q (insnWord 7 e.2 w)).execFault q qfPrivilege))

/-- TASTE and MARK do not hold their queue: a taste of the entry the name finds joins the taste unit, or its refusal is counted and
recorded; with the trace recording a mark is recorded, if its source is on, and fires the units that name it. That its record names
unit 7 with the queue as INST is the model's reading, in the log: 88. The model's own choices in this are in the log: 88, 109. -/
def Obligations.ObservationInsns : Prop :=
  ∀ (n : StwId) (q : Nat) (w : Fields) (s : State),
    (s.pick n.val = .run q (insnWord 8 0 w) → w.only false true false false 0 (2 ^ 32 - 1) = true →
      let b := s.begin n.val q (insnWord 8 0 w)
      let p := (b.queue q).part
      (p ≠ 0 → (b.part p).tasteOk = false →
        Does (.taste n w) s
          ((State.tasteRec (b.modTaste fun c => { c with denied := satAdd c.denied 1 }) 2 p w.x.toNat (b.gA q w) 0).finish q [])) ∧
      ((p = 0 ∨ (b.part p).tasteOk = true) →
        (∀ i, b.menuFind (if p = 0 then none else some p) w.x.toNat = some i →
          Does (.taste n w) s ((b.tasteEntry i (b.gA q w) (some (q, b.seqOf q))).finish q [])) ∧
        (b.menuFind (if p = 0 then none else some p) w.x.toNat = none →
          Does (.taste n w) s
            ((State.tasteRec (b.modTaste fun c => { c with noEntry := satAdd c.noEntry 1 }) 1 p w.x.toNat (b.gA q w) 0).finish q [])))) ∧
    (s.pick n.val = .run q (insnWord 8 1 w) → w.only false true false false 0 (2 ^ 32 - 1) = true →
      let b := s.begin n.val q (insnWord 8 1 w)
      (b.obs.trace.recording = false → Does (.mark n w) s (b.finish q [])) ∧
      (b.obs.trace.recording = true → b.traceSrc 0 = true →
        Does (.mark n w) s
          ((State.fireWhere (b.offer { type_ := 1, pv := true, part := BitVec.ofNat 4 (b.queue q).part, unit_ := 7, inst := BitVec.ofNat 16 q
                                       pay := leBytes 4 w.x.toNat ++ zeros 4 ++ leBytes 8 (b.gA q w).toNat ++ leBytes 2 q })
            fun t => decide (t.kind = 4) && decide (t.value.extractLsb' 0 32 = w.x)).finish q [])) ∧
      (b.obs.trace.recording = true → b.traceSrc 0 = false →
        Does (.mark n w) s ((b.fireWhere fun t => decide (t.kind = 4) && decide (t.value.extractLsb' 0 32 = w.x)).finish q [])))

/-- A field an instruction does not use must be zero (R282): otherwise the queue faults ILLEGAL, whatever the instruction, the lane
and link instructions apart, which check the partition first. The model's own choices in this are in the log: 74, 109. -/
def Obligations.UnusedFieldsFault : Prop :=
  ∀ (n : StwId) (q : Nat) (w : Fields) (s : State),
    ∀ e ∈ [(Instr.setg n w, 0, 0, w.only true false false false 0 0 yAll), (.addg n w, 0, 1, w.only true true true false 1 0 yAll),
      (.jmp n w, 0, 2, w.only false false false false 0 destMask), (.bnz n w, 0, 3, w.only false true false false 1 destMask yAll),
      (.loop n w, 0, 4, w.only false true false false 0 destMask), (.halt n w, 0, 5, w.only false false false false 0 0),
      (.yield n w, 0, 6, w.only false false false false 0 0), (.copy n w, 1, 0, w.only true true true false 0 0),
      (.put n w, 1, 1, w.only true true true false 0 0), (.get n w, 1, 2, w.only true true true false 0 0),
      (.puti n w, 1, 3, w.only true false true false 0 0x3F), (.fill n w, 1, 4, w.only true true true false 1 0),
      (.aadd n w, 2, 0, w.only true true true false 0 0x1F3), (.amin n w, 2, 1, w.only true true true false 0 0x1F3),
      (.amax n w, 2, 2, w.only true true true false 0 0x1F3), (.aand n w, 2, 3, w.only true true true false 0 0x1F3),
      (.aor n w, 2, 4, w.only true true true false 0 0x1F3), (.axor n w, 2, 5, w.only true true true false 0 0x1F3),
      (.aswp n w, 2, 6, w.only true true true false 0 0x1F3), (.acas n w, 2, 7, w.only true true true true 0 0x1F3),
      (.sig n w, 3, 0, w.only false true false false 3 0xFFF yAll), (.wait n w, 3, 1, w.only false true false false 7 0xFFF yAll),
      (.rsig n w, 3, 2, w.only false true false false 3 0x7FF0FFF yAll), (.fence n w, 3, 3, w.only false false false false 0 0),
      (.rsc n w, 4, 0, w.only false true true true 0 0x1F1FF 0xFFF), (.agt n w, 4, 1, w.only false true true true 0 0x1F1FF 0xFFF),
      (.sipred n w, 4, 2, w.only true true false false 3 0x3FFFF), (.sipbar n w, 4, 3, w.only false false false false 0 0x1FF),
      (.scale n w, 4, 4, w.only true true true true 0 0xF1FF), (.pin n w, 5, 0, w.only true true true false 3 0x7FF0FFF),
      (.unpin n w, 5, 1, w.only true true false false 3 0x7FF0FFF), (.migr n w, 5, 2, w.only true true true false 3 0x7FF0FFF),
      (.repl n w, 5, 3, w.only true true true false 3 0x7FF0FFF), (.unrepl n w, 5, 4, w.only true true true false 3 0x7FF0FFF),
      (.hint n w, 5, 5, w.only false true true false 0 0), (.tload n w, 6, 0, w.only false true true true 0 0xFF),
      (.tcommit n w, 6, 1, w.only false false false false 0 0xFF), (.taste n w, 8, 0, w.only false true false false 0 (2 ^ 32 - 1)),
      (.mark n w, 8, 1, w.only false true false false 0 (2 ^ 32 - 1))],
    s.pick n.val = .run q (insnWord e.2.1 e.2.2.1 w) → e.2.2.2 = false →
    Does e.1 s ((s.begin n.val q (insnWord e.2.1 e.2.2.1 w)).execFault q qfIllegal)

/-- The order check of an ordered flow at its destination (R188). The flows of the order check (R188): each source chip has one of
its own for VC4 and one for VC7, an arriving packet of these VCs changes no other flow, and a cold or a warm reset clears them
all. A request at the head of its VC is taken, and goes by its flow's order: one ahead or of an unsynchronised flow is refused
RETRY or RESYNC, one behind is dropped and counted, one in turn passes its toll gate, where a red one is refused POLICED, and is
admitted. -/
def Obligations.OrderedFlows : Prop :=
  (∀ (p : Pkt) (f : FlowIn),
     (p.sqm = 0 ∨ p.sqm = 3 → f.check p = (.pass, f)) ∧
     (p.sqm = 2 → f.check p = (.pass, { e := p.tag + 1, synced := true })) ∧
     (p.sqm = 1 → f.synced = false → f.check p = (.resync, f)) ∧
     (p.sqm = 1 → f.synced = true →
       (p.tag = f.e → f.check p = (.pass, { f with e := f.e + 1 })) ∧
       (p.tag ≠ f.e → (p.tag - f.e).toNat < 2048 → f.check p = (.retry, f)) ∧
       (2048 ≤ (p.tag - f.e).toNat → f.check p = (.behind, f)))) ∧
  ((∀ c d v w : Nat, v = 4 ∨ v = 7 → w = 4 ∨ w = 7 → flowKey c v = flowKey d w → c = d ∧ v = w) ∧
   (∀ (src : Nat) (p : Pkt) (s : State), src ≠ 24 → p.vc = 4 ∨ p.vc = 7 →
     let f := (s.flowsIn.get {} (flowKey p.src.toNat p.vc)).check p
     (s.orderCheck src p).1 = f.1 ∧ (s.orderCheck src p).2.flowsIn.get {} (flowKey p.src.toNat p.vc) = f.2 ∧
     ∀ i, i ≠ flowKey p.src.toNat p.vc → (s.orderCheck src p).2.flowsIn.get {} i = s.flowsIn.get {} i) ∧
   (∀ (tm : Bool) (s : State), ∃ t u, exec (.coldReset tm) s = .next t ∧ t.flowsIn = [] ∧ exec .warmReset s = .next u ∧ u.flowsIn = [])) ∧
  (∀ (src : SrcId) (s : State), s.admits = true →
     ∀ e ∈ [(Instr.rd src, fun o => o == 0x80), (.wr src, fun o => o == 0x81), (.atom src, fun o => o / 8 == 0x11),
       (.rdBf src, fun o => o == 0x90), (.wrBf src, fun o => o == 0x91), (.atomBf src, fun o => o / 8 == 0x13),
       (.brd src, fun o => o == 0xE0), (.bwr src, fun o => o == 0xE1), (.brdBf src, fun o => o == 0xF0),
       (.bwrBf src, fun o => o == 0xF1), (.fillRequest src, fun o => o == (0xCC : Nat))],
     ∀ p, s.headOf src.val e.2 = some p →
       let r := (s.consume src.val p).orderCheck src.val p
       (r.1 = .pass → ¬ (src.val < 24 ∧ p.sqm ≠ 3 ∧ (p.vc = 4 ∨ p.vc = 7)) → Does e.1 s (r.2.admitReq src.val p)) ∧
       (r.1 = .pass → src.val < 24 ∧ p.sqm ≠ 3 ∧ (p.vc = 4 ∨ p.vc = 7) → (r.2.toll src.val p).2 = false →
         Does e.1 s ((r.2.toll src.val p).1.admitReq src.val p)) ∧
       (r.1 = .pass → src.val < 24 ∧ p.sqm ≠ 3 ∧ (p.vc = 4 ∨ p.vc = 7) → (r.2.toll src.val p).2 = true →
         Does e.1 s ((r.2.toll src.val p).1.reply p { status := stBusy, policed := true } [])) ∧
       (r.1 = .retry → Does e.1 s (r.2.reply p { status := stBusy, retry := true } [])) ∧
       (r.1 = .resync → Does e.1 s (r.2.reply p { status := stBusy, resync := true } [])) ∧
       (r.1 = .behind →
         Does e.1 s (r.2.modPtr fun c => { c with behind := satAdd c.behind 1 })))

/-- Checks of an admitted request in order: layout; for a board-flat one the tag and the window; for a rack-global one the segment,
the tag and the right. What fails is answered with its status. The model's own choices in this are in the log: 33. -/
def Obligations.RequestChecks : Prop :=
  ∀ (src : Nat) (p : Pkt) (s : State),
    (p.wellLaid = false → s.admitReq src p = s.reply p { status := stMalformed } []) ∧
    (p.wellLaid = true → p.isBf = true →
      (s.tagPart p.ptag = none → s.admitReq src p = s.reply p { status := stDenied } []) ∧
      ∀ q, s.tagPart p.ptag = some q →
        (s.bfWindow q (bits p.addr 0 41) p.span p.right = false → s.admitReq src p = s.reply p { status := stDenied } []) ∧
        (s.bfWindow q (bits p.addr 0 41) p.span p.right = true →
          s.admitReq src p = s.perform src p [(bits p.addr 0 41, p.span)] none)) ∧
    (p.wellLaid = true → p.isBf = false →
      (s.segValid (keySeg (pageKey p.addr)) = false ∨
          s.segPages (keySeg (pageKey p.addr)) * mib2 < bits p.addr 0 46 + p.span →
        s.admitReq src p = s.reply p { status := stBadaddr } []) ∧
      (s.segValid (keySeg (pageKey p.addr)) = true →
          bits p.addr 0 46 + p.span ≤ s.segPages (keySeg (pageKey p.addr)) * mib2 →
        (s.tagPart p.ptag = none → s.admitReq src p = s.reply p { status := stDenied } []) ∧
        ∀ q, s.tagPart p.ptag = some q →
          (¬ (s.segRight q (keySeg (pageKey p.addr)) p.right = true ∧ (p.writes = true → s.segRo (keySeg (pageKey p.addr)) = false)) →
            s.admitReq src p = s.reply p { status := stDenied } []) ∧
          (s.segRight q (keySeg (pageKey p.addr)) p.right = true ∧ (p.writes = true → s.segRo (keySeg (pageKey p.addr)) = false) →
            s.admitReq src p = s.lodgeCheck src p)))

/-- RSIG at its target: the update, and the completion; refused MALFORMED or DENIED otherwise. CPL and CPL_D are taken from the head
of their VC. -/
def Obligations.SignalsAndCompletions : Prop :=
  (∀ (src : SrcId) (p : Pkt) (s : State), s.admits = true → s.headOf src.val (fun o => o == 0x82) = some p →
    ((s.consume src.val p).orderCheck src.val p).1 = .pass →
    let c := ((s.consume src.val p).orderCheck src.val p).2
    let gated := src.val < 24 ∧ p.sqm ≠ 3 ∧ (p.vc = 4 ∨ p.vc = 7)
    let u := if gated then (c.toll src.val p).1 else c
    (gated → (c.toll src.val p).2 = false) →
    let o := bits (word64 p.data 0) 0 12
    (p.wellLaid = false → Does (.rsigPacket src) s (u.refuse p stMalformed)) ∧
    (∀ q, p.wellLaid = true → u.tagPart p.ptag = some q → u.syncOwned o q = true →
      Does (.rsigPacket src) s ((u.update o (bit (word64 p.data 0) 12) (word64 p.data 8)).reply p {} [])) ∧
    (∀ q, p.wellLaid = true → u.tagPart p.ptag = some q → u.syncOwned o q = false →
      Does (.rsigPacket src) s (u.refuse p stDenied)) ∧
    (p.wellLaid = true → u.tagPart p.ptag = none → Does (.rsigPacket src) s (u.refuse p stDenied))) ∧
  (∀ (src : SrcId) (p : Pkt) (s : State), s.admits = true →
    (s.headOf src.val (fun o => o == 0x60) = some p → Does (.cpl src) s ((s.consume src.val p).takeCpl p)) ∧
    (s.headOf src.val (fun o => o == 0x61) = some p → Does (.cplD src) s ((s.consume src.val p).takeCpl p)))

/-- Timers of requests and of the Innkeeper: an onward request whose completion is overdue is given up; a request goes again when its
backoff is over; an instruction's request times out; an epoch ends with a millisecond of milestone time; a placement's update of
its directory goes again. What frees NOTE and DIR entries: a note goes at the first tick of 4,096 ns at or after
its expiry; a DIR of a page that lodges here, with no pin, replica or placement, goes once its hold has ended. Every other entry
stays. That one command ends one epoch however many milliseconds have passed, that EPOCH goes back with a milestone time set back, and
the clock it runs on are the model's readings, in the log: 41 and 136. The model's own choices in this are in the log: 31, 32, 41,
136. -/
def Obligations.RequestTimers : Prop :=
  ((∀ (i : Fin 512) (dt : Nat) (e : Onward) (s : State), s.running = true → (s.onward.find? fun x => x.1 = i.val) = some (i.val, e) →
     e.sent = true → e.at5 + s.fabricTmo ≤ s.clk.core + 5 * dt →
     Does (.onwardTimeout i dt) s { s.passNs dt with onward := s.onward.filter fun x => decide (x.1 ≠ i.val) }) ∧
   (∀ (id dt t : Nat) (r : Req) (s : State), s.running = true → s.req id = some r → r.stage = .backoff t → t ≤ s.clk.core + 5 * dt →
     Does (.busyRetry id dt) s ((s.passNs dt).reissueReq r)) ∧
   (∀ (id dt t q n : Nat) (r : Req) (s : State), s.running = true → s.req id = some r → r.who = .insn q n → r.firstAt = some t →
     r.timedOut = false → r.stage ≠ .landing → t + s.fabricTmo ≤ s.clk.core + 5 * dt →
     Does (.stewardRequestTimeout id dt) s ((s.passNs dt).timeOutReq r)) ∧
   (∀ (dt : Nat) (s : State), s.admits = true →
     (s.inn.epoch < (s.passNs dt).msIndex →
       Does (.innkeeperEpoch dt) s (State.epochEnd { s.passNs dt with inn := { s.inn with epoch := (s.passNs dt).msIndex } })) ∧
     ((s.passNs dt).msIndex ≤ s.inn.epoch →
       Does (.innkeeperEpoch dt) s { s.passNs dt with inn := { s.inn with epoch := (s.passNs dt).msIndex } })) ∧
   (∀ (dt : Nat) (s : State), s.running = true → Does (.noteExpiry dt) s (s.passNs dt).freeNotes) ∧
   (∀ (dt : Nat) (s : State), s.running = true → Does (.dirHoldEnd dt) s (s.passNs dt).freeDirs) ∧
   (∀ (id dt t : Nat) (l : Placement) (s : State), s.admits = true → (s.inn.placements.find? fun l => l.id = id) = some l →
     l.retryAt = some t → t ≤ s.clk.core + 5 * dt →
     Does (.plDirRetry id dt) s
       (((s.passNs dt).modPl id fun l => { l with retryAt := none }).sendPl (.placement id 0xC5) 0xC5 l.key 0
         (BitVec.ofNat 11 (s.hashChip l.key)) (plData (plWith l.word (if l.phase = .cancelling then kCancel else plKind l.word)))))) ∧
  ((∀ (dt : Nat) (s : State) (x : Nat × Lodge), s.running = true → ∃ u, Does (.noteExpiry dt) s u ∧
     (x ∈ u.inn.lodge ↔ x ∈ s.inn.lodge ∧ ¬ (x.2.kind = kNote ∧ (x.2.until_ + 4095) / 4096 * 4096 ≤ (s.passNs dt).now.toNat)) ∧
     u.inn.placements = s.inn.placements ∧ u.queues = s.queues) ∧
   (∀ (dt : Nat) (s : State) (x : Nat × Lodge), s.running = true → ∃ u, Does (.dirHoldEnd dt) s u ∧
     (x ∈ u.inn.lodge ↔ x ∈ s.inn.lodge ∧ ¬ (x.2.kind = kDir ∧ x.2.chip = s.chip ∧ x.2.repl = [] ∧ x.2.pin = false ∧ x.2.busy = false ∧
       x.2.until_ ≤ (s.passNs dt).now.toNat)) ∧ u.inn.placements = s.inn.placements ∧ u.queues = s.queues))

/-- The placement packets are taken from the head of VC6, each by its opcode, and so is an OB_WRITE; a PL_OPEN waits while an
accepted innkeeper's table that moves a pool, or takes RO from its segment, is not in force yet. Collective packets: one of a
valid group, its GEN, tag and sender right and its slot open is taken; any other is discarded and counted where R333 says. Sip
packets: one for this chip, of a valid tree, with its GEN and from its neighbour, acts by its opcode; any other is counted and
discarded. What some of them do: PL_OPEN that is granted makes a BUSY entry with a free frame, PL_COMMIT clears its BUSY and PL_DROP
frees it, and no other entry changes; the data of a part counts in its contribution and goes to its staging; an operand of a sip
operation this member has not begun waits at its child's place; a slow-member notice moves the group's deadline. That a PL_COMMIT with
no BUSY entry is refused BADADDR, that a PL_DROP frees a committed entry too, and that a PL_OPEN waits for a commit are the model's
reading of the rules, in the log: 37, 143 and 44. The model's other choices in this are in the log: 91, 111. -/
def Obligations.PacketRows : Prop :=
  (∀ (src : SrcId) (s : State), s.admits = true →
     ∀ e ∈ [(Instr.plAsk src, 0xC0, fun p u => State.ask u p), (.plMove src, 0xC1, fun p u => State.plMove u p),
       (.plOpen src, 0xC2, fun p u => State.plOpen u p), (.plData src, 0xC3, fun p u => State.plDataRx u p),
       (.plCommit src, 0xC4, fun p u => State.plCommit u p), (.plDir src, 0xC5, fun p u => State.plDir u p),
       (.plDrop src, 0xC6, fun p u => State.plDrop u p), (.obWrite src, 0xC8, fun p u => State.obRx u p)],
     ∀ p, s.headOf src.val (fun o => o == e.2.1) = some p → (e.2.1 = 0xC2 → s.openHeld src.val = false) →
       Does e.1 s (e.2.2 p (s.consume src.val p))) ∧
  (∀ (src : SrcId) (s : State), s.openHeld src.val = true → Does (.plOpen src) s s) ∧
  (∀ (src : SrcId) (s : State), s.admits = true →
     ∀ e ∈ [(Instr.clBrd src, 0xA0, (fun _ => false), fun p u => State.clData u p false),
       (.clRing src, 0xA1, (fun _ => true), fun p u => State.clData u p true),
       (.clDone src, 0xA2, (fun p => bit (word64 p.data 0) 33), fun p u => State.clDoneRx u p),
       (.clReady src, 0xA3, (fun p => bit p.tag 0), fun p u => State.clReadyRx u p)],
     ∀ p, s.headOf src.val (fun o => decide (o = e.2.1 ∨ o + 0x60 = e.2.1)) = some p →
       ((s.consume src.val p).clRefuse p (e.2.2.1 p) e.2.1 = none → Does e.1 s (e.2.2.2 p (s.consume src.val p))) ∧
       (∀ f, (s.consume src.val p).clRefuse p (e.2.2.1 p) e.2.1 = some f → Does e.1 s ((s.consume src.val p).modSmv f))) ∧
  (∀ (src : SrcId) (s : State), s.running = true →
     ∀ e ∈ [(Instr.sipRed src, 1, fun p u => State.sipOpRx u p), (.sipBar src, 2, fun p u => State.sipOpRx u p),
       (.sipScale src, 3, fun p u => State.sipOpRx u p), (.sipAbort src, 4, fun p u => State.sipAbortRx u p),
       (.sipSlow src, 5, fun p u => State.sipSlowRx u p), (.sipTime src, 6, fun p u => State.sipTimeRx u p)],
     ∀ p, s.headOf src.val (fun o => decide (o = e.2.1)) = some p →
       let u := s.consume src.val p
       (u.sipRefuse p = none → ¬ (tRelay u.sipTab (sipGroup p) = true ∧ p.tag.extractLsb' 8 4 ≠ u.sipGen (sipGroup p)) →
         Does e.1 s (e.2.2 p u)) ∧
       (u.sipRefuse p = none → tRelay u.sipTab (sipGroup p) = true ∧ p.tag.extractLsb' 8 4 ≠ u.sipGen (sipGroup p) →
         Does e.1 s (e.2.2 p (u.modGrp (sipGroup p) fun d => { d with relayGen := p.tag.extractLsb' 8 4, arr := [], relayUp := none }))) ∧
       (∀ f, u.sipRefuse p = some f →
         Does e.1 s ((u.modSmv f).count 9 1 (sipGroup p) none))) ∧
  (∀ (p : Pkt) (s : State), s.plCheck p true = stOk →
     let k := pageKey p.addr
     let w := word64 p.data 0
     (∀ f, s.comesHome k w = false → s.overQuota k = false → s.canMake (plEntry w) k = vGranted → s.freeFrame (plSpad w) = some f →
       plSpad w = true ∨ s.pins.hot = 0 → (plEntry w = kGuest → s.ownMove k = none) →
       ∃ (u : State) (i : Nat), s.plOpen p = u.reply p {} (leBytes 8 vGranted) ∧
         (s.lodgeIdx (plEntry w) k = some i ∨ s.lodgeIdx (plEntry w) k = none ∧ i / 8 = lodgeSet k ∧ (s.lodgeAt i).kind = 0) ∧
         (u.lodgeAt i).kind = plEntry w ∧ (u.lodgeAt i).key = k ∧ (u.lodgeAt i).busy = true ∧ (u.lodgeAt i).spad = plSpad w ∧
         (u.lodgeAt i).frame = BitVec.ofNat 20 f ∧ (∀ j, j ≠ i → u.lodgeAt j = s.lodgeAt j) ∧ u.reqs = s.reqs ∧ u.queues = s.queues) ∧
     (s.comesHome k w = false → (plEntry w = kGuest → s.ownMove k = none) →
       (∀ i, s.lodgeIdx (plEntry w) k = some i → (s.lodgeAt i).busy = true →
         ∃ u : State, s.plCommit p = u.reply p {} [] ∧ u.lodgeAt i = { s.lodgeAt i with busy := false } ∧
           (∀ j, j ≠ i → u.lodgeAt j = s.lodgeAt j) ∧ u.reqs = s.reqs ∧ u.queues = s.queues) ∧
       ((∀ i, s.lodgeIdx (plEntry w) k = some i → (s.lodgeAt i).busy = false) → s.plCommit p = s.refuse p stBadaddr)) ∧
     (∀ kind, kind = kReplica ∧ (isReplKind (plKind w) = true ∨ plKind w = kUnrepl) ∨
         kind = kGuest ∧ isReplKind (plKind w) = false ∧ plKind w ≠ kUnrepl ∧ p.src ≠ s.chip ∧ s.comesHome k w = false →
       ∃ u : State, s.plDrop p = u.reply p {} [] ∧ (∀ i, u.lodgeAt i = if s.lodgeIdx kind k = some i then {} else s.lodgeAt i) ∧
         u.reqs = s.reqs ∧ u.queues = s.queues)) ∧
  (∀ (p : Pkt) (w : Work) (s : State), s.work_ (clGroup p) (clChunk p) = some w → (w.k.brd.get {} (clSub p)).done = none →
     let b := slice p.data 0 (min p.data.length ((w.part (if w.c.agt then clSub p else w.col)).2 - clOfs p))
     let more := fun (c : Contrib) => { c with bytes := c.bytes + p.data.length }
     s.clData p false = (s.modSlot (clGroup p) (clChunk p) fun x =>
         { x with wr := x.wr + 1, brd := x.brd.put {} (clSub p) (more (x.brd.get {} (clSub p))) }).startJob
       (.smv (clGroup p) (clChunk p) .stage 0) [] (if b = [] then [] else [(regionB w.t (clGroup p) w.k w.col (clSub p) + clOfs p, b)])) ∧
  (∀ (p : Pkt) (i : Nat) (s : State), sipDown p = false → s.childIdx (sipGroup p) p.src.toNat = some i →
     tRelay s.sipTab (sipGroup p) = false → (s.grp (sipGroup p)).sipOp = none →
     s.sipOpRx p = s.setGrp (sipGroup p) { s.grp (sipGroup p) with
       arr := Tab.insert (s.grp (sipGroup p)).arr i { op := p.op, ctl := sipCtl p, seq := sipSeqOf p, data := sipData p } }) ∧
  (∀ (p : Pkt) (s : State), let u := s.sipSlowRx p
     (u.grp (sipGroup p)).limit = (s.grp (sipGroup p)).limit.map (fun t =>
       min (max (t + s.stall) (s.clk.core + ms5 100)) (max (s.clk.core + 4 * s.stall) (s.clk.core + ms5 100))) ∧
     (∀ g, g ≠ sipGroup p → u.grp g = s.grp g) ∧ u.queues = s.queues)

/-- SMV_GCTL and the stall deadline: PARK makes a RUNNING group PARKING, which is PARKED once nothing of it is in flight; RESUME
makes a PARKED group WAITING; neither has an effect on a group in another state; ABORT aborts it; the deadline aborts it with cause STALL, or PARK when it is parked. The
measurement of milestone time: GO at the tree's root takes the time of OBS_MS_SET; elsewhere samples begin; it is refused in a
measurement, with no tree, and while a segment is valid. A sample that is not answered in time is given up. The
model's own choices in this are in the log: 68, 81, 92. -/
def Obligations.GroupsAndMilestone : Prop :=
  (∀ (g : GroupId) (s : State),
     (Open s → (s.grp g.val).st = .running → Answers (.park g) s (s.setGrp g.val { s.grp g.val with st := .parking })) ∧
     (s.running = true → (s.grp g.val).st = .parking → s.groupQuiet g.val = true → Does (.groupParked g) s (s.parkGroup g.val)) ∧
     (s.running = true → (s.grp g.val).st = .parking → s.groupQuiet g.val = false → Does (.groupParked g) s s) ∧
     (Open s → (s.grp g.val).st = .parked →
       Answers (.resume g) s { s.setGrp g.val { s.grp g.val with st := .waiting, since := s.nextId } with nextId := s.nextId + 1 }) ∧
     (Open s → (s.grp g.val).st ≠ .parked → Answers (.resume g) s s) ∧
     (Open s → (s.grp g.val).st ≠ .running → Answers (.park g) s s) ∧
     (Open s → Answers (.abort g) s (s.abortGroup g.val causeDriver)) ∧
     (∀ dt t, s.running = true → (s.grp g.val).limit = some t → t ≤ s.clk.core + 5 * dt →
       Does (.stallDeadline g dt) s
         ((s.passNs dt).abortGroup g.val (if (s.grp g.val).st = .parked then causePark else causeStall))) ∧
     (∀ dt t, s.running = true → (s.grp g.val).limit = some t → s.clk.core + 5 * dt < t → Does (.stallDeadline g dt) s (s.passNs dt))) ∧
  ((∀ s : State, Open s → s.msRefused = true → Answers .msGo s { s with obs := { s.obs with ms := { s.obs.ms with rej := true } } }) ∧
   (∀ s : State, Open s → s.msRefused = false → tRoot s.sipTab s.msGroup = true →
     ∃ u, Answers .msGo s u ∧ u.nowInt = (s.reg 0x20120).toNat ∧
       u.obs.ms = { s.obs.ms with valid := true, root := true, rej := false, fail := false } ∧ u.links = s.links ∧ u.queues = s.queues) ∧
   (∀ s : State, Open s → s.msRefused = false → tRoot s.sipTab s.msGroup = false →
     Answers .msGo s (State.msTry { s with obs := { s.obs with ms :=
       { s.obs.ms with busy := true, root := false, rej := false, fail := false, good := 0, tries := 0, best := none } } })) ∧
   (∀ (dt : Nat) (s : State), s.running = true → s.obs.ms.busy = true → s.obs.ms.asking = true → s.obs.ms.waitAt ≤ s.clk.core + 5 * dt →
     Does (.msSampleTimeout dt) s { s.passNs dt with obs := { s.obs with ms :=
       { s.obs.ms with asking := false, waitAt := s.clk.core + 5 * dt + us5 10 } } }) ∧
   (∀ (dt : Nat) (s : State), s.running = true → s.obs.ms.busy = true → s.obs.ms.asking = false → s.obs.ms.waitAt ≤ s.clk.core + 5 * dt →
     Does (.msSampleTimeout dt) s (s.passNs dt).msTry))

/-- Counters: a write of OBS_CSELn starts the count and its view at zero; a preset is the count; at a millisecond boundary of milestone
time, and at no other moment, views take every count rounded down
to a multiple of 4,096. The trace: EN starts recording with an empty buffer, and stays 0 with SPILL_EN 1 and
SIZE_4K 0; the oldest record of the capture FIFO goes to the
next place of the buffer; an 8-byte read of OBS_TRACE_DATA answers the word at WORD and moves WORD on. The
model's own choices in this are in the log: 83, 87, 88. -/
def Obligations.CountersAndTrace : Prop :=
  ((∀ (n : Fin 512) (v : Word) (s : State), Open s → ∃ u, Answers (.counterSelectWrite n v) s u ∧ u.obs.cnt.get 0 n.val = 0 ∧
     u.obs.view.get 0 n.val = 0 ∧ u.obs.csel.get 0 n.val = v &&& 0xFE1FFFFF000000FF ∧
     (∀ m, m ≠ n.val → u.obs.cnt.get 0 m = s.obs.cnt.get 0 m ∧ u.obs.csel.get 0 m = s.obs.csel.get 0 m) ∧ u.win = s.win ∧ u.links = s.links) ∧
   (∀ (n : Fin 512) (v : Word) (s : State), Open s → (∀ k, (s.trigger k).en = false) → ∃ u, Answers (.counterPreset n v) s u ∧
     u.obs.cnt.get 0 n.val = v ∧ (∀ m, m ≠ n.val → u.obs.cnt.get 0 m = s.obs.cnt.get 0 m) ∧ u.obs.csel = s.obs.csel ∧
     u.links = s.links ∧ u.queues = s.queues) ∧
   (∀ (dt : Nat) (s : State), ∃ t, exec (.counterViewSnapshot dt) s = .next t ∧ t.obs.cnt = s.obs.cnt ∧
     (s.obs.viewAt < (s.passNs dt).msIndex →
       (∀ e ∈ t.obs.view, ∃ c, (e.1, c) ∈ s.obs.cnt ∧ e.2.toNat = c.toNat / 4096 * 4096 ∧ e.2 ≠ 0) ∧
       (∀ e ∈ s.obs.cnt, 4096 ≤ e.2.toNat → (e.1, BitVec.ofNat 64 (e.2.toNat / 4096 * 4096)) ∈ t.obs.view)) ∧
     ((s.passNs dt).msIndex ≤ s.obs.viewAt → t.obs.view = s.obs.view) ∧ t.links = s.links)) ∧
  ((∀ s : State, Open s → bit s.traceCtl 60 = true → bits (s.reg 0x20028) 0 29 = 0 → ∃ u, Answers .traceEnable s u ∧
     bit u.traceCtl 63 = false ∧ (∀ i, i < 63 → bit u.traceCtl i = bit s.traceCtl i) ∧
     u.obs.trace = { s.obs.trace with recording := false, fifo := [] } ∧ u.jobs = s.jobs ∧ u.queues = s.queues ∧ u.links = s.links) ∧
   (∀ s : State, Open s → bit s.traceCtl 63 = true → bit s.traceCtl 60 = false ∨ bits (s.reg 0x20028) 0 29 ≠ 0 →
     Answers .traceEnable s (s.setReg 0x20010 (s.traceCtl ||| 0x8000000000000000))) ∧
   (∀ s : State, Open s → bit s.traceCtl 63 = false → bit s.traceCtl 60 = false ∨ bits (s.reg 0x20028) 0 29 ≠ 0 →
     Answers .traceEnable s
       ((s.setReg 0x20010 (s.traceCtl ||| 0x8000000000000000)).setTrace
         { recording := true, held := s.obs.trace.held, seq := s.obs.trace.seq, staged := s.obs.trace.staged, lost := s.obs.trace.lost
           tallied := s.obs.trace.tallied })) ∧
   (∀ (s : State) (r : Rec) (l : List Rec), s.running = true → s.obs.trace.fifo = r :: l → s.obs.trace.recording = true → s.spillEn = false →
     s.obs.curfew.on = false →
     ∃ u, Does .traceRecordTake s u ∧ u.obs.trace.buf.get [] s.obs.trace.next = r.words ∧
       (s.traceSrc 1 = false → u.obs.trace.fifo = if u.obs.trace.recording then l else []) ∧
       u.jobs = s.jobs ∧ u.queues = s.queues ∧ u.links = s.links) ∧
   (∀ s : State, Port s →
     exec .traceDataRead s =
       .next ((s.setReg 0x20030 (BitVec.ofNat 64 ((bits (s.reg 0x20030) 0 19 + 1) % 2 ^ 19))).mgReply
           (s.traceWord (bits (s.reg 0x20030) 0 19)) mgOk)))

/-- Triggers: FIRE fires the unit, outside curfew; with time, the armed units fire whose time has come. Exports fall due by their
period. The end of a 10 ms window of milestone time gives its mean in units of 5 W; before it nothing changes. The model's own choices in this are in the log: 80, 82, 90, 100. -/
def Obligations.TriggersAndWindows : Prop :=
  (∀ (k : Fin 8) (s : State), Open s → Answers (.fire k) s (s.fireUnit k.val)) ∧
  (∀ (dt : Nat) (s : State),
    Does (.triggerTime dt) s ((s.passNs dt).fireWhere fun t => decide (t.kind = 5) && decide (t.value ≤ (s.passNs dt).now))) ∧
  (∀ (dt : Nat) (s : State), s.running = true → bit (s.reg 0x20048) 63 = true →
    s.obs.exportAt + ms5 (max 1 (bits (s.reg 0x20048) 0 16)) ≤ (s.passNs dt).clk.ms →
    Does (.counterExport dt) s
      (State.export_ { s.passNs dt with obs := { s.obs with exportAt := s.obs.exportAt + ms5 (max 1 (bits (s.reg 0x20048) 0 16)) } })) ∧
  (∀ (watts dt : Nat) (s : State), let m := (s.passNs dt).msIndex / 10
    (s.obs.powerAt < m → exec (.powerWindow watts dt) s =
      .next { s.passNs dt with obs := { s.obs with powerAt := m, watts := BitVec.ofNat 8 (min 255 (watts / 5)) } }) ∧
    (m ≤ s.obs.powerAt → exec (.powerWindow watts dt) s = .next { s.passNs dt with obs := { s.obs with powerAt := m } }))

/-- Firing a unit sets FIRED and clears EN of that unit, offers its TRIGGER record, which the capture FIFO takes where the trace
records and has room, and enters curfew where the unit says so. No other unit
changes. Entering curfew: CURFEW_OUT, the cause, origin, SERIAL and milestone time; and, outside the safe state, four entry
blocks on every link that is not DOWN and whose blocks leave. In curfew nothing is entered again. No queue, lane, register or partition changes. -/
def Obligations.CurfewAndTriggers : Prop :=
  (∀ (k : Fin 8) (s : State), ((s.fireUnit k.val).trigger k.val).fired = true ∧ ((s.fireUnit k.val).trigger k.val).en = false ∧
     (∀ j, j ≠ k.val → (s.fireUnit k.val).trigger j = s.trigger j) ∧
     ((s.trigger k.val).curfew = true → (s.fireUnit k.val).obs.curfew.on = true) ∧
     (s.obs.curfew.on = false → s.obs.trace.recording = true → s.obs.trace.fifo.length < 63 →
       ∃ r ∈ (s.fireUnit k.val).obs.trace.fifo, r.type_ = 5 ∧ r.unit_ = 0xD ∧ r.inst = 0 ∧ r.aux.toNat = k.val ∧ r.time = s.now ∧
         r.pay = leBytes 8 (s.trigger k.val).value.toNat ∧ r.act = (s.trigger k.val).trace) ∧
     (s.fireUnit k.val).queues = s.queues ∧ (s.fireUnit k.val).fc = s.fc ∧ (s.fireUnit k.val).links = s.links ∧
     (s.fireUnit k.val).parts = s.parts) ∧
  (∀ (cause link : Nat) (origin : BitVec 11) (serial : BitVec 32) (s : State),
     (s.obs.curfew.on = true → s.enterCurfew cause link origin serial = s) ∧
     (s.obs.curfew.on = false →
       (s.enterCurfew cause link origin serial).obs.curfew =
         { s.obs.curfew with on := true, cause := BitVec.ofNat 3 cause, link := BitVec.ofNat 5 link, origin := origin, serial := serial
                             time := s.now, entries := satAdd s.obs.curfew.entries 1 } ∧
       (s.enterCurfew cause link origin serial).pins = { s.pins with curfewOut := true } ∧
       (s.fc.safe = false → (s.enterCurfew cause link origin serial).sent =
         s.sent ++ (s.upLinks.filter s.linkSends).flatMap fun n => List.replicate 4 (.control n (curfewBlock 0 origin serial))) ∧
       (s.fc.safe = true → (s.enterCurfew cause link origin serial).sent = s.sent) ∧
       (s.enterCurfew cause link origin serial).queues = s.queues ∧ (s.enterCurfew cause link origin serial).lanes = s.lanes ∧
       (s.enterCurfew cause link origin serial).links = s.links ∧ (s.enterCurfew cause link origin serial).win = s.win ∧
       (s.enterCurfew cause link origin serial).parts = s.parts))

/-- The causes of curfew of this block: its own GO, CURFEW_IN, an armed entry whose time has come, and a CURFEW packet with the tag
of P0, which arms one. A packet with another tag is counted. Resume: RESUME of the management port resumes a curfew; in the safe state
with nothing held it only ends it; the end of a link's wait for the far end lets the link go on. The model's own choices in this are in the log: 65, 67. -/
def Obligations.CurfewEntriesAndEnds : Prop :=
  ((∀ s : State, Port s → Answers .enter s (s.enterCurfew 1 0 s.chip (s.obs.curfew.serial + 1))) ∧
   (∀ s : State, exec .curfewIn s = .next (s.enterCurfew 2 0 s.chip (s.obs.curfew.serial + 1))) ∧
   (∀ (dt : Nat) (s : State), bit (s.reg 0x20218) 63 = true → bits (s.reg 0x20218) 0 63 ≤ (s.passNs dt).now.toNat → s.obs.curfew.on = false →
     exec (.curfewTimed dt) s =
       .next (((s.passNs dt).enterCurfew 5 0 s.chip (s.obs.curfew.serial + 1)).setReg 0x20218 (s.reg 0x20218 &&& 0x7FFFFFFFFFFFFFFF))) ∧
   (∀ (src : SrcId) (p : Pkt) (s : State), s.running = true →
     (s.inboxOf src.val).find? (fun q => decide (q.op.toNat = 0x24 ∧ q.dst = s.chip)) = some p →
     (p.ptag = s.p0Tag →
       Does (.curfewPacket src) s (((s.consume src.val p).setReg 0x20218 (word64 p.data 0)).timedEntry)) ∧
     (p.ptag ≠ s.p0Tag → ∃ u, Does (.curfewPacket src) s u ∧
       u.obs.curfew = { s.obs.curfew with refused := satAdd s.obs.curfew.refused 1 } ∧ u.win = s.win))) ∧
  ((∀ s : State, Port s → s.obs.curfew.on = true → Answers .curfewResume s s.resume) ∧
   (∀ s : State, Port s → s.obs.curfew.on = false → Answers .curfewResume s s) ∧
   (∀ s : State, s.obs.curfew.on = true → s.obs.curfew.hold = [] → s.fc.safe = true →
     s.resume = { s with obs := { s.obs with curfew := { s.obs.curfew with on := false, hold := [] } }
                         pins := { s.pins with curfewOut := false } }) ∧
   (∀ (k : LinkId) (dt t : Nat) (s : State), s.running = true → (s.link k.val).ll.resumeWait = some t → t ≤ s.clk.up + 5 * dt →
     Does (.resumeWaitExpiry k dt) s ((s.passNs dt).linkResumed k.val)))

/-- Scan-out: START and SEEK set the position; a read in curfew or in the safe state answers the word at the position and moves it
on, and 0 otherwise. The TAP has a position of its own: each of its rows loads the code of its instruction and scans its data
register, through which nothing passes while the TCK crossing is in reset. A word of a lane's counts shows them at the present. The
exerciser of a bench part: GO takes the link, the frame, the copies
and the gap, for a link that carries frames and while no injection runs, and sets REJ otherwise: while one runs, for a link above 23,
and for one that carries no frames; a production part does nothing.
The model's own choices in this are in the log: 59, 94, 96, 97, 150. -/
def Obligations.ScanAndBench : Prop :=
  ((∀ s : State, Port s → Answers .scanStart s { s with obs := { s.obs with scan := {} } }) ∧
   (∀ (sect num : BitVec 16) (s : State), Port s → ∃ u, Answers (.seek sect num) s u ∧
     u.obs.scan = { sect := sect.toNat, inst := num.toNat } ∧ u.links = s.links ∧ u.queues = s.queues ∧ u.obs.tap = s.obs.tap) ∧
   (∀ s : State, Port s → s.obs.curfew.on = true ∨ s.fc.safe = true →
     exec .scanDataRead s =
       .next (let u := s.scanSettle s.obs.scan
         State.mgReply { u with obs := { u.obs with scan := u.scanStep u.obs.scan } } (u.scanAt u.obs.scan) mgOk)) ∧
   (∀ (p : ScanPos) (s : State), p.ended = true ∨ p.sect ≠ 0x30 ∨ p.word < 2 → s.scanSettle p = s) ∧
   (∀ s : State, Port s → s.obs.curfew.on = false → s.fc.safe = false → exec .scanDataRead s = .next (s.mgReply 0 mgOk)) ∧
   (∀ (w : BitVec 64) (s : State), (s.xings.get {} (xingKey .tck)).inReset = true →
     exec (.scansel w) s = .next { s with obs := { s.obs with tapIr := 8, tapIdle := true, tapDr := w } } ∧
     ∃ t, exec .scanout s = .next t ∧ t.obs.tap = s.obs.tap ∧ t.sent = s.sent ++ [.tdo s.obs.tapDr]) ∧
   (∀ (w : BitVec 64) (s : State), (s.xings.get {} (xingKey .tck)).inReset = false → exec (.scansel w) s = .next { s with obs := { s.obs with
     tapIr := 8, tapIdle := true, tapDr := w, tap := (if bit w 63 then {} else if bit w 62 then { sect := bits w 16 16, inst := bits w 0 16 } else s.obs.tap) } }) ∧
   (∀ s : State, (s.xings.get {} (xingKey .tck)).inReset = false → s.obs.curfew.on = true ∨ s.fc.safe = true →
     s.obs.tap.ended = true ∨ s.obs.tap.sect ≠ 0x30 ∨ s.obs.tap.word < 2 →
     ∃ t, exec .scanout s = .next t ∧ t.obs.tapIr = 9 ∧ t.obs.tapIdle = true ∧ t.obs.scan = s.obs.scan ∧
     t.obs.tap = s.scanStep s.obs.tap ∧ t.sent = s.sent ++ [.tdo (s.scanAt s.obs.tap)] ∧ t.queues = s.queues) ∧
   (∀ s : State, (s.xings.get {} (xingKey .tck)).inReset = false → s.obs.curfew.on = true ∨ s.fc.safe = true →
     let u := (s.tapLoad 9).scanSettle s.obs.tap
     ∃ t, exec .scanout s = .next t ∧ t.obs.tap = u.scanStep s.obs.tap ∧ t.sent = u.sent ++ [.tdo (u.scanAt s.obs.tap)]) ∧
   (∀ s : State, (s.xings.get {} (xingKey .tck)).inReset = false → s.obs.curfew.on = false → s.fc.safe = false → ∃ t, exec .scanout s = .next t ∧ t.obs.tap = s.obs.tap ∧
     t.sent = s.sent ++ [.tdo 0]) ∧
   (∀ s : State, exec .trstN s = .next { s with obs := { s.obs with tapIr := 15, tapIdle := false } })) ∧
  ((∀ s : State, Open s → s.fuses.bench = true → s.obs.bench.busy = false → bits (s.reg 0x24000) 51 5 < 24 →
     s.carriesFrames (bits (s.reg 0x24000) 51 5) = true →
     ∃ u, Answers .benchInject s u ∧ u.obs.bench.busy = true ∧ u.obs.bench.rej = false ∧ u.obs.bench.link = bits (s.reg 0x24000) 51 5 ∧
       u.obs.bench.frame = { bytes := wordsBytes ((List.range 32).map fun b => s.reg (0x24100 + 8 * b))
                             ctl := (s.reg 0x24000).extractLsb' 0 32, bad := (s.reg 0x24008).extractLsb' 32 32
                             chk := bit (s.reg 0x24000) 49 } ∧
       u.obs.bench.rawSeq = bit (s.reg 0x24000) 50 ∧ u.obs.bench.left = 1 + bits (s.reg 0x24008) 16 16 ∧
       u.obs.bench.gap = bits (s.reg 0x24008) 0 16 ∧ u.links = s.links ∧ u.queues = s.queues) ∧
   (∀ s : State, Open s → s.fuses.bench = true →
     s.obs.bench.busy = true ∨ 24 ≤ bits (s.reg 0x24000) 51 5 ∨ s.carriesFrames (bits (s.reg 0x24000) 51 5) = false →
     ∃ u, Answers .benchInject s u ∧ u.obs.bench = { s.obs.bench with rej := true } ∧ u.links = s.links) ∧
   (∀ s : State, Open s → s.fuses.bench = false → Answers .benchInject s s))

/-- Every command ends in a next state, whatever the state; none touches the commands that wait behind it, and none the fuse shadow
but a cold reset, which reads the fuses again (R57). The model's own choices in this are in the log: 8. -/
def Obligations.CommandsEnd : Prop :=
  ∀ (c : Instr) (s : State), ∃ t, exec c s = .next t ∧ t.pending = s.pending ∧
    ((∀ tm, c ≠ .coldReset tm) → t.fuses = s.fuses) ∧ ((∃ tm, c = .coldReset tm) → t.fuses = State.reset.fuses)

/-- Every step of the block keeps tenancy: P0 valid, and no two valid partitions with one tag (R383). -/
def Obligations.TenancyKept : Prop :=
  ∀ s t : State, Tenancy s → step s = .next t → Tenancy t

/-- Tenancy holds right after reset (R383). -/
def Obligations.TenancyAtReset : Prop :=
  Tenancy State.reset

/-- The receiver reads from a frame's payload units exactly the packets whose bytes a sender packed into them, at most fifteen
units, with every header field at every value and every data byte. -/
def Obligations.PacketsReadBack : Prop :=
  ∀ (l : List Pkt) (pad : Bytes), (∀ p ∈ l, p.len.toNat ≤ 224 ∧ p.data.length = p.len.toNat) → (l.map Pkt.units).sum ≤ 15 →
    parsePkts 16 (l.flatMap Pkt.bytes ++ pad) (l.map Pkt.units).sum = (l, true)

end Statements
end

