-- ==== Sys2Proof/Laws/Events.lean ====
section
/-! SUPPORT. What the Gray-coded event counters of a crossing do (R80): advances add up, the difference the receiver takes is
what the sender sent, and both sides agree after a burst. -/

namespace Sys2Proof.Machine

/-- Reading a Gray code back gives the number that was coded. -/
theorem unGray_gray (k : BitVec 8) : unGray (k ^^^ (k >>> 1)) = k := by
  revert k; decide

theorem unGray_grayAdd (g : BitVec 8) (n : Nat) : unGray (grayAdd g n) = unGray g + BitVec.ofNat 8 n := unGray_gray _

/-- Two advances are one by the sum. -/
theorem grayAdd_grayAdd (g : BitVec 8) (a b : Nat) : grayAdd (grayAdd g a) b = grayAdd g (a + b) := by
  have h : unGray g + BitVec.ofNat 8 a + BitVec.ofNat 8 b = unGray g + BitVec.ofNat 8 (a + b) := by
    rw [BitVec.add_assoc, ← BitVec.ofNat_add]
  simp only [grayAdd, unGray_gray, h]

/-- What the receiver takes after `n` events since its last sample, the most that 8 bits tell apart being 255. -/
theorem EventCtr.due_after (g : BitVec 8) (n : Nat) (h : n < 256) : EventCtr.due { sent := grayAdd g n, taken := g } = n := by
  have e : unGray g + BitVec.ofNat 8 n - unGray g = BitVec.ofNat 8 n := by rw [BitVec.add_comm, BitVec.add_sub_cancel]
  simp only [EventCtr.due, unGray_grayAdd, e, BitVec.toNat_ofNat]
  exact Nat.mod_eq_of_lt h

/-- After a burst the receiver has taken everything. -/
theorem EventCtr.due_burst (c : EventCtr) (n : Nat) : (c.burst n).due = 0 := by
  simp [EventCtr.due, EventCtr.burst]

end Sys2Proof.Machine
end

