-- ==== Sys2Proof/Laws/Gates.lean ====
section
/-! SUPPORT. What the shared gates of the commands come to, one lemma per gate and outcome: a management write, a packet row,
a control block, an instruction and its checks. -/

namespace Sys2Proof.Machine
open Sys2Proof.Safety

/-! ### The management port -/

theorem State.mgBeat_credit {s : State} (h : s.mgCmd ≠ 0) (k : State → State) : s.mgBeat k = k s := by
  unfold State.mgBeat
  exact if_neg h

theorem State.mgBeat_none {s : State} (h : s.mgCmd = 0) (k : State → State) : s.mgBeat k = (s.portProto mgXing).kick := by
  unfold State.mgBeat
  exact if_pos h

theorem State.mgWrite_booting {s : State} (h : s.mgmtOpen = false) (hc : s.mgCmd ≠ 0) (addr : Nat) (size8 : Bool) (data : Word) (act : State → State) :
    s.mgWrite addr size8 data act = s.mgReply 0 mgBooting := by
  unfold State.mgWrite
  rw [State.mgBeat_credit hc]
  simp [h]

theorem State.mgWrite_open {s : State} (h : Open s) (addr : Nat) (size8 : Bool) (data : Word) (act : State → State) :
    s.mgWrite addr size8 data act = ((act s).mgReply 0 mgOk).kick := by
  unfold State.mgWrite
  rw [State.mgBeat_credit h.1.2]
  simp [h.1.1, h.2]

theorem State.mgWrite_port {s : State} (h : Port s) {addr : Nat} {size8 : Bool} {data : Word} (ho : curfewOpen addr size8 data = true)
    (act : State → State) : s.mgWrite addr size8 data act = ((act s).mgReply 0 mgOk).kick := by
  unfold State.mgWrite
  rw [State.mgBeat_credit h.2]
  simp [h.1, ho]

theorem State.mgWrite_held {s : State} (h : Port s) (hc : s.obs.curfew.on = true) {addr : Nat} {size8 : Bool} {data : Word}
    (ho : curfewOpen addr size8 data = false) (act : State → State) :
    s.mgWrite addr size8 data act = ((s.holdWrite (BitVec.ofNat 26 addr) size8 data).mgReply 0 mgOk).kick := by
  unfold State.mgWrite
  rw [State.mgBeat_credit h.2]
  simp [h.1, hc, ho]

/-! ### Packets at the head of a virtual channel -/

theorem State.requestRow_head {s : State} (h : s.admits = true) {src : Nat} {ops : Nat → Bool} {p : Pkt} (hp : s.headOf src ops = some p) :
    s.requestRow src ops = s.arrive src p fun s => s.admitReq src p := by
  unfold State.requestRow
  simp [h, hp]

theorem State.plRow_head {s : State} (h : s.admits = true) {src op : Nat} {p : Pkt} (hp : s.headOf src (fun o => o == op) = some p)
    (act : Pkt → State → State) : s.plRow src op act = act p (s.consume src p) := by
  unfold State.plRow
  simp [h, hp]

theorem State.cplRow_head {s : State} (h : s.admits = true) {src op : Nat} {p : Pkt} (hp : s.headOf src (fun o => o == op) = some p) :
    s.cplRow src op = (s.consume src p).takeCpl p := by
  unfold State.cplRow
  simp [h, hp]

/-! ### Control blocks (R162) -/

theorem State.control_valid {ty : Nat} {w : Word} (h : blockValid ty w = true) (s : State) (k : Nat) (act : State → State) :
    s.control k ty w act = act s := by
  unfold State.control
  exact if_pos h

theorem State.control_malformed {ty : Nat} {w : Word} (h : blockValid ty w = false) (s : State) (k : Nat) (act : State → State) :
    s.control k ty w act = s.ctlMalf k := by
  unfold State.control
  exact if_neg (by simp [h])

/-! ### Instructions (R282) -/

theorem State.insnRow_run {s : State} {n q : Nat} {w : BitVec 128} (h : s.pick n = .run q w) (body : Nat → State → State) :
    s.insnRow n w body = body q (s.begin n q w) := by
  unfold State.insnRow
  rw [h]
  exact if_pos rfl

theorem State.legal_yes {c : Bool} (h : c = true) (s : State) (q : Nat) (k : State → State) : s.legal q c k = k s := by
  unfold State.legal
  exact if_pos h

theorem State.legal_no {c : Bool} (h : c = false) (s : State) (q : Nat) (k : State → State) :
    s.legal q c k = s.execFault q qfIllegal := by
  unfold State.legal
  exact if_neg (by simp [h])

theorem State.checked_ok {l : List Nat} (h : firstBad l = stOk) (s : State) (q : Nat) (k : State → State) : s.checked q l k = k s := by
  unfold State.checked
  exact if_pos h

theorem State.checked_bad {l : List Nat} {x : Nat} (h : firstBad l = x) (hx : x ≠ stOk) (s : State) (q : Nat) (k : State → State) :
    s.checked q l k = s.execFault q qfRequest x := by
  unfold State.checked
  rw [h]
  exact if_neg hx

theorem State.p0Only_p0 {s : State} {q : Nat} (h : (s.queue q).part = 0) (k : State → State) : s.p0Only q k = k s := by
  unfold State.p0Only
  exact if_pos h

theorem State.p0Only_other {s : State} {q : Nat} (h : (s.queue q).part ≠ 0) (k : State → State) :
    s.p0Only q k = s.execFault q qfPrivilege := by
  unfold State.p0Only
  exact if_neg h

theorem State.owned_yes {s : State} {q n : Nat} (h : s.syncOwned n (s.queue q).part = true) (hb : (s.sync n).bad = false)
    (k : State → State) : s.owned q n k = k s := by
  unfold State.owned
  simp [h, hb]

theorem State.owned_no {s : State} {q n : Nat} (h : s.syncOwned n (s.queue q).part = false) (k : State → State) :
    s.owned q n k = s.execFault q qfSyncOwner := by
  unfold State.owned
  simp [h]

end Sys2Proof.Machine
end

