-- ==== Sys2Proof/Laws/KeptCore.lean ====
section
/-! SUPPORT. What the shared operations keep: the queue of commands, the fuses and the partitions (`State.kept`), operation by operation; here faults, output, carrier jobs, the Porter and the link layer. -/

namespace Sys2Proof.Machine

set_option Elab.async false

/-- What few commands touch: the queue of commands, the fuses, the partitions. -/
def State.kept (s : State) : List Instr × Fuses × Tab Part := (s.pending, s.fuses, s.parts)
theorem kept_def (s : State) : s.kept = (s.pending, s.fuses, s.parts) := rfl

@[simp] theorem kept_ite (c : Prop) [Decidable c] (a b : State) : (if c then a else b).kept = if c then a.kept else b.kept := apply_ite _ _ _ _

@[simp] theorem kept_fold (s : State) : (s.pending, s.fuses, s.parts) = s.kept := rfl

theorem forEach_kept {α : Type} (l : List α) (f : α → State → State) (s : State) (h : ∀ a s, (f a s).kept = s.kept) : (forEach l f s).kept = s.kept := by
  induction l generalizing s with
  | nil => rfl
  | cons a l ih => exact (ih (f a s)).trans (h a s)

theorem kept_if {c : Prop} [Decidable c] {a b s : State} (ha : a.kept = s.kept) (hb : b.kept = s.kept) : (if c then a else b).kept = s.kept := by
  split <;> assumption

theorem foldl_kept {α : Type} (f : State → α → State) (l : List α) (s : State) (h : ∀ s a, (f s a).kept = s.kept) : (List.foldl f s l).kept = s.kept := by
  induction l generalizing s with
  | nil => rfl
  | cons a l ih => exact (ih (f s a)).trans (h s a)

@[simp] theorem State.kept_mk pending sent freeCtr clk boot fuses pins win xings eports cpCrd cpRx cpq cpOut jobs nextId mgCrd mgCmd mgQ lanes links lines own admitQ tables plan commit parts flows flowsIn reqs caches onward ptr gates schedUs schStat queues stws syncs inn groups smv sipLinks fmtStat fmtFlags sec fc obs : (State.mk pending sent freeCtr clk boot fuses pins win xings eports cpCrd cpRx cpq cpOut jobs nextId mgCrd mgCmd mgQ lanes links lines own admitQ tables plan commit parts flows flowsIn reqs caches onward ptr gates schedUs schStat queues stws syncs inn groups smv sipLinks fmtStat fmtFlags sec fc obs).kept = (pending, fuses, parts) := rfl

@[simp] theorem State.setLink_kept (s : State) (n : Nat) (l : Link) : (State.setLink s n l).kept = s.kept :=
  rfl

@[simp] theorem State.modLink_kept (s : State) (n : Nat) (f : Link → Link) : (State.modLink s n f).kept = s.kept :=
  rfl

@[simp] theorem State.modLL_kept (s : State) (n : Nat) (f : LL → LL) : (State.modLL s n f).kept = s.kept :=
  rfl

@[simp] theorem State.modTrain_kept (s : State) (n : Nat) (f : Train → Train) : (State.modTrain s n f).kept = s.kept :=
  rfl

@[simp] theorem State.modCnt_kept (s : State) (n : Nat) (f : LLCounts → LLCounts) : (State.modCnt s n f).kept = s.kept :=
  rfl

@[simp] theorem State.setLane_kept (s : State) (n : Nat) (l : Lane) : (State.setLane s n l).kept = s.kept :=
  rfl

@[simp] theorem State.modLane_kept (s : State) (n : Nat) (f : Lane → Lane) : (State.modLane s n f).kept = s.kept :=
  rfl

@[simp] theorem State.setEPort_kept (s : State) (n : Nat) (p : EPort) : (State.setEPort s n p).kept = s.kept :=
  rfl

@[simp] theorem State.modEPort_kept (s : State) (n : Nat) (f : EPort → EPort) : (State.modEPort s n f).kept = s.kept :=
  rfl

@[simp] theorem State.pass_kept (s : State) (d : Nat) : (State.pass s d).kept = s.kept :=
  rfl

@[simp] theorem State.passNs_kept (s : State) (dt : Nat) : (State.passNs s dt).kept = s.kept :=
  rfl

@[simp] theorem State.emit_kept (s : State) (e : Emit) : (State.emit s e).kept = s.kept :=
  rfl

@[simp] theorem State.emits_kept (s : State) (es : List Emit) : (State.emits s es).kept = s.kept :=
  rfl

@[simp] theorem State.drew_kept (s : State) : (State.drew s).kept = s.kept :=
  rfl

@[simp] theorem State.fresh_kept (s : State) : (State.fresh s).kept = s.kept :=
  rfl

@[simp] theorem State.setReg_kept (s : State) (a : Nat) (v : Word) : (State.setReg s a v).kept = s.kept :=
  rfl

@[simp] theorem State.crossKey_kept (s : State) (k : Nat) (ch : EvCh) (n : Nat) : (State.crossKey s k ch n).kept = s.kept := by
  unfold State.crossKey
  repeat' first
    | with_reducible rfl
    | assumption
    | with_reducible (refine (forEach_kept _ _ _ (fun _ _ => ?_)).trans ?_)
    | with_reducible (refine (foldl_kept _ _ _ (fun _ _ => ?_)).trans ?_)
    | with_reducible (refine kept_if ?_ ?_)
    | simp [↓State.kept_mk]
    | intro _
    | dsimp only
    | split

@[simp] theorem State.crossEvents_kept (s : State) (x : Nat) (ch : EvCh) (n : Nat) : (State.crossEvents s x ch n).kept = s.kept :=
  State.crossKey_kept s _ ch n

@[simp] theorem State.setTrace_kept (s : State) (t : Trace) : (State.setTrace s t).kept = s.kept :=
  rfl

@[simp] theorem State.bumpCnt_kept (s : State) (i n : Nat) : (State.bumpCnt s i n).kept = s.kept :=
  rfl

@[simp] theorem State.tallyCnt_kept (s : State) (event : Nat) : (State.tallyCnt s event).kept = s.kept := by
  unfold State.tallyCnt
  repeat' first
    | with_reducible rfl
    | assumption
    | with_reducible (refine (forEach_kept _ _ _ (fun _ _ => ?_)).trans ?_)
    | with_reducible (refine (foldl_kept _ _ _ (fun _ _ => ?_)).trans ?_)
    | with_reducible (refine kept_if ?_ ?_)
    | simp [↓State.kept_mk]
    | intro _
    | dsimp only
    | split

@[simp] theorem State.capture_kept (s : State) (r : Rec) : (State.capture s r).1.kept = s.kept := by
  simp only [State.capture]
  exact kept_if (by simp) (by simp)

@[simp] theorem State.tally_kept (s : State) (event : Nat) : (State.tally s event).kept = s.kept := by
  unfold State.tally
  repeat' first
    | with_reducible rfl
    | assumption
    | with_reducible (refine (forEach_kept _ _ _ (fun _ _ => ?_)).trans ?_)
    | with_reducible (refine (foldl_kept _ _ _ (fun _ _ => ?_)).trans ?_)
    | with_reducible (refine kept_if ?_ ?_)
    | simp [↓State.kept_mk]
    | intro _
    | dsimp only
    | split

@[simp] theorem State.putRec_kept (s : State) (r : Rec) : (State.putRec s r).kept = s.kept := 
  rfl

@[simp] theorem State.offer_kept (s : State) (r : Rec) : (State.offer s r).kept = s.kept := by
  unfold State.offer
  repeat' first
    | with_reducible rfl
    | assumption
    | with_reducible (refine (forEach_kept _ _ _ (fun _ _ => ?_)).trans ?_)
    | with_reducible (refine (foldl_kept _ _ _ (fun _ _ => ?_)).trans ?_)
    | with_reducible (refine kept_if ?_ ?_)
    | simp [↓State.kept_mk]
    | intro _
    | dsimp only
    | split

@[simp] theorem State.onLinks_kept (s : State) (n : Nat) (b : BitVec 64) : (State.onLinks s n b).kept = s.kept := by
  unfold State.onLinks
  repeat' first
    | with_reducible rfl
    | assumption
    | with_reducible (refine (forEach_kept _ _ _ (fun _ _ => ?_)).trans ?_)
    | with_reducible (refine (foldl_kept _ _ _ (fun _ _ => ?_)).trans ?_)
    | with_reducible (refine kept_if ?_ ?_)
    | simp [↓State.kept_mk]
    | intro _
    | dsimp only
    | split

@[simp] theorem State.curfewRec_kept (s : State) (aux : Nat) : (State.curfewRec s aux).kept = s.kept := by
  simp [State.curfewRec]

@[simp] theorem State.enterCurfew_kept (s : State) (cause link : Nat) (origin : BitVec 11) (serial : BitVec 32) : (State.enterCurfew s cause link origin serial).kept = s.kept := by
  simp [State.enterCurfew, ↓State.kept_mk]

@[simp] theorem State.enterCurfewOwn_kept (s : State) (cause : Nat) : (State.enterCurfewOwn s cause).kept = s.kept := by
  simp [State.enterCurfewOwn]

@[simp] theorem State.setTrigger_kept (s : State) (k : Nat) (t : Trig) : (State.setTrigger s k t).kept = s.kept :=
  rfl

@[simp] theorem State.fireUnit_kept (s : State) (k : Nat) : (State.fireUnit s k).kept = s.kept := by
  simp [State.fireUnit]

@[simp] theorem State.fireWhere_kept (s : State) (holds : Trig → Bool) : (State.fireWhere s holds).kept = s.kept := by
  unfold State.fireWhere; refine kept_if ?_ ?_ <;> simp

@[simp] theorem State.countStep_kept (s : State) (i n inst : Nat) (part : Option Nat) : (State.countStep s i n inst part).kept = s.kept := by
  unfold State.countStep
  repeat' first
    | with_reducible rfl
    | assumption
    | with_reducible (refine (forEach_kept _ _ _ (fun _ _ => ?_)).trans ?_)
    | with_reducible (refine (foldl_kept _ _ _ (fun _ _ => ?_)).trans ?_)
    | with_reducible (refine kept_if ?_ ?_)
    | simp [↓State.kept_mk]
    | intro _
    | dsimp only
    | split

@[simp] theorem State.countOne_kept (s : State) (i n inst : Nat) (part : Option Nat) : (State.countOne s i n inst part).kept = s.kept := by
  unfold State.countOne
  repeat' first
    | with_reducible rfl
    | assumption
    | with_reducible (refine (forEach_kept _ _ _ (fun _ _ => ?_)).trans ?_)
    | with_reducible (refine (foldl_kept _ _ _ (fun _ _ => ?_)).trans ?_)
    | with_reducible (refine kept_if ?_ ?_)
    | simp [↓State.kept_mk]
    | intro _
    | dsimp only
    | split

@[simp] theorem State.fireTallied_kept (s : State) : (State.fireTallied s).kept = s.kept := by
  unfold State.fireTallied
  repeat' first
    | with_reducible rfl
    | assumption
    | with_reducible (refine (forEach_kept _ _ _ (fun _ _ => ?_)).trans ?_)
    | with_reducible (refine (foldl_kept _ _ _ (fun _ _ => ?_)).trans ?_)
    | with_reducible (refine kept_if ?_ ?_)
    | simp [↓State.kept_mk]
    | intro _
    | dsimp only
    | split

@[simp] theorem State.count_kept (s : State) (unit_ event inst : Nat) (part : Option Nat) (n : Nat) : (State.count s unit_ event inst part n).kept = s.kept := by
  unfold State.count
  repeat' first
    | with_reducible rfl
    | assumption
    | with_reducible (refine (forEach_kept _ _ _ (fun _ _ => ?_)).trans ?_)
    | with_reducible (refine (foldl_kept _ _ _ (fun _ _ => ?_)).trans ?_)
    | with_reducible (refine kept_if ?_ ?_)
    | simp

@[simp] theorem State.watchPkt_kept (s : State) (link : Nat) (tx : Bool) (p : Pkt) : (State.watchPkt s link tx p).kept = s.kept := by
  simp [State.watchPkt]

@[simp] theorem State.enqueue_kept (s : State) (n : Nat) (o : OutPkt) : (State.enqueue s n o).kept = s.kept :=
  rfl

@[simp] theorem State.setPin_kept (s : State) (key : Nat) (pin : Option (Nat × Nat)) : (State.setPin s key pin).kept = s.kept := by
  unfold State.setPin
  repeat' first
    | with_reducible rfl
    | assumption
    | with_reducible (refine (forEach_kept _ _ _ (fun _ _ => ?_)).trans ?_)
    | with_reducible (refine (foldl_kept _ _ _ (fun _ _ => ?_)).trans ?_)
    | with_reducible (refine kept_if ?_ ?_)
    | simp [↓State.kept_mk]
    | intro _
    | dsimp only
    | split

@[simp] theorem State.dropPins_kept (s : State) : (State.dropPins s).kept = s.kept := by
  unfold State.dropPins
  repeat' first
    | with_reducible rfl
    | assumption
    | with_reducible (refine (forEach_kept _ _ _ (fun _ _ => ?_)).trans ?_)
    | with_reducible (refine (foldl_kept _ _ _ (fun _ _ => ?_)).trans ?_)
    | with_reducible (refine kept_if ?_ ?_)
    | simp [↓State.kept_mk]
    | intro _
    | dsimp only
    | split

@[simp] theorem State.modPtr_kept (s : State) (f : PtrCnt → PtrCnt) : (State.modPtr s f).kept = s.kept :=
  rfl

@[simp] theorem State.place_kept (s : State) (p : Pkt) : (State.place s p).kept = s.kept := by
  unfold State.place; repeat' split
  all_goals simp [↓State.kept_mk]

@[simp] theorem State.send_kept (s : State) (p : Pkt) : (State.send s p).kept = s.kept := by
  simp [State.send, ↓State.kept_mk]

@[simp] theorem State.report_kept (s : State) (p : Pkt) : (State.report s p).kept = s.kept := by
  unfold State.report
  repeat' first
    | with_reducible rfl
    | assumption
    | with_reducible (refine (forEach_kept _ _ _ (fun _ _ => ?_)).trans ?_)
    | with_reducible (refine (foldl_kept _ _ _ (fun _ _ => ?_)).trans ?_)
    | with_reducible (refine kept_if ?_ ?_)
    | simp [↓State.kept_mk]
    | intro _
    | dsimp only
    | split

@[simp] theorem State.freeUnits_kept (s : State) (n pool units ses : Nat) : (State.freeUnits s n pool units ses).kept = s.kept :=
  rfl

@[simp] theorem State.reportLate_kept (s : State) : (State.reportLate s).kept = s.kept := by
  unfold State.reportLate
  repeat' first
    | with_reducible rfl
    | assumption
    | with_reducible (refine (forEach_kept _ _ _ (fun _ _ => ?_)).trans ?_)
    | with_reducible (refine (foldl_kept _ _ _ (fun _ _ => ?_)).trans ?_)
    | with_reducible (refine kept_if ?_ ?_)
    | simp [↓State.kept_mk]
    | intro _
    | dsimp only
    | split

@[simp] theorem State.consume_kept (s : State) (src : Nat) (p : Pkt) : (State.consume s src p).kept = s.kept := by
  unfold State.consume; repeat' split
  all_goals simp [↓State.kept_mk]

@[simp] theorem State.undeliverable_kept (s : State) (arrival ses : Nat) (p : Pkt) (f : PtrCnt → PtrCnt) : (State.undeliverable s arrival ses p f).kept = s.kept := by
  simp [State.undeliverable]

@[simp] theorem State.forward_kept (s : State) (arrival ses : Nat) (p : Pkt) (no : Nat) : (State.forward s arrival ses p no).kept = s.kept := by
  unfold State.forward; repeat' split
  all_goals simp

@[simp] theorem State.sipLink_kept (s : State) (chip : Nat) : (State.sipLink s chip).2.kept = s.kept := by
  unfold State.sipLink
  repeat' first
    | with_reducible rfl
    | assumption
    | with_reducible (refine (forEach_kept _ _ _ (fun _ _ => ?_)).trans ?_)
    | with_reducible (refine (foldl_kept _ _ _ (fun _ _ => ?_)).trans ?_)
    | with_reducible (refine kept_if ?_ ?_)
    | simp [↓State.kept_mk]
    | intro _
    | dsimp only
    | split

@[simp] theorem State.sipSend_kept (s : State) (p : Pkt) : (State.sipSend s p).kept = s.kept := by
  unfold State.sipSend
  repeat' first
    | with_reducible rfl
    | assumption
    | with_reducible (refine (forEach_kept _ _ _ (fun _ _ => ?_)).trans ?_)
    | with_reducible (refine (foldl_kept _ _ _ (fun _ _ => ?_)).trans ?_)
    | with_reducible (refine kept_if ?_ ?_)
    | simp
    | intro _
    | dsimp only
    | split

@[simp] theorem State.driveFaultOut_kept (s : State) : (State.driveFaultOut s).kept = s.kept := by
  simp [State.driveFaultOut, ↓State.kept_mk]

@[simp] theorem State.enterSafe_kept (s : State) : (State.enterSafe s).kept = s.kept := by
  unfold State.enterSafe
  split
  · rfl
  · refine (State.onLinks_kept _ _ _).trans ?_
    refine (forEach_kept _ _ _ fun _ _ => State.modEPort_kept _ _ _).trans ?_
    rfl

@[simp] theorem State.record_kept (s : State) (l : List Nat) (inj : Bool) : (State.record s l inj).kept = s.kept := by
  simp [State.record, ↓State.kept_mk]

@[simp] theorem State.raiseAll_kept (s : State) (l : List Nat) (inj : Bool) : (State.raiseAll s l inj).kept = s.kept := by
  unfold State.raiseAll
  repeat' first
    | with_reducible rfl
    | assumption
    | with_reducible (refine (forEach_kept _ _ _ (fun _ _ => ?_)).trans ?_)
    | with_reducible (refine (foldl_kept _ _ _ (fun _ _ => ?_)).trans ?_)
    | with_reducible (refine kept_if ?_ ?_)
    | simp

@[simp] theorem State.raise_kept (s : State) (n : Nat) : (State.raise s n).kept = s.kept := by
  simp [State.raise]

@[simp] theorem State.portProto_kept (s : State) (x : Nat) : (State.portProto s x).kept = s.kept := by
  simp [State.portProto]

@[simp] theorem State.modCrd_kept (s : State) (p : CPort) (ch : Nat) (f : Nat → Nat) : (State.modCrd s p ch f).kept = s.kept :=
  rfl

@[simp] theorem State.giveRx_kept (s : State) (p : CPort) (wack : Bool) (n : Nat) : (State.giveRx s p wack n).kept = s.kept := by
  unfold State.giveRx
  repeat' first
    | with_reducible rfl
    | assumption
    | with_reducible (refine (forEach_kept _ _ _ (fun _ _ => ?_)).trans ?_)
    | with_reducible (refine (foldl_kept _ _ _ (fun _ _ => ?_)).trans ?_)
    | with_reducible (refine kept_if ?_ ?_)
    | simp [↓State.kept_mk]
    | intro _
    | dsimp only
    | split

@[simp] theorem State.returnCredit_kept (s : State) (p : CPort) (wack : Bool) : (State.returnCredit s p wack).kept = s.kept := by
  unfold State.returnCredit
  repeat' first
    | with_reducible rfl
    | assumption
    | with_reducible (refine (forEach_kept _ _ _ (fun _ _ => ?_)).trans ?_)
    | with_reducible (refine (foldl_kept _ _ _ (fun _ _ => ?_)).trans ?_)
    | with_reducible (refine kept_if ?_ ?_)
    | simp [↓State.kept_mk]
    | intro _
    | dsimp only
    | split

@[simp] theorem State.issueAcc_kept (s : State) (a : Acc) : (State.issueAcc s a).kept = s.kept := by
  unfold State.issueAcc
  repeat' first
    | with_reducible rfl
    | assumption
    | with_reducible (refine (forEach_kept _ _ _ (fun _ _ => ?_)).trans ?_)
    | with_reducible (refine (foldl_kept _ _ _ (fun _ _ => ?_)).trans ?_)
    | with_reducible (refine kept_if ?_ ?_)
    | simp [↓State.kept_mk]
    | intro _
    | dsimp only
    | split

theorem State.tryIssue_kept (s t : State) (a : Acc) (h : s.tryIssue a = some t) : t.kept = s.kept := by
  unfold State.tryIssue at h
  split at h
  · cases h; simp [↓State.kept_mk]
  · cases h

theorem issueAll_kept (l : List Acc) (s t : State) (h : issueAll l s = some t) : t.kept = s.kept := by
  induction l generalizing s with
  | nil => cases h; rfl
  | cons a l ih =>
    obtain ⟨u, hu, ht⟩ := Option.bind_eq_some_iff.mp h
    exact (ih u ht).trans (s.tryIssue_kept u a hu)

@[simp] theorem pumpGo_kept (l : List Acc) (s : State) : (pumpGo l s).kept = s.kept := by
  induction l generalizing s with
  | nil => rfl
  | cons a l ih =>
    refine (ih _).trans ?_
    split
    · cases h : issueAll (s.together a) s with
      | none => rfl
      | some t => exact issueAll_kept _ _ _ h
    · rfl

@[simp] theorem State.pumpPorts_kept (s : State) : (State.pumpPorts s).kept = s.kept := by
  simp [State.pumpPorts]

@[simp] theorem State.startJob_kept (s : State) (what : JobFor) (reads : List (Nat × Nat)) (writes : List (Nat × Bytes)) (key : Nat) (atom obs : Bool) : (State.startJob s what reads writes key atom obs).kept = s.kept := by
  simp [State.startJob, ↓State.kept_mk]

@[simp] theorem State.moreJob_kept (s : State) (j : Job) (what : JobFor) (writes : List (Nat × Bytes)) : (State.moreJob s j what writes).kept = s.kept := by
  simp [State.moreJob, ↓State.kept_mk]

@[simp] theorem State.modJob_kept (s : State) (id : Nat) (f : Job → Job) : (State.modJob s id f).kept = s.kept :=
  rfl

@[simp] theorem State.payEPort_kept (s : State) (n : Nat) (wd : Bool) : (State.payEPort s n wd).kept = s.kept := by
  unfold State.payEPort
  repeat' first
    | with_reducible rfl
    | assumption
    | with_reducible (refine (forEach_kept _ _ _ (fun _ _ => ?_)).trans ?_)
    | with_reducible (refine (foldl_kept _ _ _ (fun _ _ => ?_)).trans ?_)
    | with_reducible (refine kept_if ?_ ?_)
    | simp [↓State.kept_mk]
    | intro _
    | dsimp only
    | split

@[simp] theorem State.oweEPort_kept (s : State) (n : Nat) (wd : Bool) (k : Nat) : (State.oweEPort s n wd k).kept = s.kept := by
  unfold State.oweEPort
  repeat' first
    | with_reducible rfl
    | assumption
    | with_reducible (refine (forEach_kept _ _ _ (fun _ _ => ?_)).trans ?_)
    | with_reducible (refine (foldl_kept _ _ _ (fun _ _ => ?_)).trans ?_)
    | with_reducible (refine kept_if ?_ ?_)
    | simp [↓State.kept_mk]
    | intro _
    | dsimp only
    | split

@[simp] theorem State.grantMg_kept (s : State) : (State.grantMg s).kept = s.kept := by
  unfold State.grantMg
  repeat' first
    | with_reducible rfl
    | assumption
    | with_reducible (refine (forEach_kept _ _ _ (fun _ _ => ?_)).trans ?_)
    | with_reducible (refine (foldl_kept _ _ _ (fun _ _ => ?_)).trans ?_)
    | with_reducible (refine kept_if ?_ ?_)
    | simp [↓State.kept_mk]
    | intro _
    | dsimp only
    | split

@[simp] theorem State.grantPort_kept (s : State) (n : Nat) : (State.grantPort s n).kept = s.kept := by
  unfold State.grantPort
  repeat' first
    | with_reducible rfl
    | assumption
    | with_reducible (refine (forEach_kept _ _ _ (fun _ _ => ?_)).trans ?_)
    | with_reducible (refine (foldl_kept _ _ _ (fun _ _ => ?_)).trans ?_)
    | with_reducible (refine kept_if ?_ ?_)
    | simp [↓State.kept_mk]
    | intro _
    | dsimp only
    | split

@[simp] theorem State.payCredits_kept (s : State) : (State.payCredits s).kept = s.kept := by
  unfold State.payCredits
  repeat' first
    | with_reducible rfl
    | assumption
    | with_reducible (refine (forEach_kept _ _ _ (fun _ _ => ?_)).trans ?_)
    | with_reducible (refine (foldl_kept _ _ _ (fun _ _ => ?_)).trans ?_)
    | with_reducible (refine kept_if ?_ ?_)
    | simp

@[simp] theorem State.dropCredits_kept (s : State) (x : Crossing) : (s.dropCredits x).kept = s.kept := by
  unfold State.dropCredits
  repeat' first
    | with_reducible rfl
    | with_reducible (refine (forEach_kept _ _ _ (fun _ _ => ?_)).trans ?_)
    | with_reducible (refine kept_if ?_ ?_)
    | simp [↓State.kept_mk]
    | split

@[simp] theorem State.headerErrs_kept (s : State) (n k : Nat) : (State.headerErrs s n k).kept = s.kept := by
  simp [State.headerErrs]

@[simp] theorem State.headerMore_kept (s : State) (n k : Nat) : (State.headerMore s n k).kept = s.kept := by
  simp [State.headerMore]

@[simp] theorem State.windowTake_kept (s : State) (n least : Nat) : (State.windowTake s n least).kept = s.kept := by
  unfold State.windowTake
  repeat' first
    | with_reducible rfl
    | assumption
    | with_reducible (refine (forEach_kept _ _ _ (fun _ _ => ?_)).trans ?_)
    | with_reducible (refine (foldl_kept _ _ _ (fun _ _ => ?_)).trans ?_)
    | with_reducible (refine kept_if ?_ ?_)
    | simp [↓State.kept_mk]
    | intro _
    | dsimp only
    | split

@[simp] theorem State.windowSettle_kept (s : State) (n : Nat) : (State.windowSettle s n).kept = s.kept := s.windowTake_kept n 0

@[simp] theorem State.headTake_kept (s : State) (n least : Nat) : (State.headTake s n least).kept = s.kept := by
  unfold State.headTake
  repeat' first
    | with_reducible rfl
    | assumption
    | with_reducible (refine (forEach_kept _ _ _ (fun _ _ => ?_)).trans ?_)
    | with_reducible (refine (foldl_kept _ _ _ (fun _ _ => ?_)).trans ?_)
    | with_reducible (refine kept_if ?_ ?_)
    | simp [↓State.kept_mk]
    | intro _
    | dsimp only
    | split

@[simp] theorem State.headSettle_kept (s : State) (n : Nat) : (State.headSettle s n).kept = s.kept := s.headTake_kept n 0

@[simp] theorem State.renewed_kept (s : State) (x : Crossing) : (s.renewed x).kept = s.kept := by
  unfold State.renewed; split <;> simp

@[simp] theorem State.xingRequest_kept (s : State) (x : Crossing) (core : Bool) : (State.xingRequest s x core).kept = s.kept := by
  cases x <;> simp [State.xingRequest, ↓State.kept_mk]

@[simp] theorem State.xingAck_kept (s : State) (x : Crossing) (core : Bool) : (State.xingAck s x core).kept = s.kept := by
  unfold State.xingAck
  repeat' first
    | with_reducible rfl
    | assumption
    | with_reducible (refine (forEach_kept _ _ _ (fun _ _ => ?_)).trans ?_)
    | with_reducible (refine (foldl_kept _ _ _ (fun _ _ => ?_)).trans ?_)
    | with_reducible (refine kept_if ?_ ?_)
    | simp [↓State.kept_mk]
    | intro _
    | dsimp only
    | split

@[simp] theorem State.giveCredits_kept (s : State) : (State.giveCredits s).kept = s.kept := by
  unfold State.giveCredits
  repeat' first
    | with_reducible rfl
    | assumption
    | with_reducible (refine (forEach_kept _ _ _ (fun _ _ => ?_)).trans ?_)
    | with_reducible (refine (foldl_kept _ _ _ (fun _ _ => ?_)).trans ?_)
    | with_reducible (refine kept_if ?_ ?_)
    | simp [↓State.kept_mk]
    | intro _
    | dsimp only
    | split

@[simp] theorem State.clearDeficits_kept (s : State) (n : Nat) : (State.clearDeficits s n).kept = s.kept := by
  unfold State.clearDeficits
  repeat' first
    | with_reducible rfl
    | assumption
    | with_reducible (refine (forEach_kept _ _ _ (fun _ _ => ?_)).trans ?_)
    | with_reducible (refine (foldl_kept _ _ _ (fun _ _ => ?_)).trans ?_)
    | with_reducible (refine kept_if ?_ ?_)
    | simp [↓State.kept_mk]
    | intro _
    | dsimp only
    | split

@[simp] theorem State.toll_kept (s : State) (arrival : Nat) (p : Pkt) : (State.toll s arrival p).1.kept = s.kept := by
  unfold State.toll
  repeat' first
    | with_reducible rfl
    | assumption
    | with_reducible (refine (forEach_kept _ _ _ (fun _ _ => ?_)).trans ?_)
    | with_reducible (refine (foldl_kept _ _ _ (fun _ _ => ?_)).trans ?_)
    | with_reducible (refine kept_if ?_ ?_)
    | simp [↓State.kept_mk]
    | intro _
    | dsimp only
    | split

@[simp] theorem State.refillGate_kept (s : State) (j : Nat) : (State.refillGate s j).kept = s.kept :=
  rfl

@[simp] theorem State.applySched_kept (s : State) : (State.applySched s).kept = s.kept := by
  unfold State.applySched
  repeat' first
    | with_reducible rfl
    | assumption
    | with_reducible (refine (forEach_kept _ _ _ (fun _ _ => ?_)).trans ?_)
    | with_reducible (refine (foldl_kept _ _ _ (fun _ _ => ?_)).trans ?_)
    | with_reducible (refine kept_if ?_ ?_)
    | simp [↓State.kept_mk]
    | intro _
    | dsimp only
    | split

@[simp] theorem State.failLink_kept (s : State) (n : Nat) : (State.failLink s n).kept = s.kept := by
  simp [State.failLink]

@[simp] theorem State.requeue_kept (s : State) (n : Nat) (o : OutPkt) : (State.requeue s n o).kept = s.kept := by
  unfold State.requeue
  repeat' first
    | with_reducible rfl
    | assumption
    | with_reducible (refine (forEach_kept _ _ _ (fun _ _ => ?_)).trans ?_)
    | with_reducible (refine (foldl_kept _ _ _ (fun _ _ => ?_)).trans ?_)
    | with_reducible (refine kept_if ?_ ?_)
    | simp [↓State.kept_mk]
    | intro _
    | dsimp only
    | split

@[simp] theorem State.replace_kept (s : State) (o : OutPkt) : (State.replace s o).kept = s.kept := by
  unfold State.replace
  repeat' first
    | with_reducible rfl
    | assumption
    | with_reducible (refine (forEach_kept _ _ _ (fun _ _ => ?_)).trans ?_)
    | with_reducible (refine (foldl_kept _ _ _ (fun _ _ => ?_)).trans ?_)
    | with_reducible (refine kept_if ?_ ?_)
    | simp [↓State.kept_mk]
    | intro _
    | dsimp only
    | split

@[simp] theorem State.leaveSet_kept (s : State) (n : Nat) : (State.leaveSet s n).kept = s.kept := by
  unfold State.leaveSet; refine (forEach_kept _ _ _ fun _ _ => ?_).trans ?_ <;> simp

@[simp] theorem State.setHostile_kept (s : State) (n cause : Nat) : (State.setHostile s n cause).kept = s.kept := by
  simp [State.setHostile]

@[simp] theorem State.tagFailure_kept (s : State) (n : Nat) (clean : Bool) : (State.tagFailure s n clean).kept = s.kept := by
  simp [State.tagFailure]

@[simp] theorem State.ctlMalf_kept (s : State) (n : Nat) : (State.ctlMalf s n).kept = s.kept :=
  rfl

@[simp] theorem State.startReplay_kept (s : State) (n : Nat) (q : BitVec 12) : (State.startReplay s n q).kept = s.kept := by
  simp [State.startReplay]

@[simp] theorem State.takeAck_kept (s : State) (n : Nat) (a : BitVec 12) : (State.takeAck s n a).kept = s.kept := by
  simp [State.takeAck]

@[simp] theorem State.takeAckNak_kept (s : State) (n : Nat) (a : BitVec 12) (nak : Bool) : (State.takeAckNak s n a nak).kept = s.kept := by
  simp [State.takeAckNak]

@[simp] theorem State.takeCredit_kept (s : State) (n p : Nat) (cum : BitVec 9) : (State.takeCredit s n p cum).kept = s.kept := by
  simp [State.takeCredit]

@[simp] theorem State.takeCredInit_kept (s : State) (n p ded shared : Nat) : (State.takeCredInit s n p ded shared).kept = s.kept := by
  simp [State.takeCredInit]

@[simp] theorem State.takeCurfewEntry_kept (s : State) (n : Nat) (w : Word) : (State.takeCurfewEntry s n w).kept = s.kept := by
  simp [State.takeCurfewEntry]

@[simp] theorem State.takeFatal_kept (s : State) (n : Nat) : (State.takeFatal s n).kept = s.kept := by
  simp [State.takeFatal]

@[simp] theorem State.discardFrame_kept (s : State) (n : Nat) : (State.discardFrame s n).kept = s.kept :=
  rfl

@[simp] theorem State.failFrame_kept (s : State) (n : Nat) (h : Word) : (State.failFrame s n h).kept = s.kept :=
  rfl

@[simp] theorem State.takePkt_kept (s : State) (n : Nat) (p : Pkt) : (State.takePkt s n p).kept = s.kept := by
  simp [State.takePkt]

@[simp] theorem State.dropPkts_kept (s : State) (n : Nat) (l : List Pkt) : (State.dropPkts s n l).kept = s.kept := by
  unfold State.dropPkts; refine (forEach_kept _ _ _ fun _ _ => ?_).trans ?_ <;> simp

@[simp] theorem State.checkedFrame_kept (s : State) (n : Nat) (h : Word) (payload : Bytes) (current : Bool) : (State.checkedFrame s n h payload current).kept = s.kept := by
  unfold State.checkedFrame
  repeat' first
    | with_reducible rfl
    | assumption
    | with_reducible (refine (forEach_kept _ _ _ (fun _ _ => ?_)).trans ?_)
    | with_reducible (refine (foldl_kept _ _ _ (fun _ _ => ?_)).trans ?_)
    | with_reducible (refine kept_if ?_ ?_)
    | simp

@[simp] theorem State.sendAck_kept (s : State) (n : Nat) : (State.sendAck s n).kept = s.kept :=
  rfl

@[simp] theorem State.sendPace_kept (s : State) (n : Nat) : (State.sendPace s n).kept = s.kept := by
  simp [State.sendPace]

@[simp] theorem State.sendControls_kept (s : State) (n : Nat) : (State.sendControls s n).kept = s.kept := by
  unfold State.sendControls
  repeat' first
    | with_reducible rfl
    | assumption
    | with_reducible (refine (forEach_kept _ _ _ (fun _ _ => ?_)).trans ?_)
    | with_reducible (refine (foldl_kept _ _ _ (fun _ _ => ?_)).trans ?_)
    | with_reducible (refine kept_if ?_ ?_)
    | simp
    | intro _
    | dsimp only
    | split

@[simp] theorem State.maybeAdvance_kept (s : State) (n : Nat) : (State.maybeAdvance s n).kept = s.kept := by
  simp [State.maybeAdvance]

@[simp] theorem State.frameSent_kept (s : State) (n : Nat) (e : Emit) : (State.frameSent s n e).kept = s.kept := by
  simp [State.frameSent]

@[simp] theorem State.transmit_kept (s : State) (n : Nat) (q : BitVec 12) (pkts : List OutPkt) (raw : Option RawFrame) : (State.transmit s n q pkts raw).kept = s.kept := by
  simp [State.transmit]

@[simp] theorem State.transmitRaw_kept (s : State) (n : Nat) (w : RawFrame) : (State.transmitRaw s n w).kept = s.kept := by
  simp [State.transmitRaw]

@[simp] theorem State.gather_kept (n a b : Nat) (s : State) (l : List OutPkt) : (State.gather n a b s l).1.kept = s.kept := by
  induction a generalizing b s l with
  | zero => rfl
  | succ a ih =>
    unfold State.gather
    repeat' first
      | with_reducible rfl
      | assumption
      | with_reducible (refine (forEach_kept _ _ _ (fun _ _ => ?_)).trans ?_)
      | with_reducible (refine (foldl_kept _ _ _ (fun _ _ => ?_)).trans ?_)
      | with_reducible (refine kept_if ?_ ?_)
      | simp [ih]
      | intro _
      | dsimp only
      | split

@[simp] theorem State.sendFrame_kept (s : State) (n : Nat) : (State.sendFrame s n).kept = s.kept := by
  unfold State.sendFrame
  repeat' first
    | with_reducible rfl
    | assumption
    | with_reducible (refine (forEach_kept _ _ _ (fun _ _ => ?_)).trans ?_)
    | with_reducible (refine (foldl_kept _ _ _ (fun _ _ => ?_)).trans ?_)
    | with_reducible (refine kept_if ?_ ?_)
    | simp
    | intro _
    | dsimp only
    | split

@[simp] theorem State.endInject_kept (s : State) (n : Nat) : (State.endInject s n).kept = s.kept := by
  unfold State.endInject
  repeat' first
    | with_reducible rfl
    | assumption
    | with_reducible (refine (forEach_kept _ _ _ (fun _ _ => ?_)).trans ?_)
    | with_reducible (refine (foldl_kept _ _ _ (fun _ _ => ?_)).trans ?_)
    | with_reducible (refine kept_if ?_ ?_)
    | simp [↓State.kept_mk]
    | intro _
    | dsimp only
    | split

@[simp] theorem State.injectCopy_kept (s : State) (n : Nat) : (State.injectCopy s n).kept = s.kept := by
  simp [State.injectCopy, ↓State.kept_mk]

@[simp] theorem State.setFlags_kept (s : State) (part : Nat) (o : Out) : (State.setFlags s part o).kept = s.kept :=
  rfl

@[simp] theorem State.setQueue_kept (s : State) (q : Nat) (d : Queue) : (State.setQueue s q d).kept = s.kept :=
  rfl

@[simp] theorem State.modQueue_kept (s : State) (q : Nat) (f : Queue → Queue) : (State.modQueue s q f).kept = s.kept :=
  rfl

@[simp] theorem State.setStw_kept (s : State) (n : Nat) (w : Stw) : (State.setStw s n w).kept = s.kept :=
  rfl

@[simp] theorem State.modStw_kept (s : State) (n : Nat) (f : Stw → Stw) : (State.modStw s n f).kept = s.kept :=
  rfl

@[simp] theorem State.setSync_kept (s : State) (n : Nat) (o : Sync) : (State.setSync s n o).kept = s.kept :=
  rfl

@[simp] theorem State.tasteRec_kept (s : State) (outcome part name : Nat) (step : Word) (len : Nat) : (State.tasteRec s outcome part name step len).kept = s.kept := by
  simp [State.tasteRec]

@[simp] theorem State.modTaste_kept (s : State) (f : TasteCnt → TasteCnt) : (State.modTaste s f).kept = s.kept :=
  rfl

@[simp] theorem State.takeTaste_kept (s : State) (t : Taste) : (State.takeTaste s t).kept = s.kept := by
  simp [State.takeTaste, ↓State.kept_mk]

@[simp] theorem State.tasteEntry_kept (s : State) (i : Nat) (step : Word) (queue : Option (Nat × Nat)) : (State.tasteEntry s i step queue).kept = s.kept := by
  simp [State.tasteEntry]

@[simp] theorem State.saveCtx_kept (s : State) (n q : Nat) (regs : List Word) : (State.saveCtx s n q regs).kept = s.kept := by
  unfold State.saveCtx
  repeat' first
    | with_reducible rfl
    | assumption
    | with_reducible (refine (forEach_kept _ _ _ (fun _ _ => ?_)).trans ?_)
    | with_reducible (refine (foldl_kept _ _ _ (fun _ _ => ?_)).trans ?_)
    | with_reducible (refine kept_if ?_ ?_)
    | simp [↓State.kept_mk]
    | intro _
    | dsimp only
    | split

@[simp] theorem State.leave_kept (s : State) (q : Nat) : (State.leave s q).kept = s.kept := by
  unfold State.leave
  repeat' first
    | with_reducible rfl
    | assumption
    | with_reducible (refine (forEach_kept _ _ _ (fun _ _ => ?_)).trans ?_)
    | with_reducible (refine (foldl_kept _ _ _ (fun _ _ => ?_)).trans ?_)
    | with_reducible (refine kept_if ?_ ?_)
    | simp [↓State.kept_mk]
    | intro _
    | dsimp only
    | split

@[simp] theorem State.dropLines_kept (s : State) (q : Nat) (bad : Nat → Bool) : (State.dropLines s q bad).kept = s.kept := by
  unfold State.dropLines; refine (forEach_kept _ _ _ fun _ _ => ?_).trans ?_ <;> simp [↓State.kept_mk]

@[simp] theorem State.writeRegs_kept (s : State) (q : Nat) (l : List (Nat × Word)) : (State.writeRegs s q l).kept = s.kept := by
  unfold State.writeRegs; repeat' split
  all_goals simp

@[simp] theorem State.loaded_kept (s : State) (n q : Nat) (regs : List Word) : (State.loaded s n q regs).kept = s.kept :=
  rfl

@[simp] theorem State.loadedFrom_kept (s : State) (n q : Nat) (b : Bytes) : (State.loadedFrom s n q b).kept = s.kept := by
  unfold State.loadedFrom
  repeat' first
    | with_reducible rfl
    | assumption
    | with_reducible (refine (forEach_kept _ _ _ (fun _ _ => ?_)).trans ?_)
    | with_reducible (refine (foldl_kept _ _ _ (fun _ _ => ?_)).trans ?_)
    | with_reducible (refine kept_if ?_ ?_)
    | simp [↓State.kept_mk]
    | intro _
    | dsimp only
    | split

@[simp] theorem State.claim_kept (s : State) (n q : Nat) : (State.claim s n q).kept = s.kept := by
  unfold State.claim
  repeat' first
    | with_reducible rfl
    | assumption
    | with_reducible (refine (forEach_kept _ _ _ (fun _ _ => ?_)).trans ?_)
    | with_reducible (refine (foldl_kept _ _ _ (fun _ _ => ?_)).trans ?_)
    | with_reducible (refine kept_if ?_ ?_)
    | simp
    | intro _
    | dsimp only
    | split

@[simp] theorem State.unbind_kept (s : State) (q : Nat) : (State.unbind s q).kept = s.kept := by
  simp [State.unbind]

@[simp] theorem State.markExcess_kept (s : State) (part : Nat) : (State.markExcess s part).kept = s.kept := by
  unfold State.markExcess; refine (forEach_kept _ _ _ fun _ _ => ?_).trans ?_ <;> simp

@[simp] theorem State.enterIdle_kept (s : State) (q : Nat) : (State.enterIdle s q).kept = s.kept := by
  simp [State.enterIdle]

@[simp] theorem State.startProgram_kept (s : State) (q : Nat) (arg : BitVec 32) : (State.startProgram s q arg).kept = s.kept := by
  simp [State.startProgram]

@[simp] theorem State.resumeQueue_kept (s : State) (q : Nat) : (State.resumeQueue s q).kept = s.kept := by
  simp [State.resumeQueue]

@[simp] theorem State.stwBoundary_kept (s : State) (n : Nat) : (State.stwBoundary s n).kept = s.kept := by
  unfold State.stwBoundary; refine (forEach_kept _ _ _ fun _ _ => ?_).trans ?_ <;> simp

@[simp] theorem State.freeStw_kept (s : State) (q : Nat) : (State.freeStw s q).kept = s.kept := by
  unfold State.freeStw; split <;> simp

@[simp] theorem State.settleHead_kept (s : State) (q : Nat) : (State.settleHead s q).kept = s.kept :=
  rfl

@[simp] theorem State.retire_kept (s : State) (q : Nat) (writes : List (Nat × Word)) (dist : Nat) : (State.retire s q writes dist).kept = s.kept := by
  unfold State.retire
  repeat' first
    | with_reducible rfl
    | assumption
    | with_reducible (refine (forEach_kept _ _ _ (fun _ _ => ?_)).trans ?_)
    | with_reducible (refine (foldl_kept _ _ _ (fun _ _ => ?_)).trans ?_)
    | with_reducible (refine kept_if ?_ ?_)
    | simp
    | intro _
    | dsimp only
    | split

@[simp] theorem State.finish_kept (s : State) (q : Nat) (writes : List (Nat × Word)) (dist : Nat) : (State.finish s q writes dist).kept = s.kept := by
  simp [State.finish]

@[simp] theorem State.parkQueue_kept (s : State) (q : Nat) (p : Park) : (State.parkQueue s q p).kept = s.kept := by
  simp [State.parkQueue]

@[simp] theorem State.unwait_kept (s : State) (q : Nat) : (State.unwait s q).kept = s.kept := by
  unfold State.unwait; split <;> simp

@[simp] theorem State.releaseWaiters_kept (s : State) (n : Nat) : (State.releaseWaiters s n).kept = s.kept := by
  unfold State.releaseWaiters; refine (forEach_kept _ _ _ fun _ _ => ?_).trans ?_ <;> simp

@[simp] theorem State.update_kept (s : State) (n : Nat) (set : Bool) (v : Word) : (State.update s n set v).kept = s.kept := by
  unfold State.update
  repeat' first
    | with_reducible rfl
    | assumption
    | with_reducible (refine (forEach_kept _ _ _ (fun _ _ => ?_)).trans ?_)
    | with_reducible (refine (foldl_kept _ _ _ (fun _ _ => ?_)).trans ?_)
    | with_reducible (refine kept_if ?_ ?_)
    | simp

@[simp] theorem State.unissued_kept (s : State) (q : Nat) : (State.unissued s q).kept = s.kept := by
  unfold State.unissued
  repeat' first
    | with_reducible rfl
    | assumption
    | with_reducible (refine (forEach_kept _ _ _ (fun _ _ => ?_)).trans ?_)
    | with_reducible (refine (foldl_kept _ _ _ (fun _ _ => ?_)).trans ?_)
    | with_reducible (refine kept_if ?_ ?_)
    | simp [↓State.kept_mk]
    | intro _
    | dsimp only
    | split

@[simp] theorem State.queueFault_kept (s : State) (q code info : Nat) (at_ : Nat × BitVec 32) (rec : Bool) : (State.queueFault s q code info at_ rec).kept = s.kept := by
  unfold State.queueFault
  repeat' first
    | with_reducible rfl
    | assumption
    | with_reducible (refine (forEach_kept _ _ _ (fun _ _ => ?_)).trans ?_)
    | with_reducible (refine (foldl_kept _ _ _ (fun _ _ => ?_)).trans ?_)
    | with_reducible (refine kept_if ?_ ?_)
    | simp
    | intro _
    | dsimp only
    | split

@[simp] theorem State.execFault_kept (s : State) (q code : Nat) (info : Nat) (rec : Bool) : (State.execFault s q code info rec).kept = s.kept := by
  simp [State.execFault]

@[simp] theorem State.insnFault_kept (s : State) (q seq code : Nat) (info : Nat) : (State.insnFault s q seq code info).kept = s.kept := by
  unfold State.insnFault
  repeat' first
    | with_reducible rfl
    | assumption
    | with_reducible (refine (forEach_kept _ _ _ (fun _ _ => ?_)).trans ?_)
    | with_reducible (refine (foldl_kept _ _ _ (fun _ _ => ?_)).trans ?_)
    | with_reducible (refine kept_if ?_ ?_)
    | simp
    | intro _
    | dsimp only
    | split

@[simp] theorem State.dropReqs_kept (s : State) (q : Nat) : (State.dropReqs s q).kept = s.kept :=
  rfl

@[simp] theorem State.abandon_kept (s : State) (q : Nat) : (State.abandon s q).kept = s.kept := by
  simp [State.abandon]

@[simp] theorem State.restartQueue_kept (s : State) (q : Nat) : (State.restartQueue s q).kept = s.kept := by
  simp [State.restartQueue]

@[simp] theorem State.resetQueue_kept (s : State) (q : Nat) : (State.resetQueue s q).kept = s.kept := by
  simp [State.resetQueue]

@[simp] theorem State.fetchLines_kept (s : State) (n : Nat) : (State.fetchLines s n).kept = s.kept := by
  unfold State.fetchLines; refine (forEach_kept _ _ _ fun _ _ => ?_).trans ?_ <;> simp

@[simp] theorem State.cacheLine_kept (s : State) (n q line : Nat) (b : Bytes) : (State.cacheLine s n q line b).kept = s.kept :=
  rfl

@[simp] theorem State.begin_kept (s : State) (n q : Nat) (w : BitVec 128) : (State.begin s n q w).kept = s.kept := by
  unfold State.begin
  repeat' first
    | with_reducible rfl
    | assumption
    | with_reducible (refine (forEach_kept _ _ _ (fun _ _ => ?_)).trans ?_)
    | with_reducible (refine (foldl_kept _ _ _ (fun _ _ => ?_)).trans ?_)
    | with_reducible (refine kept_if ?_ ?_)
    | simp
    | intro _
    | dsimp only
    | split

end Sys2Proof.Machine
end

