-- ==== Sys2Proof/Laws/KeptMem.lean ====
section
/-! SUPPORT. What the operations of the memory space, the Innkeeper and the instructions' moves keep (`State.kept`). -/

namespace Sys2Proof.Machine

set_option Elab.async false

@[simp] theorem State.putLodge_kept (s : State) (i : Nat) (e : Lodge) : (State.putLodge s i e).kept = s.kept :=
  rfl

@[simp] theorem State.freeLodge_kept (s : State) (kind k : Nat) : (State.freeLodge s kind k).kept = s.kept := by
  unfold State.freeLodge; split <;> simp

@[simp] theorem State.modLodge_kept (s : State) (kind k : Nat) (f : Lodge → Lodge) : (State.modLodge s kind k f).kept = s.kept := by
  unfold State.modLodge; split <;> simp

@[simp] theorem State.makeLodge_kept (s : State) (kind k : Nat) (f : Lodge → Lodge) : (State.makeLodge s kind k f).kept = s.kept := by
  unfold State.makeLodge; repeat' split
  all_goals simp

@[simp] theorem State.noteStatus_kept (s : State) (a : Acc) (st : BitVec 2) : (State.noteStatus s a st).kept = s.kept := by
  unfold State.noteStatus
  repeat' first
    | with_reducible rfl
    | assumption
    | with_reducible (refine (forEach_kept _ _ _ (fun _ _ => ?_)).trans ?_)
    | with_reducible (refine (foldl_kept _ _ _ (fun _ _ => ?_)).trans ?_)
    | with_reducible (refine kept_if ?_ ?_)
    | simp [↓State.kept_mk]
    | intro _
    | dsimp only
    | split

@[simp] theorem State.answer_kept (s : State) (a : Acc) (st : BitVec 2) (data : Bytes) : (State.answer s a st data).kept = s.kept := by
  simp [State.answer, ↓State.kept_mk]

@[simp] theorem State.respond_kept (s : State) (port : CPort) (write : Option Bool) (tag : Nat) (st : BitVec 2) (data : Bytes) : (State.respond s port write tag st data).kept = s.kept := by
  unfold State.respond
  repeat' first
    | with_reducible rfl
    | assumption
    | with_reducible (refine (forEach_kept _ _ _ (fun _ _ => ?_)).trans ?_)
    | with_reducible (refine (foldl_kept _ _ _ (fun _ _ => ?_)).trans ?_)
    | with_reducible (refine kept_if ?_ ?_)
    | simp [↓State.kept_mk]
    | intro _
    | dsimp only
    | split

@[simp] theorem State.expire_kept (s : State) (a : Acc) : (State.expire s a).kept = s.kept := by
  simp [State.expire, ↓State.kept_mk]

@[simp] theorem State.useLoc_kept (s : State) (c k : Nat) : (State.useLoc s c k).kept = s.kept := by
  unfold State.useLoc
  repeat' first
    | with_reducible rfl
    | assumption
    | with_reducible (refine (forEach_kept _ _ _ (fun _ _ => ?_)).trans ?_)
    | with_reducible (refine (foldl_kept _ _ _ (fun _ _ => ?_)).trans ?_)
    | with_reducible (refine kept_if ?_ ?_)
    | simp [↓State.kept_mk]
    | intro _
    | dsimp only
    | split

@[simp] theorem State.fillLoc_kept (s : State) (c k : Nat) (chip : BitVec 11) (issued : Int) : (State.fillLoc s c k chip issued).kept = s.kept :=
  rfl

@[simp] theorem State.dropLoc_kept (s : State) (c k : Nat) : (State.dropLoc s c k).kept = s.kept :=
  rfl

@[simp] theorem State.addReq_kept (s : State) (r : Req) : (State.addReq s r).kept = s.kept :=
  rfl

@[simp] theorem State.modReq_kept (s : State) (id : Nat) (f : Req → Req) : (State.modReq s id f).kept = s.kept :=
  rfl

@[simp] theorem State.endReq_kept (s : State) (id : Nat) : (State.endReq s id).kept = s.kept :=
  rfl

@[simp] theorem State.unstale_kept (s : State) (dst : BitVec 11) (vc : Nat) (tag : BitVec 12) : (State.unstale s dst vc tag).kept = s.kept := by
  unfold State.unstale
  repeat' first
    | with_reducible rfl
    | assumption
    | with_reducible (refine (forEach_kept _ _ _ (fun _ _ => ?_)).trans ?_)
    | with_reducible (refine (foldl_kept _ _ _ (fun _ _ => ?_)).trans ?_)
    | with_reducible (refine kept_if ?_ ?_)
    | simp [↓State.kept_mk]
    | intro _
    | dsimp only
    | split

@[simp] theorem State.issueReq_kept (s : State) (r : Req) (dst : BitVec 11) : (State.issueReq s r dst).kept = s.kept := by
  unfold State.issueReq; split <;> simp [↓State.kept_mk]

@[simp] theorem State.reissue_kept (s : State) (r : Req) (sync : Bool) : (State.reissue s r sync).kept = s.kept := by
  simp [State.reissue]

@[simp] theorem State.refetch_kept (s : State) (r : Req) (src : BitVec 64) : (State.refetch s r src).kept = s.kept :=
  rfl

@[simp] theorem State.pumpReq_kept (s : State) (id : Nat) : (State.pumpReq s id).kept = s.kept := by
  unfold State.pumpReq; repeat' split
  all_goals simp

@[simp] theorem State.pumpReqs_kept (s : State) : (State.pumpReqs s).kept = s.kept := by
  unfold State.pumpReqs; refine (forEach_kept _ _ _ fun _ _ => ?_).trans ?_ <;> simp

@[simp] theorem State.giveData_kept (s : State) (id : Nat) (data : Bytes) : (State.giveData s id data).kept = s.kept := by
  unfold State.giveData; repeat' split
  all_goals simp

@[simp] theorem State.reply_kept (s : State) (p : Pkt) (c : CplAddr) (data : Bytes) : (State.reply s p c data).kept = s.kept := by
  simp [State.reply]

@[simp] theorem State.refuse_kept (s : State) (p : Pkt) (st : Nat) : (State.refuse s p st).kept = s.kept := by
  simp [State.refuse]

@[simp] theorem State.orderCheck_kept (s : State) (src : Nat) (p : Pkt) : (State.orderCheck s src p).2.kept = s.kept := by
  unfold State.orderCheck; split <;> simp [↓State.kept_mk]

@[simp] theorem State.sample_kept (s : State) (p : Pkt) : (State.sample s p).kept = s.kept := by
  simp [State.sample, ↓State.kept_mk]

@[simp] theorem State.refuseOnward_kept (s : State) (p : Pkt) (lodging : BitVec 11) : (State.refuseOnward s p lodging).kept = s.kept := by
  simp [State.refuseOnward]

@[simp] theorem State.sendOnward_kept (s : State) (i : Nat) (e : Onward) : (State.sendOnward s i e).kept = s.kept := by
  unfold State.sendOnward; split <;> simp [↓State.kept_mk]

@[simp] theorem State.pumpOnward_kept (s : State) : (State.pumpOnward s).kept = s.kept := by
  unfold State.pumpOnward
  repeat' first
    | with_reducible rfl
    | assumption
    | with_reducible (refine (forEach_kept _ _ _ (fun _ _ => ?_)).trans ?_)
    | with_reducible (refine (foldl_kept _ _ _ (fun _ _ => ?_)).trans ?_)
    | with_reducible (refine kept_if ?_ ?_)
    | simp
    | intro _
    | dsimp only
    | split

theorem State.takeOnward_kept (s : State) (src : Nat) (p : Pkt) (lodging : BitVec 11) (hold : Option Nat) (t : State)
    (h : s.takeOnward src p lodging hold = some t) : t.kept = s.kept := by
  unfold State.takeOnward at h
  obtain ⟨i, -, rfl⟩ := Option.map_eq_some_iff.mp h
  rfl

@[simp] theorem State.onwardFull_kept (s : State) (p : Pkt) (lodging : BitVec 11) : (State.onwardFull s p lodging).kept = s.kept := by
  simp [State.onwardFull]

@[simp] theorem State.goOnward_kept (s : State) (src : Nat) (p : Pkt) (lodging : BitVec 11) : (State.goOnward s src p lodging).kept = s.kept := by
  unfold State.goOnward
  split
  next h => rw [State.pumpOnward_kept, State.takeOnward_kept _ _ _ _ _ _ h]
  next => exact State.onwardFull_kept _ _ _

@[simp] theorem State.stale_kept (s : State) (p : Pkt) : (State.stale s p).kept = s.kept := by
  simp [State.stale]

@[simp] theorem State.markDirty_kept (s : State) (p : Pkt) : (State.markDirty s p).kept = s.kept := by
  simp [State.markDirty, ↓State.kept_mk]

@[simp] theorem State.perform_kept (s : State) (src : Nat) (p : Pkt) (l : List (Nat × Nat)) (loc : Option Nat) : (State.perform s src p l loc).kept = s.kept := by
  unfold State.perform
  repeat' first
    | with_reducible rfl
    | assumption
    | with_reducible (refine (forEach_kept _ _ _ (fun _ _ => ?_)).trans ?_)
    | with_reducible (refine (foldl_kept _ _ _ (fun _ _ => ?_)).trans ?_)
    | with_reducible (refine kept_if ?_ ?_)
    | simp [↓State.kept_mk]
    | intro _
    | dsimp only
    | split

@[simp] theorem State.lodgeCheck_kept (s : State) (src : Nat) (p : Pkt) : (State.lodgeCheck s src p).kept = s.kept := by
  unfold State.lodgeCheck
  dsimp only
  split
  · split
    · split
      · next h => exact State.takeOnward_kept _ _ _ _ _ _ h
      · exact State.stale_kept _ _
    · rw [State.perform_kept, State.sample_kept]
  · split
    · exact State.perform_kept _ _ _ _ _
    · refine kept_if (State.stale_kept _ _) ?_
      split
      · exact kept_if (State.stale_kept _ _) (State.goOnward_kept _ _ _ _)
      · exact State.stale_kept _ _

@[simp] theorem State.admitReq_kept (s : State) (src : Nat) (p : Pkt) : (State.admitReq s src p).kept = s.kept := by
  unfold State.admitReq
  repeat' first
    | with_reducible rfl
    | assumption
    | with_reducible (refine (forEach_kept _ _ _ (fun _ _ => ?_)).trans ?_)
    | with_reducible (refine (foldl_kept _ _ _ (fun _ _ => ?_)).trans ?_)
    | with_reducible (refine kept_if ?_ ?_)
    | simp [↓State.kept_mk]
    | intro _
    | dsimp only
    | split

theorem State.arrive_kept (s : State) (src : Nat) (p : Pkt) (act : State → State) (h : ∀ r, (act r).kept = r.kept) :
    (s.arrive src p act).kept = s.kept := by
  unfold State.arrive
  have h0 := State.orderCheck_kept (s.consume src p) src p
  revert h0
  dsimp only
  generalize (s.consume src p).orderCheck src p = x
  obtain ⟨o, t⟩ := x
  intro h0
  have h1 : t.kept = s.kept := by simpa using h0
  cases o
  all_goals dsimp only
  all_goals repeat' first
    | with_reducible (refine kept_if ?_ ?_)
    | simp [h, h1]

@[simp] theorem State.requestRow_kept (s : State) (src : Nat) (ops : Nat → Bool) : (State.requestRow s src ops).kept = s.kept := by
  unfold State.requestRow
  repeat' first
    | with_reducible rfl
    | assumption
    | with_reducible (refine (forEach_kept _ _ _ (fun _ _ => ?_)).trans ?_)
    | with_reducible (refine kept_if ?_ ?_)
    | with_reducible (refine (State.arrive_kept _ _ _ _ (fun _ => ?_)).trans ?_)
    | simp
    | intro _
    | dsimp only
    | split

@[simp] theorem State.modInn_kept (s : State) (f : Inn → Inn) : (State.modInn s f).kept = s.kept :=
  rfl

@[simp] theorem State.modInnCnt_kept (s : State) (f : InnCnt → InnCnt) : (State.modInnCnt s f).kept = s.kept :=
  rfl

@[simp] theorem State.sendPl_kept (s : State) (who : Requester) (op : Nat) (k : Nat) (ofs : Nat) (dst : BitVec 11) (data : Bytes) : (State.sendPl s who op k ofs dst data).kept = s.kept :=
  rfl

@[simp] theorem State.notify_kept (s : State) (k : Nat) (w : Word) (v : Nat) : (State.notify s k w v).kept = s.kept := by
  simp [State.notify]

@[simp] theorem State.dropReplicas_kept (s : State) (k : Nat) (w : Word) : (State.dropReplicas s k w).kept = s.kept := by
  unfold State.dropReplicas
  repeat' first
    | with_reducible rfl
    | assumption
    | with_reducible (refine (forEach_kept _ _ _ (fun _ _ => ?_)).trans ?_)
    | with_reducible (refine (foldl_kept _ _ _ (fun _ _ => ?_)).trans ?_)
    | with_reducible (refine kept_if ?_ ?_)
    | simp

@[simp] theorem State.endAtHash_kept (s : State) (k : Nat) (w : Word) (v : Nat) : (State.endAtHash s k w v).kept = s.kept := by
  simp [State.endAtHash]

@[simp] theorem State.recordMove_kept (s : State) (k : Nat) (w : Word) : (State.recordMove s k w).kept = s.kept := by
  simp [State.recordMove]

@[simp] theorem State.modPl_kept (s : State) (id : Nat) (f : Placement → Placement) : (State.modPl s id f).kept = s.kept :=
  rfl

@[simp] theorem State.endPl_kept (s : State) (id : Nat) : (State.endPl s id).kept = s.kept :=
  rfl

@[simp] theorem State.lead_kept (s : State) (k : Nat) (w : Word) : (State.lead s k w).kept = s.kept := by
  simp [State.lead]

@[simp] theorem State.copyGo_kept (s : State) (id n : Nat) : (s.copyGo id n).kept = s.kept := by
  induction n generalizing s with
  | zero => rfl
  | succ n ih =>
    unfold State.copyGo
    repeat' first
      | with_reducible rfl
      | assumption
      | with_reducible (refine (forEach_kept _ _ _ (fun _ _ => ?_)).trans ?_)
      | with_reducible (refine (foldl_kept _ _ _ (fun _ _ => ?_)).trans ?_)
      | with_reducible (refine kept_if ?_ ?_)
      | simp [ih]
      | intro _
      | dsimp only
      | split

@[simp] theorem State.pumpPl_kept (s : State) (id : Nat) : (State.pumpPl s id).kept = s.kept := by
  unfold State.pumpPl
  repeat' first
    | with_reducible rfl
    | assumption
    | with_reducible (refine (forEach_kept _ _ _ (fun _ _ => ?_)).trans ?_)
    | with_reducible (refine (foldl_kept _ _ _ (fun _ _ => ?_)).trans ?_)
    | with_reducible (refine kept_if ?_ ?_)
    | simp
    | intro _
    | dsimp only
    | split

@[simp] theorem State.pumpPls_kept (s : State) : (State.pumpPls s).kept = s.kept := by
  unfold State.pumpPls
  repeat' first
    | with_reducible rfl
    | assumption
    | with_reducible (refine (forEach_kept _ _ _ (fun _ _ => ?_)).trans ?_)
    | with_reducible (refine (foldl_kept _ _ _ (fun _ _ => ?_)).trans ?_)
    | with_reducible (refine kept_if ?_ ?_)
    | simp

@[simp] theorem State.performHeld_kept (s : State) (id : Nat) : (State.performHeld s id).kept = s.kept := by
  unfold State.performHeld; refine (forEach_kept _ _ _ fun _ _ => ?_).trans ?_ <;> simp [↓State.kept_mk]

@[simp] theorem State.releaseHeld_kept (s : State) (id : Nat) (to_ : BitVec 11) : (State.releaseHeld s id to_).kept = s.kept := by
  simp [State.releaseHeld, ↓State.kept_mk]

@[simp] theorem State.turnLodge_kept (s : State) (a b k : Nat) (f : Lodge → Lodge) : (State.turnLodge s a b k f).kept = s.kept := by
  unfold State.turnLodge
  repeat' first
    | with_reducible rfl
    | assumption
    | with_reducible (refine (forEach_kept _ _ _ (fun _ _ => ?_)).trans ?_)
    | with_reducible (refine (foldl_kept _ _ _ (fun _ _ => ?_)).trans ?_)
    | with_reducible (refine kept_if ?_ ?_)
    | simp [↓State.kept_mk]
    | intro _
    | dsimp only
    | split

@[simp] theorem State.flip_kept (s : State) (k : Nat) (to_ : BitVec 11) : (State.flip s k to_).kept = s.kept := by
  simp [State.flip]

@[simp] theorem State.directHash_kept (s : State) (l : Placement) (kind : Nat) : (State.directHash s l kind).kept = s.kept := by
  simp [State.directHash]

@[simp] theorem State.abandonPl_kept (s : State) (l : Placement) : (State.abandonPl s l).kept = s.kept := by
  simp [State.abandonPl]

@[simp] theorem State.pageRefused_kept (s : State) (k : Nat) : (State.pageRefused s k).kept = s.kept := by
  unfold State.pageRefused
  repeat' first
    | with_reducible rfl
    | assumption
    | with_reducible (refine (forEach_kept _ _ _ (fun _ _ => ?_)).trans ?_)
    | with_reducible (refine (foldl_kept _ _ _ (fun _ _ => ?_)).trans ?_)
    | with_reducible (refine kept_if ?_ ?_)
    | simp [↓State.kept_mk]
    | intro _
    | dsimp only
    | split

@[simp] theorem State.plAnswer_kept (s : State) (id op st v : Nat) : (State.plAnswer s id op st v).kept = s.kept := by
  unfold State.plAnswer; repeat' split
  all_goals simp

@[simp] theorem State.plReadDone_kept (s : State) (id ofs : Nat) (j : Job) (n : Nat) : (State.plReadDone s id ofs j n).kept = s.kept := by
  unfold State.plReadDone; split <;> simp

@[simp] theorem State.grant_kept (s : State) (k src : Nat) (w : Word) : (State.grant s k src w).kept = s.kept := by
  unfold State.grant; repeat' split
  all_goals simp

@[simp] theorem State.ask_kept (s : State) (p : Pkt) : (State.ask s p).kept = s.kept := by
  simp [State.ask]

@[simp] theorem State.granted_kept (s : State) (k : Nat) (w : Word) : (State.granted s k w).kept = s.kept := by
  simp [State.granted]

@[simp] theorem State.verdictSeen_kept (s : State) (k : Nat) (w : Word) (v : Nat) : (State.verdictSeen s k w v).kept = s.kept := by
  unfold State.verdictSeen
  repeat' first
    | with_reducible rfl
    | assumption
    | with_reducible (refine (forEach_kept _ _ _ (fun _ _ => ?_)).trans ?_)
    | with_reducible (refine (foldl_kept _ _ _ (fun _ _ => ?_)).trans ?_)
    | with_reducible (refine kept_if ?_ ?_)
    | simp [↓State.kept_mk]
    | intro _
    | dsimp only
    | split

@[simp] theorem State.plMove_kept (s : State) (p : Pkt) : (State.plMove s p).kept = s.kept := by
  unfold State.plMove
  repeat' first
    | with_reducible rfl
    | assumption
    | with_reducible (refine (forEach_kept _ _ _ (fun _ _ => ?_)).trans ?_)
    | with_reducible (refine (foldl_kept _ _ _ (fun _ _ => ?_)).trans ?_)
    | with_reducible (refine kept_if ?_ ?_)
    | simp
    | intro _
    | dsimp only
    | split

@[simp] theorem State.plOpen_kept (s : State) (p : Pkt) : (State.plOpen s p).kept = s.kept := by
  unfold State.plOpen
  repeat' first
    | with_reducible rfl
    | assumption
    | with_reducible (refine (forEach_kept _ _ _ (fun _ _ => ?_)).trans ?_)
    | with_reducible (refine (foldl_kept _ _ _ (fun _ _ => ?_)).trans ?_)
    | with_reducible (refine kept_if ?_ ?_)
    | simp [↓State.kept_mk]
    | intro _
    | dsimp only
    | split

@[simp] theorem State.plDataRx_kept (s : State) (p : Pkt) : (State.plDataRx s p).kept = s.kept := by
  unfold State.plDataRx; split <;> simp

@[simp] theorem State.plCommit_kept (s : State) (p : Pkt) : (State.plCommit s p).kept = s.kept := by
  unfold State.plCommit
  repeat' first
    | with_reducible rfl
    | assumption
    | with_reducible (refine (forEach_kept _ _ _ (fun _ _ => ?_)).trans ?_)
    | with_reducible (refine (foldl_kept _ _ _ (fun _ _ => ?_)).trans ?_)
    | with_reducible (refine kept_if ?_ ?_)
    | simp
    | intro _
    | dsimp only
    | split

@[simp] theorem State.plDir_kept (s : State) (p : Pkt) : (State.plDir s p).kept = s.kept := by
  simp [State.plDir]

@[simp] theorem State.plDrop_kept (s : State) (p : Pkt) : (State.plDrop s p).kept = s.kept := by
  unfold State.plDrop
  repeat' first
    | with_reducible rfl
    | assumption
    | with_reducible (refine (forEach_kept _ _ _ (fun _ _ => ?_)).trans ?_)
    | with_reducible (refine (foldl_kept _ _ _ (fun _ _ => ?_)).trans ?_)
    | with_reducible (refine kept_if ?_ ?_)
    | simp
    | intro _
    | dsimp only
    | split

theorem State.askRepair_kept (s : State) (p : Pkt) (src : Nat) (t : State) (h : s.askRepair p src = some t) :
    t.kept = s.kept := by
  unfold State.askRepair at h
  obtain ⟨u, hu, rfl⟩ := Option.map_eq_some_iff.mp h
  rw [State.sendPl_kept, State.takeOnward_kept _ _ _ _ _ _ hu, State.fresh_kept]

@[simp] theorem State.repaired_kept (s : State) (id k : Nat) (ok : Bool) (chip : BitVec 11) : (State.repaired s id k ok chip).kept = s.kept := by
  unfold State.repaired
  repeat' first
    | with_reducible rfl
    | assumption
    | with_reducible (refine (forEach_kept _ _ _ (fun _ _ => ?_)).trans ?_)
    | with_reducible (refine (foldl_kept _ _ _ (fun _ _ => ?_)).trans ?_)
    | with_reducible (refine kept_if ?_ ?_)
    | simp [↓State.kept_mk]

@[simp] theorem State.epochEnd_kept (s : State) : (State.epochEnd s).kept = s.kept := by
  unfold State.epochEnd
  repeat' first
    | with_reducible rfl
    | assumption
    | with_reducible (refine (forEach_kept _ _ _ (fun _ _ => ?_)).trans ?_)
    | with_reducible (refine (foldl_kept _ _ _ (fun _ _ => ?_)).trans ?_)
    | with_reducible (refine kept_if ?_ ?_)
    | simp
    | intro _

@[simp] theorem State.askAnswer_kept (s : State) (id k : Nat) (w : Word) (st : Nat) (data : Bytes) : (State.askAnswer s id k w st data).kept = s.kept := by
  unfold State.askAnswer
  repeat' first
    | with_reducible rfl
    | assumption
    | with_reducible (refine (forEach_kept _ _ _ (fun _ _ => ?_)).trans ?_)
    | with_reducible (refine (foldl_kept _ _ _ (fun _ _ => ?_)).trans ?_)
    | with_reducible (refine kept_if ?_ ?_)
    | simp [↓State.kept_mk]
    | intro _
    | dsimp only
    | split

@[simp] theorem State.plRow_kept (s : State) (src op : Nat) (act : Pkt → State → State) (h_act : ∀ x0 r, (act x0 r).kept = r.kept) : (State.plRow s src op act).kept = s.kept := by
  unfold State.plRow
  repeat' first
    | with_reducible rfl
    | assumption
    | with_reducible (refine (forEach_kept _ _ _ (fun _ _ => ?_)).trans ?_)
    | with_reducible (refine (foldl_kept _ _ _ (fun _ _ => ?_)).trans ?_)
    | with_reducible (refine kept_if ?_ ?_)
    | simp [h_act]
    | intro _
    | dsimp only
    | split

@[simp] theorem State.prbsSettle_kept (s : State) (n : Nat) : (State.prbsSettle s n).kept = s.kept := by
  simp [State.prbsSettle]

@[simp] theorem State.laneSettle_kept (s : State) (n o : Nat) : (State.laneSettle s n o).kept = s.kept := by
  unfold State.laneSettle
  repeat' first
    | with_reducible rfl
    | assumption
    | with_reducible (refine (forEach_kept _ _ _ (fun _ _ => ?_)).trans ?_)
    | with_reducible (refine (foldl_kept _ _ _ (fun _ _ => ?_)).trans ?_)
    | with_reducible (refine kept_if ?_ ?_)
    | simp [↓State.kept_mk]
    | intro _
    | dsimp only
    | split

@[simp] theorem State.checked_kept (s : State) (q : Nat) (l : List Nat) (k : State → State) (h_k : ∀  r, (k  r).kept = r.kept) : (State.checked s q l k).kept = s.kept := by
  unfold State.checked
  repeat' first
    | with_reducible rfl
    | assumption
    | with_reducible (refine (forEach_kept _ _ _ (fun _ _ => ?_)).trans ?_)
    | with_reducible (refine (foldl_kept _ _ _ (fun _ _ => ?_)).trans ?_)
    | with_reducible (refine kept_if ?_ ?_)
    | simp [h_k]

@[simp] theorem State.legal_kept (s : State) (q : Nat) (c : Bool) (k : State → State) (h_k : ∀  r, (k  r).kept = r.kept) : (State.legal s q c k).kept = s.kept := by
  unfold State.legal
  repeat' first
    | with_reducible rfl
    | assumption
    | with_reducible (refine (forEach_kept _ _ _ (fun _ _ => ?_)).trans ?_)
    | with_reducible (refine (foldl_kept _ _ _ (fun _ _ => ?_)).trans ?_)
    | with_reducible (refine kept_if ?_ ?_)
    | simp [h_k]

@[simp] theorem State.owned_kept (s : State) (q n : Nat) (k : State → State) (h_k : ∀  r, (k  r).kept = r.kept) : (State.owned s q n k).kept = s.kept := by
  unfold State.owned
  repeat' first
    | with_reducible rfl
    | assumption
    | with_reducible (refine (forEach_kept _ _ _ (fun _ _ => ?_)).trans ?_)
    | with_reducible (refine (foldl_kept _ _ _ (fun _ _ => ?_)).trans ?_)
    | with_reducible (refine kept_if ?_ ?_)
    | simp [h_k]

@[simp] theorem State.p0Only_kept (s : State) (q : Nat) (k : State → State) (h_k : ∀  r, (k  r).kept = r.kept) : (State.p0Only s q k).kept = s.kept := by
  unfold State.p0Only
  repeat' first
    | with_reducible rfl
    | assumption
    | with_reducible (refine (forEach_kept _ _ _ (fun _ _ => ?_)).trans ?_)
    | with_reducible (refine (foldl_kept _ _ _ (fun _ _ => ?_)).trans ?_)
    | with_reducible (refine kept_if ?_ ?_)
    | simp [h_k]

@[simp] theorem State.modInsn_kept (s : State) (q : Nat) (f : Insn → Insn) : (State.modInsn s q f).kept = s.kept :=
  rfl

@[simp] theorem State.insnRow_kept (s : State) (n : Nat) (word : BitVec 128) (body : Nat → State → State) (h_body : ∀ x0 r, (body x0 r).kept = r.kept) : (State.insnRow s n word body).kept = s.kept := by
  unfold State.insnRow
  repeat' first
    | with_reducible rfl
    | assumption
    | with_reducible (refine (forEach_kept _ _ _ (fun _ _ => ?_)).trans ?_)
    | with_reducible (refine (foldl_kept _ _ _ (fun _ _ => ?_)).trans ?_)
    | with_reducible (refine kept_if ?_ ?_)
    | simp [h_body]
    | intro _
    | dsimp only
    | split

@[simp] theorem State.jump_kept (s : State) (q x : Nat) (writes : List (Nat × Word)) : (State.jump s q x writes).kept = s.kept := by
  simp [State.jump]

@[simp] theorem insnSetg_kept (q : Nat) (w : Fields) (s : State) : (insnSetg q w s).kept = s.kept := by
  simp [insnSetg]

@[simp] theorem insnAddg_kept (q : Nat) (w : Fields) (s : State) : (insnAddg q w s).kept = s.kept := by
  simp [insnAddg]

@[simp] theorem insnJmp_kept (q : Nat) (w : Fields) (s : State) : (insnJmp q w s).kept = s.kept := by
  simp [insnJmp]

@[simp] theorem insnBnz_kept (q : Nat) (w : Fields) (s : State) : (insnBnz q w s).kept = s.kept := by
  simp [insnBnz]

@[simp] theorem insnLoop_kept (q : Nat) (w : Fields) (s : State) : (insnLoop q w s).kept = s.kept := by
  simp [insnLoop]

@[simp] theorem insnHalt_kept (q : Nat) (w : Fields) (s : State) : (insnHalt q w s).kept = s.kept := by
  simp [insnHalt]

@[simp] theorem insnYield_kept (q : Nat) (w : Fields) (s : State) : (insnYield q w s).kept = s.kept := by
  unfold insnYield
  repeat' first
    | with_reducible rfl
    | assumption
    | with_reducible (refine (forEach_kept _ _ _ (fun _ _ => ?_)).trans ?_)
    | with_reducible (refine kept_if ?_ ?_)
    | with_reducible (refine (State.legal_kept _ _ _ _ (fun _ => ?_)).trans ?_)
    | simp
    | intro _
    | dsimp only
    | split

@[simp] theorem State.fabReq_kept (s : State) (q : Nat) (a : Word) (n op bf : Nat) (data : Bytes) (leg : Leg) (write ordered : Bool) : (State.fabReq s q a n op bf data leg write ordered).kept = s.kept :=
  rfl

@[simp] theorem State.movePiece_kept (s : State) (q : Nat) (fabDst fabSrc : Bool) (piece : Insn → Word → Word → Nat → State → State) (h_piece : ∀ i x0 x1 x2 r, (piece i x0 x1 x2 r).kept = r.kept) : (State.movePiece s q fabDst fabSrc piece).kept = s.kept := by
  unfold State.movePiece
  repeat' first
    | with_reducible rfl
    | assumption
    | with_reducible (refine (forEach_kept _ _ _ (fun _ _ => ?_)).trans ?_)
    | with_reducible (refine (foldl_kept _ _ _ (fun _ _ => ?_)).trans ?_)
    | with_reducible (refine kept_if ?_ ?_)
    | simp [h_piece]
    | intro _
    | dsimp only
    | split

@[simp] theorem State.move_kept (s : State) (q : Nat) (dst src len : Word) (checks : List Nat) (fabDst fabSrc : Bool) (piece : Insn → Word → Word → Nat → State → State) (h_piece : ∀ i x0 x1 x2 r, (piece i x0 x1 x2 r).kept = r.kept) : (State.move s q dst src len checks fabDst fabSrc piece).kept = s.kept := by
  unfold State.move
  repeat' first
    | with_reducible rfl
    | assumption
    | with_reducible (refine (forEach_kept _ _ _ (fun _ _ => ?_)).trans ?_)
    | with_reducible (refine kept_if ?_ ?_)
    | with_reducible (refine (State.checked_kept _ _ _ _ (fun _ => ?_)).trans ?_)
    | with_reducible (refine (State.movePiece_kept _ _ _ _ _ (fun _ _ _ _ _ => ?_)).trans ?_)
    | simp [h_piece]
    | intro _
    | dsimp only
    | split

@[simp] theorem insnCopy_kept (q : Nat) (w : Fields) (s : State) : (insnCopy q w s).kept = s.kept := by
  unfold insnCopy
  repeat' first
    | with_reducible rfl
    | assumption
    | with_reducible (refine (forEach_kept _ _ _ (fun _ _ => ?_)).trans ?_)
    | with_reducible (refine kept_if ?_ ?_)
    | with_reducible (refine (State.legal_kept _ _ _ _ (fun _ => ?_)).trans ?_)
    | with_reducible (refine (State.move_kept _ _ _ _ _ _ _ _ _ (fun _ _ _ _ _ => ?_)).trans ?_)
    | simp

@[simp] theorem insnPut_kept (q : Nat) (w : Fields) (s : State) : (insnPut q w s).kept = s.kept := by
  unfold insnPut
  repeat' first
    | with_reducible rfl
    | assumption
    | with_reducible (refine (forEach_kept _ _ _ (fun _ _ => ?_)).trans ?_)
    | with_reducible (refine kept_if ?_ ?_)
    | with_reducible (refine (State.legal_kept _ _ _ _ (fun _ => ?_)).trans ?_)
    | with_reducible (refine (State.move_kept _ _ _ _ _ _ _ _ _ (fun _ _ _ _ _ => ?_)).trans ?_)
    | simp

@[simp] theorem insnGet_kept (q : Nat) (w : Fields) (s : State) : (insnGet q w s).kept = s.kept := by
  unfold insnGet
  repeat' first
    | with_reducible rfl
    | assumption
    | with_reducible (refine (forEach_kept _ _ _ (fun _ _ => ?_)).trans ?_)
    | with_reducible (refine kept_if ?_ ?_)
    | with_reducible (refine (State.legal_kept _ _ _ _ (fun _ => ?_)).trans ?_)
    | with_reducible (refine (State.move_kept _ _ _ _ _ _ _ _ _ (fun _ _ _ _ _ => ?_)).trans ?_)
    | simp

@[simp] theorem insnPuti_kept (q : Nat) (w : Fields) (s : State) : (insnPuti q w s).kept = s.kept := by
  unfold insnPuti
  repeat' first
    | with_reducible rfl
    | assumption
    | with_reducible (refine (forEach_kept _ _ _ (fun _ _ => ?_)).trans ?_)
    | with_reducible (refine kept_if ?_ ?_)
    | with_reducible (refine (State.legal_kept _ _ _ _ (fun _ => ?_)).trans ?_)
    | with_reducible (refine (State.checked_kept _ _ _ _ (fun _ => ?_)).trans ?_)
    | with_reducible (refine (State.move_kept _ _ _ _ _ _ _ _ _ (fun _ _ _ _ _ => ?_)).trans ?_)
    | simp

@[simp] theorem insnFill_kept (q : Nat) (w : Fields) (s : State) : (insnFill q w s).kept = s.kept := by
  unfold insnFill
  refine State.legal_kept _ _ _ _ fun s => ?_
  exact State.move_kept _ _ _ _ _ _ _ _ _ fun _ _ _ _ _ => by rw [State.modReq_kept, State.fabReq_kept]

@[simp] theorem State.requested_kept (s : State) (q : Nat) : (State.requested s q).kept = s.kept := by
  unfold State.requested
  repeat' first
    | with_reducible rfl
    | assumption
    | with_reducible (refine (forEach_kept _ _ _ (fun _ _ => ?_)).trans ?_)
    | with_reducible (refine (foldl_kept _ _ _ (fun _ _ => ?_)).trans ?_)
    | with_reducible (refine kept_if ?_ ?_)
    | simp [↓State.kept_mk]
    | intro _
    | dsimp only
    | split

@[simp] theorem State.atomic_kept (op : AtomOp) (q : Nat) (w : Fields) (s : State) : (State.atomic op q w s).kept = s.kept := by
  simp [State.atomic]

@[simp] theorem insnAadd_kept (q : Nat) (w : Fields) (s : State) : (insnAadd q w s).kept = s.kept := by
  simp [insnAadd]

@[simp] theorem insnAmin_kept (q : Nat) (w : Fields) (s : State) : (insnAmin q w s).kept = s.kept := by
  simp [insnAmin]

@[simp] theorem insnAmax_kept (q : Nat) (w : Fields) (s : State) : (insnAmax q w s).kept = s.kept := by
  simp [insnAmax]

@[simp] theorem insnAand_kept (q : Nat) (w : Fields) (s : State) : (insnAand q w s).kept = s.kept := by
  simp [insnAand]

@[simp] theorem insnAor_kept (q : Nat) (w : Fields) (s : State) : (insnAor q w s).kept = s.kept := by
  simp [insnAor]

@[simp] theorem insnAxor_kept (q : Nat) (w : Fields) (s : State) : (insnAxor q w s).kept = s.kept := by
  simp [insnAxor]

@[simp] theorem insnAswp_kept (q : Nat) (w : Fields) (s : State) : (insnAswp q w s).kept = s.kept := by
  simp [insnAswp]

@[simp] theorem insnAcas_kept (q : Nat) (w : Fields) (s : State) : (insnAcas q w s).kept = s.kept := by
  simp [insnAcas]

@[simp] theorem State.doSig_kept (s : State) (q : Nat) (w : Fields) (v : Word) : (State.doSig s q w v).kept = s.kept := by
  simp [State.doSig]

@[simp] theorem State.doRsig_kept (s : State) (q : Nat) (w : Fields) (v : Word) : (State.doRsig s q w v).kept = s.kept := by
  simp [State.doRsig]

@[simp] theorem insnSig_kept (q : Nat) (w : Fields) (s : State) : (insnSig q w s).kept = s.kept := by
  simp [insnSig]

@[simp] theorem insnWait_kept (q : Nat) (w : Fields) (s : State) : (insnWait q w s).kept = s.kept := by
  simp [insnWait]

@[simp] theorem insnRsig_kept (q : Nat) (w : Fields) (s : State) : (insnRsig q w s).kept = s.kept := by
  simp [insnRsig]

@[simp] theorem insnFence_kept (q : Nat) (w : Fields) (s : State) : (insnFence q w s).kept = s.kept := by
  simp [insnFence]

@[simp] theorem State.placeAsk_kept (s : State) (q k : Nat) (w : Word) : (State.placeAsk s q k w).kept = s.kept :=
  rfl

@[simp] theorem State.place1_kept (kind q : Nat) (w : Fields) (s : State) : (State.place1 kind q w s).kept = s.kept := by
  unfold State.place1; refine kept_if ?_ ?_ <;> simp

@[simp] theorem insnPin_kept (q : Nat) (w : Fields) (s : State) : (insnPin q w s).kept = s.kept := by
  simp [insnPin]

@[simp] theorem insnUnpin_kept (q : Nat) (w : Fields) (s : State) : (insnUnpin q w s).kept = s.kept := by
  simp [insnUnpin]

@[simp] theorem insnMigr_kept (q : Nat) (w : Fields) (s : State) : (insnMigr q w s).kept = s.kept := by
  simp [insnMigr]

@[simp] theorem insnRepl_kept (q : Nat) (w : Fields) (s : State) : (insnRepl q w s).kept = s.kept := by
  simp [insnRepl]

@[simp] theorem insnUnrepl_kept (q : Nat) (w : Fields) (s : State) : (insnUnrepl q w s).kept = s.kept := by
  simp [insnUnrepl]

@[simp] theorem insnHint_kept (q : Nat) (w : Fields) (s : State) : (insnHint q w s).kept = s.kept := by
  unfold insnHint
  repeat' first
    | with_reducible rfl
    | assumption
    | with_reducible (refine (forEach_kept _ _ _ (fun _ _ => ?_)).trans ?_)
    | with_reducible (refine kept_if ?_ ?_)
    | with_reducible (refine (State.legal_kept _ _ _ _ (fun _ => ?_)).trans ?_)
    | with_reducible (refine (State.checked_kept _ _ _ _ (fun _ => ?_)).trans ?_)
    | simp

@[simp] theorem State.slipEnd_kept (s : State) (q : Nat) (w : Fields) : (State.slipEnd s q w).kept = s.kept := by
  simp [State.slipEnd]

@[simp] theorem State.settleQueue_kept (s : State) (q : Nat) : (State.settleQueue s q).kept = s.kept := by
  unfold State.settleQueue
  repeat' first
    | with_reducible rfl
    | assumption
    | with_reducible (refine (forEach_kept _ _ _ (fun _ _ => ?_)).trans ?_)
    | with_reducible (refine (foldl_kept _ _ _ (fun _ _ => ?_)).trans ?_)
    | with_reducible (refine kept_if ?_ ?_)
    | simp
    | intro _
    | dsimp only
    | split

@[simp] theorem State.settleQueues_kept (s : State) : (State.settleQueues s).kept = s.kept := by
  unfold State.settleQueues
  repeat' first
    | with_reducible rfl
    | assumption
    | with_reducible (refine (forEach_kept _ _ _ (fun _ _ => ?_)).trans ?_)
    | with_reducible (refine (foldl_kept _ _ _ (fun _ _ => ?_)).trans ?_)
    | with_reducible (refine kept_if ?_ ?_)
    | simp

@[simp] theorem State.answerQueue_kept (s : State) (q seq : Nat) (writes : List (Nat × Word)) : (State.answerQueue s q seq writes).kept = s.kept := by
  simp [State.answerQueue]

end Sys2Proof.Machine
end

