-- ==== Sys2Proof/Laws/KeptGroups.lean ====
section
/-! SUPPORT. What the operations of groups, the Samovar, the sip trees, tastes and committed tables keep (`State.kept`). -/

namespace Sys2Proof.Machine

set_option Elab.async false

@[simp] theorem State.setGrp_kept (s : State) (g : Nat) (d : Grp) : (State.setGrp s g d).kept = s.kept :=
  rfl

@[simp] theorem State.modGrp_kept (s : State) (g : Nat) (f : Grp → Grp) : (State.modGrp s g f).kept = s.kept :=
  rfl

@[simp] theorem State.modSmv_kept (s : State) (f : SmvStat → SmvStat) : (State.modSmv s f).kept = s.kept :=
  rfl

@[simp] theorem State.sipSpread_kept (s : State) (g : Nat) (op : BitVec 8) (ctl : Word) (from_ : Option Nat) : (State.sipSpread s g op ctl from_).kept = s.kept := by
  unfold State.sipSpread
  repeat' first
    | with_reducible rfl
    | assumption
    | with_reducible (refine (forEach_kept _ _ _ (fun _ _ => ?_)).trans ?_)
    | with_reducible (refine (foldl_kept _ _ _ (fun _ _ => ?_)).trans ?_)
    | with_reducible (refine kept_if ?_ ?_)
    | simp

@[simp] theorem State.slowLimit_kept (s : State) (g : Nat) : (State.slowLimit s g).kept = s.kept :=
  rfl

@[simp] theorem State.slowNotice_kept (s : State) (g : Nat) : (State.slowNotice s g).kept = s.kept := by
  simp [State.slowNotice]

@[simp] theorem State.slowNotices_kept (s : State) : (State.slowNotices s).kept = s.kept := by
  unfold State.slowNotices; refine (forEach_kept _ _ _ fun _ _ => ?_).trans ?_ <;> simp

@[simp] theorem State.startLimit_kept (s : State) (g : Nat) : (State.startLimit s g).kept = s.kept :=
  rfl

@[simp] theorem State.advanceLimit_kept (s : State) (g : Nat) : (State.advanceLimit s g).kept = s.kept :=
  rfl

@[simp] theorem State.endLimit_kept (s : State) (g : Nat) : (State.endLimit s g).kept = s.kept :=
  rfl

@[simp] theorem State.voidJobs_kept (s : State) (f : JobFor → Bool) : (State.voidJobs s f).kept = s.kept :=
  rfl

@[simp] theorem State.takeAbort_kept (s : State) (g cause : Nat) (origin : BitVec 11) (from_ : Option Nat) (code : Nat) : (State.takeAbort s g cause origin from_ code).kept = s.kept := by
  unfold State.takeAbort
  repeat' first
    | with_reducible rfl
    | assumption
    | with_reducible (refine (forEach_kept _ _ _ (fun _ _ => ?_)).trans ?_)
    | with_reducible (refine (foldl_kept _ _ _ (fun _ _ => ?_)).trans ?_)
    | with_reducible (refine kept_if ?_ ?_)
    | simp
    | intro _
    | dsimp only
    | split

@[simp] theorem State.abortGroup_kept (s : State) (g cause : Nat) (code : Nat) : (State.abortGroup s g cause code).kept = s.kept := by
  simp [State.abortGroup]

@[simp] theorem State.faultComm_kept (s : State) : (State.faultComm s).kept = s.kept := by
  unfold State.faultComm
  repeat' first
    | with_reducible rfl
    | assumption
    | with_reducible (refine (forEach_kept _ _ _ (fun _ _ => ?_)).trans ?_)
    | with_reducible (refine (foldl_kept _ _ _ (fun _ _ => ?_)).trans ?_)
    | with_reducible (refine kept_if ?_ ?_)
    | simp [↓State.kept_mk]
    | intro _
    | dsimp only
    | split

@[simp] theorem State.modSlot_kept (s : State) (g num : Nat) (f : SChunk → SChunk) : (State.modSlot s g num f).kept = s.kept :=
  rfl

@[simp] theorem State.writeHeader_kept (s : State) (g : Nat) (c : Coll) (k : SChunk) (rack : Bool) (st : Nat) (recs : Bytes) : (State.writeHeader s g c k rack st recs).kept = s.kept := by
  unfold State.writeHeader
  repeat' first
    | with_reducible rfl
    | assumption
    | with_reducible (refine (forEach_kept _ _ _ (fun _ _ => ?_)).trans ?_)
    | with_reducible (refine (foldl_kept _ _ _ (fun _ _ => ?_)).trans ?_)
    | with_reducible (refine kept_if ?_ ?_)
    | simp [↓State.kept_mk]
    | intro _
    | dsimp only
    | split

@[simp] theorem State.writeHeaders_kept (s : State) (g : Nat) (c : Coll) (k : SChunk) (parked : Bool) : (State.writeHeaders s g c k parked).kept = s.kept := by
  unfold State.writeHeaders
  repeat' first
    | with_reducible rfl
    | assumption
    | with_reducible (refine (forEach_kept _ _ _ (fun _ _ => ?_)).trans ?_)
    | with_reducible (refine (foldl_kept _ _ _ (fun _ _ => ?_)).trans ?_)
    | with_reducible (refine kept_if ?_ ?_)
    | simp [↓State.kept_mk]
    | intro _
    | dsimp only
    | split

@[simp] theorem State.openHeaders_kept (s : State) (g : Nat) (c : Coll) (k : SChunk) : (State.openHeaders s g c k).kept = s.kept := by
  unfold State.openHeaders
  repeat' first
    | with_reducible rfl
    | assumption
    | with_reducible (refine (forEach_kept _ _ _ (fun _ _ => ?_)).trans ?_)
    | with_reducible (refine (foldl_kept _ _ _ (fun _ _ => ?_)).trans ?_)
    | with_reducible (refine kept_if ?_ ?_)
    | simp [↓State.kept_mk]
    | intro _
    | dsimp only
    | split

@[simp] theorem State.setStage_kept (s : State) (g : Nat) (c : Coll) (num : Nat) (rack : Bool) (st : Nat) : (State.setStage s g c num rack st).kept = s.kept := by
  unfold State.setStage
  repeat' first
    | with_reducible rfl
    | assumption
    | with_reducible (refine (forEach_kept _ _ _ (fun _ _ => ?_)).trans ?_)
    | with_reducible (refine (foldl_kept _ _ _ (fun _ _ => ?_)).trans ?_)
    | with_reducible (refine kept_if ?_ ?_)
    | simp
    | intro _
    | dsimp only
    | split

@[simp] theorem State.writeRecord_kept (s : State) (g : Nat) (k : SChunk) (rack : Bool) (j : Nat) (x : Contrib) : (State.writeRecord s g k rack j x).kept = s.kept := by
  simp [State.writeRecord]

@[simp] theorem State.clOut_kept (s : State) (g : Nat) (l : List Pkt) : (State.clOut s g l).kept = s.kept := by
  unfold State.clOut
  repeat' first
    | with_reducible rfl
    | assumption
    | with_reducible (refine (forEach_kept _ _ _ (fun _ _ => ?_)).trans ?_)
    | with_reducible (refine (foldl_kept _ _ _ (fun _ _ => ?_)).trans ?_)
    | with_reducible (refine kept_if ?_ ?_)
    | simp [↓State.kept_mk]
    | intro _
    | dsimp only
    | split

@[simp] theorem State.clSend_kept (s : State) (g : Nat) (c : Coll) (rack : Bool) (chunk sub dsub dst : Nat) (b : Bytes) : (State.clSend s g c rack chunk sub dsub dst b).kept = s.kept := by
  unfold State.clSend
  repeat' first
    | with_reducible rfl
    | assumption
    | with_reducible (refine (forEach_kept _ _ _ (fun _ _ => ?_)).trans ?_)
    | with_reducible (refine (foldl_kept _ _ _ (fun _ _ => ?_)).trans ?_)
    | with_reducible (refine kept_if ?_ ?_)
    | simp [↓State.kept_mk]
    | intro _
    | dsimp only
    | split

@[simp] theorem State.clTurn_kept (s : State) (port g : Nat) : (State.clTurn s port g).kept = s.kept := by
  unfold State.clTurn
  repeat' first
    | with_reducible rfl
    | assumption
    | with_reducible (refine (forEach_kept _ _ _ (fun _ _ => ?_)).trans ?_)
    | with_reducible (refine (foldl_kept _ _ _ (fun _ _ => ?_)).trans ?_)
    | with_reducible (refine kept_if ?_ ?_)
    | simp [↓State.kept_mk]
    | intro _
    | dsimp only
    | split

@[simp] theorem State.clRound_kept (port : Nat) (s : State) : (State.clRound port s).kept = s.kept := by
  unfold State.clRound
  repeat' first
    | with_reducible rfl
    | assumption
    | with_reducible (refine (forEach_kept _ _ _ (fun _ _ => ?_)).trans ?_)
    | with_reducible (refine (foldl_kept _ _ _ (fun _ _ => ?_)).trans ?_)
    | with_reducible (refine kept_if ?_ ?_)
    | simp [↓State.kept_mk]
    | intro _
    | dsimp only
    | split

@[simp] theorem State.clDrainGo_kept (port n : Nat) (s : State) : (State.clDrainGo port n s).kept = s.kept := by
  induction n generalizing s with
  | zero => rfl
  | succ n ih =>
    unfold State.clDrainGo
    exact kept_if ((ih _).trans (State.clRound_kept _ _)) rfl

@[simp] theorem State.clDrain_kept (s : State) : (State.clDrain s).kept = s.kept := by
  unfold State.clDrain
  exact kept_if rfl (forEach_kept _ _ _ fun _ _ => State.clDrainGo_kept _ _ _)

@[simp] theorem State.waitGroup_kept (s : State) (g : Nat) : (State.waitGroup s g).kept = s.kept :=
  rfl

@[simp] theorem State.wakeGroups_kept (s : State) : (State.wakeGroups s).kept = s.kept := by
  unfold State.wakeGroups
  repeat' first
    | with_reducible rfl
    | assumption
    | with_reducible (refine (forEach_kept _ _ _ (fun _ _ => ?_)).trans ?_)
    | with_reducible (refine (foldl_kept _ _ _ (fun _ _ => ?_)).trans ?_)
    | with_reducible (refine kept_if ?_ ?_)
    | simp [↓State.kept_mk]
    | intro _
    | dsimp only
    | split

@[simp] theorem State.modColl_kept (s : State) (g : Nat) (f : Coll → Coll) : (State.modColl s g f).kept = s.kept :=
  rfl

@[simp] theorem State.startColl_kept (s : State) (g : Nat) : (State.startColl s g).kept = s.kept := by
  unfold State.startColl; split <;> simp

@[simp] theorem State.openSlot_kept (s : State) (g : Nat) : (State.openSlot s g).kept = s.kept := by
  unfold State.openSlot
  repeat' first
    | with_reducible rfl
    | assumption
    | with_reducible (refine (forEach_kept _ _ _ (fun _ _ => ?_)).trans ?_)
    | with_reducible (refine (foldl_kept _ _ _ (fun _ _ => ?_)).trans ?_)
    | with_reducible (refine kept_if ?_ ?_)
    | simp
    | intro _
    | dsimp only
    | split

@[simp] theorem State.smvRead_kept (s : State) (w : Work) (what : SmvJob) (a : Nat) (l : List (Nat × Nat)) : (State.smvRead s w what a l).kept = s.kept := by
  simp [State.smvRead]

@[simp] theorem State.destWrite_kept (s : State) (w : Work) (a o : Nat) (b : Bytes) : (State.destWrite s w a o b).kept = s.kept := by
  simp [State.destWrite]

@[simp] theorem State.goBoardSend_kept (s : State) (w : Work) : (State.goBoardSend s w).kept = s.kept := by
  unfold State.goBoardSend; refine (forEach_kept _ _ _ fun _ _ => ?_).trans ?_ <;> simp

@[simp] theorem State.goSum_kept (s : State) (w : Work) : (State.goSum s w).kept = s.kept := by
  simp [State.goSum]

@[simp] theorem State.goAdd_kept (s : State) (w : Work) (t : Nat) : (State.goAdd s w t).kept = s.kept := by
  unfold State.goAdd
  repeat' first
    | with_reducible rfl
    | assumption
    | with_reducible (refine (forEach_kept _ _ _ (fun _ _ => ?_)).trans ?_)
    | with_reducible (refine (foldl_kept _ _ _ (fun _ _ => ?_)).trans ?_)
    | with_reducible (refine kept_if ?_ ?_)
    | simp [↓State.kept_mk]
    | intro _
    | dsimp only
    | split

theorem State.takeSum_kept (s : State) (w : Work) {t : State} (h : State.takeSum s w = some t) : t.kept = s.kept := by
  unfold State.takeSum at h
  split at h
  · cases h
    exact State.goSum_kept _ _
  · obtain ⟨_, _, rfl⟩ := Option.map_eq_some_iff.mp h
    exact State.goAdd_kept _ _ _

theorem State.addTurn_kept (s : State) (g : Nat) {t : State} (h : State.addTurn s g = some t) : t.kept = s.kept := by
  unfold State.addTurn at h
  split at h
  · cases h
  · obtain ⟨u, hu, rfl⟩ := Option.map_eq_some_iff.mp h
    obtain ⟨k, _, hk⟩ := List.exists_of_findSome?_eq_some hu
    obtain ⟨w, _, hw⟩ := Option.bind_eq_some_iff.mp hk
    exact (State.modSmv_kept _ _).trans (State.takeSum_kept s w hw)

@[simp] theorem State.addRounds_kept (n : Nat) (s : State) : (State.addRounds n s).kept = s.kept := by
  induction n generalizing s with
  | zero => rfl
  | succ n ih =>
    unfold State.addRounds
    dsimp only
    split
    · next t h =>
      obtain ⟨g, _, hg⟩ := List.exists_of_findSome?_eq_some h
      exact (ih t).trans (State.addTurn_kept s g hg)
    · rfl

@[simp] theorem State.goAdders_kept (s : State) : (State.goAdders s).kept = s.kept := by
  simp [State.goAdders]

@[simp] theorem State.goRing_kept (s : State) (w : Work) : (State.goRing s w).kept = s.kept := by
  unfold State.goRing
  repeat' first
    | with_reducible rfl
    | assumption
    | with_reducible (refine (forEach_kept _ _ _ (fun _ _ => ?_)).trans ?_)
    | with_reducible (refine (foldl_kept _ _ _ (fun _ _ => ?_)).trans ?_)
    | with_reducible (refine kept_if ?_ ?_)
    | simp

@[simp] theorem State.goCopy_kept (s : State) (w : Work) : (State.goCopy s w).kept = s.kept := by
  unfold State.goCopy
  repeat' first
    | with_reducible rfl
    | assumption
    | with_reducible (refine (forEach_kept _ _ _ (fun _ _ => ?_)).trans ?_)
    | with_reducible (refine (foldl_kept _ _ _ (fun _ _ => ?_)).trans ?_)
    | with_reducible (refine kept_if ?_ ?_)
    | simp

@[simp] theorem State.goFinish_kept (s : State) (w : Work) : (State.goFinish s w).kept = s.kept := by
  unfold State.goFinish
  repeat' first
    | with_reducible rfl
    | assumption
    | with_reducible (refine (forEach_kept _ _ _ (fun _ _ => ?_)).trans ?_)
    | with_reducible (refine (foldl_kept _ _ _ (fun _ _ => ?_)).trans ?_)
    | with_reducible (refine kept_if ?_ ?_)
    | simp [↓State.kept_mk]
    | intro _
    | dsimp only
    | split

@[simp] theorem State.goChunk_kept (s : State) (g num : Nat) : (State.goChunk s g num).kept = s.kept := by
  unfold State.goChunk
  repeat' first
    | with_reducible rfl
    | assumption
    | with_reducible (refine (forEach_kept _ _ _ (fun _ _ => ?_)).trans ?_)
    | with_reducible (refine (foldl_kept _ _ _ (fun _ _ => ?_)).trans ?_)
    | with_reducible (refine kept_if ?_ ?_)
    | simp
    | intro _
    | dsimp only
    | split

@[simp] theorem State.acceptColl_kept (s : State) (g : Nat) : (State.acceptColl s g).kept = s.kept := by
  unfold State.acceptColl
  repeat' first
    | with_reducible rfl
    | assumption
    | with_reducible (refine (forEach_kept _ _ _ (fun _ _ => ?_)).trans ?_)
    | with_reducible (refine (foldl_kept _ _ _ (fun _ _ => ?_)).trans ?_)
    | with_reducible (refine kept_if ?_ ?_)
    | simp
    | intro _
    | dsimp only
    | split

@[simp] theorem State.goGroup_kept (s : State) (g : Nat) : (State.goGroup s g).kept = s.kept := by
  unfold State.goGroup
  repeat' first
    | with_reducible rfl
    | assumption
    | with_reducible (refine (forEach_kept _ _ _ (fun _ _ => ?_)).trans ?_)
    | with_reducible (refine (foldl_kept _ _ _ (fun _ _ => ?_)).trans ?_)
    | with_reducible (refine kept_if ?_ ?_)
    | simp

@[simp] theorem State.goGroups_kept (s : State) : (State.goGroups s).kept = s.kept := by
  unfold State.goGroups
  repeat' first
    | with_reducible rfl
    | assumption
    | with_reducible (refine (forEach_kept _ _ _ (fun _ _ => ?_)).trans ?_)
    | with_reducible (refine (foldl_kept _ _ _ (fun _ _ => ?_)).trans ?_)
    | with_reducible (refine kept_if ?_ ?_)
    | simp

@[simp] theorem State.smvFailed_kept (s : State) (g : Nat) (j : Job) : (State.smvFailed s g j).kept = s.kept := by
  simp [State.smvFailed]

@[simp] theorem State.added_kept (s : State) (w : Work) (o : Out) (n : Nat) : (State.added s w o n).kept = s.kept := by
  simp [State.added]

@[simp] theorem State.smvEnd_kept (s : State) (g num : Nat) (what : SmvJob) (a : Nat) (j : Job) : (State.smvEnd s g num what a j).kept = s.kept := by
  unfold State.smvEnd; repeat' split
  all_goals simp

@[simp] theorem State.clRow_kept (s : State) (src op : Nat) (rack : Pkt → Bool) (act : Pkt → State → State) (h_act : ∀ x0 r, (act x0 r).kept = r.kept) : (State.clRow s src op rack act).kept = s.kept := by
  unfold State.clRow
  repeat' first
    | with_reducible rfl
    | assumption
    | with_reducible (refine (forEach_kept _ _ _ (fun _ _ => ?_)).trans ?_)
    | with_reducible (refine (foldl_kept _ _ _ (fun _ _ => ?_)).trans ?_)
    | with_reducible (refine kept_if ?_ ?_)
    | simp [h_act]
    | intro _
    | dsimp only
    | split

@[simp] theorem State.clComplete_kept (s : State) (g num : Nat) (rack : Bool) (key : Nat) : (State.clComplete s g num rack key).kept = s.kept := by
  unfold State.clComplete
  repeat' first
    | with_reducible rfl
    | assumption
    | with_reducible (refine (forEach_kept _ _ _ (fun _ _ => ?_)).trans ?_)
    | with_reducible (refine (foldl_kept _ _ _ (fun _ _ => ?_)).trans ?_)
    | with_reducible (refine kept_if ?_ ?_)
    | simp
    | intro _
    | dsimp only
    | split

@[simp] theorem State.clData_kept (s : State) (p : Pkt) (rack : Bool) : (State.clData s p rack).kept = s.kept := by
  unfold State.clData
  repeat' first
    | with_reducible rfl
    | assumption
    | with_reducible (refine (forEach_kept _ _ _ (fun _ _ => ?_)).trans ?_)
    | with_reducible (refine (foldl_kept _ _ _ (fun _ _ => ?_)).trans ?_)
    | with_reducible (refine kept_if ?_ ?_)
    | simp
    | intro _
    | dsimp only
    | split

@[simp] theorem State.clDoneRx_kept (s : State) (p : Pkt) : (State.clDoneRx s p).kept = s.kept := by
  unfold State.clDoneRx
  repeat' first
    | with_reducible rfl
    | assumption
    | with_reducible (refine (forEach_kept _ _ _ (fun _ _ => ?_)).trans ?_)
    | with_reducible (refine (foldl_kept _ _ _ (fun _ _ => ?_)).trans ?_)
    | with_reducible (refine kept_if ?_ ?_)
    | simp
    | intro _
    | dsimp only
    | split

@[simp] theorem State.parkGroup_kept (s : State) (g : Nat) : (State.parkGroup s g).kept = s.kept := by
  unfold State.parkGroup
  repeat' first
    | with_reducible rfl
    | assumption
    | with_reducible (refine (forEach_kept _ _ _ (fun _ _ => ?_)).trans ?_)
    | with_reducible (refine (foldl_kept _ _ _ (fun _ _ => ?_)).trans ?_)
    | with_reducible (refine kept_if ?_ ?_)
    | simp [↓State.kept_mk]
    | intro _
    | dsimp only
    | split

@[simp] theorem State.commOnly_kept (s : State) (q g : Nat) (k : State → State) (h_k : ∀  r, (k  r).kept = r.kept) : (State.commOnly s q g k).kept = s.kept := by
  unfold State.commOnly
  repeat' first
    | with_reducible rfl
    | assumption
    | with_reducible (refine (forEach_kept _ _ _ (fun _ _ => ?_)).trans ?_)
    | with_reducible (refine (foldl_kept _ _ _ (fun _ _ => ?_)).trans ?_)
    | with_reducible (refine kept_if ?_ ?_)
    | simp [h_k]

@[simp] theorem State.collective_kept (agt : Bool) (q : Nat) (w : Fields) (s : State) : (State.collective agt q w s).kept = s.kept := by
  unfold State.collective
  repeat' first
    | with_reducible rfl
    | assumption
    | with_reducible (refine (forEach_kept _ _ _ (fun _ _ => ?_)).trans ?_)
    | with_reducible (refine kept_if ?_ ?_)
    | with_reducible (refine (State.legal_kept _ _ _ _ (fun _ => ?_)).trans ?_)
    | with_reducible (refine (State.commOnly_kept _ _ _ _ (fun _ => ?_)).trans ?_)
    | with_reducible (refine (State.owned_kept _ _ _ _ (fun _ => ?_)).trans ?_)
    | with_reducible (refine (State.checked_kept _ _ _ _ (fun _ => ?_)).trans ?_)
    | simp

@[simp] theorem insnRsc_kept (q : Nat) (w : Fields) (s : State) : (insnRsc q w s).kept = s.kept := by
  simp [insnRsc]

@[simp] theorem insnAgt_kept (q : Nat) (w : Fields) (s : State) : (insnAgt q w s).kept = s.kept := by
  simp [insnAgt]

@[simp] theorem State.sipRelease_kept (s : State) (g : Nat) (o : SipOp) (writes : List (Nat × Word)) : (State.sipRelease s g o writes).kept = s.kept := by
  simp [State.sipRelease]

@[simp] theorem State.scaleDone_kept (s : State) (g : Nat) (o : SipOp) (x : BitVec 32) : (State.scaleDone s g o x).kept = s.kept := by
  simp [State.scaleDone]

@[simp] theorem State.sipResult_kept (s : State) (g : Nat) (o : SipOp) (data : Bytes) : (State.sipResult s g o data).kept = s.kept := by
  unfold State.sipResult
  repeat' first
    | with_reducible rfl
    | assumption
    | with_reducible (refine (forEach_kept _ _ _ (fun _ _ => ?_)).trans ?_)
    | with_reducible (refine (foldl_kept _ _ _ (fun _ _ => ?_)).trans ?_)
    | with_reducible (refine kept_if ?_ ?_)
    | simp

@[simp] theorem State.sipGo_kept (s : State) (g : Nat) : (State.sipGo s g).kept = s.kept := by
  unfold State.sipGo
  repeat' first
    | with_reducible rfl
    | assumption
    | with_reducible (refine (forEach_kept _ _ _ (fun _ _ => ?_)).trans ?_)
    | with_reducible (refine (foldl_kept _ _ _ (fun _ _ => ?_)).trans ?_)
    | with_reducible (refine kept_if ?_ ?_)
    | simp
    | intro _
    | dsimp only
    | split

@[simp] theorem State.relayGo_kept (s : State) (g : Nat) : (State.relayGo s g).kept = s.kept := by
  unfold State.relayGo
  repeat' first
    | with_reducible rfl
    | assumption
    | with_reducible (refine (forEach_kept _ _ _ (fun _ _ => ?_)).trans ?_)
    | with_reducible (refine (foldl_kept _ _ _ (fun _ _ => ?_)).trans ?_)
    | with_reducible (refine kept_if ?_ ?_)
    | simp
    | intro _
    | dsimp only
    | split

@[simp] theorem State.sipRow_kept (s : State) (src op : Nat) (act : Pkt → State → State) (h_act : ∀ x0 r, (act x0 r).kept = r.kept) : (State.sipRow s src op act).kept = s.kept := by
  unfold State.sipRow
  repeat' first
    | with_reducible rfl
    | assumption
    | with_reducible (refine (forEach_kept _ _ _ (fun _ _ => ?_)).trans ?_)
    | with_reducible (refine (foldl_kept _ _ _ (fun _ _ => ?_)).trans ?_)
    | with_reducible (refine kept_if ?_ ?_)
    | simp [h_act]
    | intro _
    | dsimp only
    | split

@[simp] theorem State.sipOpRx_kept (s : State) (p : Pkt) : (State.sipOpRx s p).kept = s.kept := by
  unfold State.sipOpRx
  repeat' first
    | with_reducible rfl
    | assumption
    | with_reducible (refine (forEach_kept _ _ _ (fun _ _ => ?_)).trans ?_)
    | with_reducible (refine (foldl_kept _ _ _ (fun _ _ => ?_)).trans ?_)
    | with_reducible (refine kept_if ?_ ?_)
    | simp
    | intro _
    | dsimp only
    | split

@[simp] theorem State.sipAbortRx_kept (s : State) (p : Pkt) : (State.sipAbortRx s p).kept = s.kept := by
  simp [State.sipAbortRx]

@[simp] theorem State.sipSlowRx_kept (s : State) (p : Pkt) : (State.sipSlowRx s p).kept = s.kept := by
  simp [State.sipSlowRx]

@[simp] theorem State.scaleMax_kept (s : State) (g : Nat) (j : Job) : (State.scaleMax s g j).kept = s.kept := by
  unfold State.scaleMax; repeat' split
  all_goals simp

@[simp] theorem State.scaleWrite_kept (s : State) (g : Nat) (j : Job) : (State.scaleWrite s g j).kept = s.kept := by
  unfold State.scaleWrite; repeat' split
  all_goals simp [↓State.kept_mk]

@[simp] theorem State.groupEnd_kept (s : State) (g num : Nat) (what : SmvJob) (a : Nat) (j : Job) : (State.groupEnd s g num what a j).kept = s.kept := by
  unfold State.groupEnd; repeat' split
  all_goals simp

@[simp] theorem State.treeOnly_kept (s : State) (q g : Nat) (k : State → State) (h_k : ∀  r, (k  r).kept = r.kept) : (State.treeOnly s q g k).kept = s.kept := by
  unfold State.treeOnly
  repeat' first
    | with_reducible rfl
    | assumption
    | with_reducible (refine (forEach_kept _ _ _ (fun _ _ => ?_)).trans ?_)
    | with_reducible (refine (foldl_kept _ _ _ (fun _ _ => ?_)).trans ?_)
    | with_reducible (refine kept_if ?_ ?_)
    | simp [h_k]

@[simp] theorem State.sipIssue_kept (s : State) (q g : Nat) (o : SipOp) : (State.sipIssue s q g o).kept = s.kept := by
  simp [State.sipIssue]

@[simp] theorem insnSipred_kept (q : Nat) (w : Fields) (s : State) : (insnSipred q w s).kept = s.kept := by
  unfold insnSipred; refine kept_if ?_ ?_ <;> simp

@[simp] theorem insnSipbar_kept (q : Nat) (w : Fields) (s : State) : (insnSipbar q w s).kept = s.kept := by
  unfold insnSipbar; refine kept_if ?_ ?_ <;> simp

@[simp] theorem insnScale_kept (q : Nat) (w : Fields) (s : State) : (insnScale q w s).kept = s.kept := by
  unfold insnScale
  repeat' first
    | with_reducible rfl
    | assumption
    | with_reducible (refine (forEach_kept _ _ _ (fun _ _ => ?_)).trans ?_)
    | with_reducible (refine kept_if ?_ ?_)
    | with_reducible (refine (State.legal_kept _ _ _ _ (fun _ => ?_)).trans ?_)
    | with_reducible (refine (State.commOnly_kept _ _ _ _ (fun _ => ?_)).trans ?_)
    | with_reducible (refine (State.treeOnly_kept _ _ _ _ (fun _ => ?_)).trans ?_)
    | with_reducible (refine (State.checked_kept _ _ _ _ (fun _ => ?_)).trans ?_)
    | simp

@[simp] theorem State.takeRecord_kept (s : State) : (State.takeRecord s).kept = s.kept := by
  unfold State.takeRecord
  repeat' first
    | with_reducible rfl
    | assumption
    | with_reducible (refine (forEach_kept _ _ _ (fun _ _ => ?_)).trans ?_)
    | with_reducible (refine (foldl_kept _ _ _ (fun _ _ => ?_)).trans ?_)
    | with_reducible (refine kept_if ?_ ?_)
    | simp
    | intro _
    | dsimp only
    | split

@[simp] theorem State.writeTraceCtl_kept (s : State) (v : Word) : (State.writeTraceCtl s v).kept = s.kept := by
  simp [State.writeTraceCtl]

@[simp] theorem State.modTst_kept (s : State) (id : Nat) (f : Taste → Taste) : (State.modTst s id f).kept = s.kept :=
  rfl

@[simp] theorem State.endTaste_kept (s : State) (t : Taste) (outcome : Nat) : (State.endTaste s t outcome).kept = s.kept := by
  simp [State.endTaste, ↓State.kept_mk]

@[simp] theorem State.sendOb_kept (s : State) (t : Taste) (o : Nat) (last : Bool) (data : Bytes) : (State.sendOb s t o last data).kept = s.kept :=
  rfl

@[simp] theorem State.startTaste_kept (s : State) (t : Taste) : (State.startTaste s t).kept = s.kept := by
  simp [State.startTaste, ↓State.kept_mk]

@[simp] theorem State.tasteGo_kept (s : State) : (State.tasteGo s).kept = s.kept := by
  unfold State.tasteGo; split <;> simp

@[simp] theorem State.tasteLoop_kept (n : Nat) (s : State) : (State.tasteLoop n s).kept = s.kept := by
  induction n generalizing s with
  | zero => rfl
  | succ n ih =>
    unfold State.tasteLoop
    repeat' first
      | with_reducible rfl
      | assumption
      | with_reducible (refine (forEach_kept _ _ _ (fun _ _ => ?_)).trans ?_)
      | with_reducible (refine (foldl_kept _ _ _ (fun _ _ => ?_)).trans ?_)
      | with_reducible (refine kept_if ?_ ?_)
      | simp [ih]

@[simp] theorem State.tasteData_kept (s : State) (id ofs n : Nat) (j : Job) : (State.tasteData s id ofs n j).kept = s.kept := by
  unfold State.tasteData; split <;> simp

@[simp] theorem State.tasteAnswer_kept (s : State) (id st : Nat) : (State.tasteAnswer s id st).kept = s.kept :=
  rfl

@[simp] theorem State.export_kept (s : State) : (State.export_ s).kept = s.kept := by
  simp [State.export_]

@[simp] theorem State.obRx_kept (s : State) (p : Pkt) : (State.obRx s p).kept = s.kept := by
  simp [State.obRx]

@[simp] theorem insnTaste_kept (q : Nat) (w : Fields) (s : State) : (insnTaste q w s).kept = s.kept := by
  unfold insnTaste
  refine State.legal_kept _ _ _ _ (fun s => ?_)
  dsimp only
  rw [State.finish_kept]
  refine kept_if ?_ ?_
  · rw [State.tasteRec_kept, State.modTaste_kept]
  · split
    · rw [State.tasteEntry_kept]
    · rw [State.tasteRec_kept, State.modTaste_kept]

@[simp] theorem insnMark_kept (q : Nat) (w : Fields) (s : State) : (insnMark q w s).kept = s.kept := by
  simp [insnMark]

@[simp] theorem State.modMs_kept (s : State) (f : Ms → Ms) : (State.modMs s f).kept = s.kept :=
  rfl

@[simp] theorem State.msTry_kept (s : State) : (State.msTry s).kept = s.kept := by
  simp [State.msTry, ↓State.kept_mk]

@[simp] theorem State.msStart_kept (s : State) : (State.msStart s).kept = s.kept := by
  simp [State.msStart, ↓State.kept_mk]

@[simp] theorem State.sipTimeRx_kept (s : State) (p : Pkt) : (State.sipTimeRx s p).kept = s.kept := by
  simp [State.sipTimeRx]

@[simp] theorem State.msWaited_kept (s : State) : (State.msWaited s).kept = s.kept := by
  simp [State.msWaited]

@[simp] theorem State.judge_kept (s : State) (n : Nat) (h : Bytes) : (State.judge s n h).kept = s.kept := by
  simp [State.judge]

@[simp] theorem State.reevaluate_kept (s : State) : (State.reevaluate s).kept = s.kept := by
  unfold State.reevaluate
  repeat' first
    | with_reducible rfl
    | assumption
    | with_reducible (refine (forEach_kept _ _ _ (fun _ _ => ?_)).trans ?_)
    | with_reducible (refine (foldl_kept _ _ _ (fun _ _ => ?_)).trans ?_)
    | with_reducible (refine kept_if ?_ ?_)
    | simp
    | intro _
    | dsimp only
    | split

@[simp] theorem State.installPlan_kept (s : State) (m : Img) : (State.installPlan s m).kept = s.kept := by
  unfold State.installPlan
  repeat' first
    | with_reducible rfl
    | assumption
    | with_reducible (refine (forEach_kept _ _ _ (fun _ _ => ?_)).trans ?_)
    | with_reducible (refine (foldl_kept _ _ _ (fun _ _ => ?_)).trans ?_)
    | with_reducible (refine kept_if ?_ ?_)
    | simp [↓State.kept_mk]

@[simp] theorem State.withInn_kept (s : State) (m : Img) : (State.withInn s m).kept = s.kept :=
  rfl

@[simp] theorem State.installSmv_kept (s : State) (m : Img) : (State.installSmv s m).kept = s.kept := by
  unfold State.installSmv; refine (forEach_kept _ _ _ fun _ _ => ?_).trans ?_ <;> simp [↓State.kept_mk]

@[simp] theorem State.installSip_kept (s : State) (m : Img) : (State.installSip s m).kept = s.kept := by
  unfold State.installSip; refine (forEach_kept _ _ _ fun _ _ => ?_).trans ?_ <;> simp [↓State.kept_mk]

theorem State.tableFail_kept (s : State) (code : Nat) (m : Img) (f : State → State) (h : s.tableFail code m = some f)
    (r : State) : (f r).kept = r.kept := by
  have hm : ∀ {α : Type} (o : Option α) (g : α → State → State), (∀ a, (g a r).kept = r.kept) → o.map g = some f →
      (f r).kept = r.kept := by
    intro α o g hg h
    obtain ⟨a, -, rfl⟩ := Option.map_eq_some_iff.mp h
    exact hg a
  unfold State.tableFail at h
  dsimp only at h
  split at h
  case h_2 => (split at h <;> cases h); rfl
  case h_3 => (split at h <;> cases h); rfl
  all_goals exact hm _ _ (fun _ => rfl) h

theorem State.commitCheck_kept (s : State) (code : Nat) (m : Img) (r : State) :
    ((s.commitCheck code m).2 r).kept = r.kept := by
  unfold State.commitCheck
  repeat' split
  all_goals first
    | rfl
    | exact s.tableFail_kept _ _ _ (by assumption) r

@[simp] theorem State.modCommit_kept (s : State) (f : Commit → Commit) : (State.modCommit s f).kept = s.kept :=
  rfl

@[simp] theorem State.startCommit_kept (s : State) (code : BitVec 8) (who : Option (Nat × Nat)) : (State.startCommit s code who).kept = s.kept := by
  unfold State.startCommit
  dsimp only
  refine kept_if ?_ ?_
  · rw [State.modCommit_kept]; exact (State.kept_mk ..).trans (State.modCommit_kept ..)
  · split
    · rw [State.insnFault_kept, State.raise_kept, State.commitCheck_kept, State.modCommit_kept]
    · rw [State.raise_kept, State.commitCheck_kept, State.modCommit_kept]

@[simp] theorem State.admitHeld_kept (s : State) (id : Nat) : (State.admitHeld s id).kept = s.kept := by
  unfold State.admitHeld
  exact forEach_kept _ _ _ fun _ _ => State.admitReq_kept _ _ _

@[simp] theorem State.install_kept (s : State) (code : Nat) (m : Img) : (State.install s code m).kept = s.kept := by
  unfold State.install
  repeat' first
    | with_reducible rfl
    | assumption
    | with_reducible (refine (forEach_kept _ _ _ (fun _ _ => ?_)).trans ?_)
    | with_reducible (refine (foldl_kept _ _ _ (fun _ _ => ?_)).trans ?_)
    | with_reducible (refine kept_if ?_ ?_)
    | simp [↓State.kept_mk]
    | intro _
    | dsimp only
    | split

@[simp] theorem State.nextCommit_kept (s : State) : (State.nextCommit s).kept = s.kept := by
  unfold State.nextCommit; repeat' split
  all_goals simp

@[simp] theorem State.commitDone_kept (s : State) : (State.commitDone s).kept = s.kept := by
  unfold State.commitDone
  repeat' first
    | with_reducible rfl
    | assumption
    | with_reducible (refine (forEach_kept _ _ _ (fun _ _ => ?_)).trans ?_)
    | with_reducible (refine (foldl_kept _ _ _ (fun _ _ => ?_)).trans ?_)
    | with_reducible (refine kept_if ?_ ?_)
    | simp
    | intro _
    | dsimp only
    | split

@[simp] theorem State.goCommit_kept (s : State) (code : BitVec 8) : (State.goCommit s code).kept = s.kept := by
  simp [State.goCommit]

@[simp] theorem State.writeBank_kept (s : State) (a : Nat) (v : Word) : (State.writeBank s a v).kept = s.kept := by
  simp [State.writeBank]

@[simp] theorem State.tableOnly_kept (s : State) (q : Nat) (k : State → State) (h_k : ∀  r, (k  r).kept = r.kept) : (State.tableOnly s q k).kept = s.kept := by
  unfold State.tableOnly
  repeat' first
    | with_reducible rfl
    | assumption
    | with_reducible (refine (forEach_kept _ _ _ (fun _ _ => ?_)).trans ?_)
    | with_reducible (refine (foldl_kept _ _ _ (fun _ _ => ?_)).trans ?_)
    | with_reducible (refine kept_if ?_ ?_)
    | simp [h_k]

@[simp] theorem insnTload_kept (q : Nat) (w : Fields) (s : State) : (insnTload q w s).kept = s.kept := by
  unfold insnTload
  repeat' first
    | with_reducible rfl
    | assumption
    | with_reducible (refine (forEach_kept _ _ _ (fun _ _ => ?_)).trans ?_)
    | with_reducible (refine kept_if ?_ ?_)
    | with_reducible (refine (State.legal_kept _ _ _ _ (fun _ => ?_)).trans ?_)
    | with_reducible (refine (State.tableOnly_kept _ _ _ (fun _ => ?_)).trans ?_)
    | with_reducible (refine (State.checked_kept _ _ _ _ (fun _ => ?_)).trans ?_)
    | simp

@[simp] theorem State.tloaded_kept (s : State) (q seq : Nat) (j : Job) : (State.tloaded s q seq j).kept = s.kept := by
  unfold State.tloaded
  repeat' first
    | with_reducible rfl
    | assumption
    | with_reducible (refine (forEach_kept _ _ _ (fun _ _ => ?_)).trans ?_)
    | with_reducible (refine (foldl_kept _ _ _ (fun _ _ => ?_)).trans ?_)
    | with_reducible (refine kept_if ?_ ?_)
    | simp
    | intro _
    | dsimp only
    | split

@[simp] theorem insnTcommit_kept (q : Nat) (w : Fields) (s : State) : (insnTcommit q w s).kept = s.kept := by
  simp [insnTcommit]

@[simp] theorem State.modScrub_kept (s : State) (f : Scrub → Scrub) : (State.modScrub s f).kept = s.kept :=
  rfl

@[simp] theorem State.scrubGo_kept (s : State) : (State.scrubGo s).kept = s.kept := by
  simp [State.scrubGo]

@[simp] theorem State.pumpScrub_kept (s : State) : (State.pumpScrub s).kept = s.kept := by
  unfold State.pumpScrub
  repeat' first
    | with_reducible rfl
    | assumption
    | with_reducible (refine (forEach_kept _ _ _ (fun _ _ => ?_)).trans ?_)
    | with_reducible (refine (foldl_kept _ _ _ (fun _ _ => ?_)).trans ?_)
    | with_reducible (refine kept_if ?_ ?_)
    | simp [↓State.kept_mk]
    | intro _
    | dsimp only
    | split

@[simp] theorem State.scrubEnd_kept (s : State) : (State.scrubEnd s).kept = s.kept := by
  simp [State.scrubEnd]

@[simp] theorem State.served_kept (s : State) (p : Pkt) (loc : Option Nat) (src : Nat) (at_ : List (Nat × Nat)) (j : Job) :
    (State.served s p loc src at_ j).kept = s.kept := by
  unfold State.served
  dsimp only
  repeat' first
    | with_reducible (refine kept_if ?_ ?_)
    | split
  all_goals first
    | simp only [State.reply_kept, State.markDirty_kept, State.raise_kept]
    | (rename_i h; rw [State.askRepair_kept _ _ _ _ h, State.markDirty_kept])

@[simp] theorem State.atomDo_kept (s : State) (p : Pkt) (loc : Option Nat) (desc : Word) (j : Job) : (State.atomDo s p loc desc j).kept = s.kept := by
  unfold State.atomDo
  repeat' first
    | with_reducible rfl
    | assumption
    | with_reducible (refine (forEach_kept _ _ _ (fun _ _ => ?_)).trans ?_)
    | with_reducible (refine (foldl_kept _ _ _ (fun _ _ => ?_)).trans ?_)
    | with_reducible (refine kept_if ?_ ?_)
    | simp [↓State.kept_mk]
    | intro _
    | dsimp only
    | split

@[simp] theorem State.syncFlow_kept (s : State) (r : Req) : (State.syncFlow s r).kept = s.kept := by
  simp [State.syncFlow, ↓State.kept_mk]

@[simp] theorem State.unpinFlow_kept (s : State) (r : Req) : (State.unpinFlow s r).kept = s.kept := by
  simp [State.unpinFlow, ↓State.kept_mk]

@[simp] theorem State.giveUp_kept (s : State) (r : Req) : (State.giveUp s r).kept = s.kept := by
  unfold State.giveUp
  repeat' first
    | with_reducible rfl
    | assumption
    | with_reducible (refine (forEach_kept _ _ _ (fun _ _ => ?_)).trans ?_)
    | with_reducible (refine (foldl_kept _ _ _ (fun _ _ => ?_)).trans ?_)
    | with_reducible (refine kept_if ?_ ?_)
    | simp [↓State.kept_mk]
    | intro _
    | dsimp only
    | split

@[simp] theorem State.reqFails_kept (s : State) (r : Req) (st : Nat) : (State.reqFails s r st).kept = s.kept := by
  unfold State.reqFails
  dsimp only
  repeat' split
  all_goals simp

@[simp] theorem State.insnDone_kept (s : State) (r : Req) (q seq : Nat) (data : Bytes) : (State.insnDone s r q seq data).kept = s.kept := by
  unfold State.insnDone
  repeat' first
    | with_reducible rfl
    | assumption
    | with_reducible (refine (forEach_kept _ _ _ (fun _ _ => ?_)).trans ?_)
    | with_reducible (refine (foldl_kept _ _ _ (fun _ _ => ?_)).trans ?_)
    | with_reducible (refine kept_if ?_ ?_)
    | simp
    | intro _
    | dsimp only
    | split

@[simp] theorem State.ePortDone_kept (s : State) (n tag st : Nat) (data : Bytes) : (State.ePortDone s n tag st data).kept = s.kept := by
  simp [State.ePortDone]

@[simp] theorem State.askVerdict_kept (s : State) (r : Req) (data : Bytes) : (State.askVerdict s r data).kept = s.kept := by
  unfold State.askVerdict
  repeat' first
    | with_reducible rfl
    | assumption
    | with_reducible (refine (forEach_kept _ _ _ (fun _ _ => ?_)).trans ?_)
    | with_reducible (refine (foldl_kept _ _ _ (fun _ _ => ?_)).trans ?_)
    | with_reducible (refine kept_if ?_ ?_)
    | simp [↓State.kept_mk]
    | intro _
    | dsimp only
    | split

@[simp] theorem State.deliver_kept (s : State) (r : Req) (st : Nat) (data : Bytes) : (State.deliver s r st data).kept = s.kept := by
  unfold State.deliver; split <;> simp

@[simp] theorem State.reissueReq_kept (s : State) (r : Req) : (State.reissueReq s r).kept = s.kept := by
  unfold State.reissueReq; split <;> simp

@[simp] theorem State.completed_kept (s : State) (r : Req) (c : CplAddr) (data : Bytes) : (State.completed s r c data).kept = s.kept := by
  unfold State.completed
  repeat' first
    | with_reducible rfl
    | assumption
    | with_reducible (refine (forEach_kept _ _ _ (fun _ _ => ?_)).trans ?_)
    | with_reducible (refine (foldl_kept _ _ _ (fun _ _ => ?_)).trans ?_)
    | with_reducible (refine kept_if ?_ ?_)
    | simp
    | intro _
    | dsimp only
    | split

@[simp] theorem State.relay_kept (s : State) (i : Nat) (e : Onward) (c : CplAddr) (data : Bytes) : (State.relay s i e c data).kept = s.kept := by
  simp [State.relay, ↓State.kept_mk]

@[simp] theorem State.takeCpl_kept (s : State) (p : Pkt) : (State.takeCpl s p).kept = s.kept := by
  unfold State.takeCpl
  repeat' first
    | with_reducible rfl
    | assumption
    | with_reducible (refine (forEach_kept _ _ _ (fun _ _ => ?_)).trans ?_)
    | with_reducible (refine (foldl_kept _ _ _ (fun _ _ => ?_)).trans ?_)
    | with_reducible (refine kept_if ?_ ?_)
    | simp
    | intro _
    | dsimp only
    | split

@[simp] theorem State.jobDone_kept (s : State) (j : Job) : (State.jobDone s j).kept = s.kept := by
  unfold State.jobDone
  repeat' first
    | with_reducible rfl
    | assumption
    | with_reducible (refine (forEach_kept _ _ _ (fun _ _ => ?_)).trans ?_)
    | with_reducible (refine (foldl_kept _ _ _ (fun _ _ => ?_)).trans ?_)
    | with_reducible (refine kept_if ?_ ?_)
    | simp [↓State.kept_mk]
    | intro _
    | dsimp only
    | split

@[simp] theorem State.settleJob_kept (s : State) : (State.settleJob s).kept = s.kept := by
  unfold State.settleJob
  repeat' first
    | with_reducible rfl
    | assumption
    | with_reducible (refine (forEach_kept _ _ _ (fun _ _ => ?_)).trans ?_)
    | with_reducible (refine (foldl_kept _ _ _ (fun _ _ => ?_)).trans ?_)
    | with_reducible (refine kept_if ?_ ?_)
    | simp [↓State.kept_mk]
    | intro _
    | dsimp only
    | split

@[simp] theorem State.settleJobs_kept (n : Nat) (s : State) : (State.settleJobs n s).kept = s.kept := by
  induction n generalizing s with
  | zero => rfl
  | succ n ih =>
    unfold State.settleJobs
    repeat' first
      | with_reducible rfl
      | assumption
      | with_reducible (refine (forEach_kept _ _ _ (fun _ _ => ?_)).trans ?_)
      | with_reducible (refine (foldl_kept _ _ _ (fun _ _ => ?_)).trans ?_)
      | with_reducible (refine kept_if ?_ ?_)
      | simp [ih]

@[simp] theorem State.fetchAll_kept (s : State) : (State.fetchAll s).kept = s.kept := by
  unfold State.fetchAll
  repeat' first
    | with_reducible rfl
    | assumption
    | with_reducible (refine (forEach_kept _ _ _ (fun _ _ => ?_)).trans ?_)
    | with_reducible (refine (foldl_kept _ _ _ (fun _ _ => ?_)).trans ?_)
    | with_reducible (refine kept_if ?_ ?_)
    | simp

@[simp] theorem State.round_kept (s : State) : (State.round s).kept = s.kept := by
  simp [State.round]

@[simp] theorem State.kick_kept (s : State) : (State.kick s).kept = s.kept := by
  simp [State.kick]

@[simp] theorem State.reqRow_kept (s : State) (src op : Nat) : (State.reqRow s src op).kept = s.kept := by
  simp [State.reqRow]

@[simp] theorem State.rsigRx_kept (s : State) (p : Pkt) : (State.rsigRx s p).kept = s.kept := by
  unfold State.rsigRx; repeat' split
  all_goals simp

@[simp] theorem State.rsigRow_kept (s : State) (src : Nat) : (State.rsigRow s src).kept = s.kept := by
  unfold State.rsigRow
  repeat' first
    | with_reducible rfl
    | assumption
    | with_reducible (refine (forEach_kept _ _ _ (fun _ _ => ?_)).trans ?_)
    | with_reducible (refine kept_if ?_ ?_)
    | with_reducible (refine (State.arrive_kept _ _ _ _ (fun _ => ?_)).trans ?_)
    | simp
    | intro _
    | dsimp only
    | split

@[simp] theorem State.cplRow_kept (s : State) (src op : Nat) : (State.cplRow s src op).kept = s.kept := by
  unfold State.cplRow; repeat' split
  all_goals simp

@[simp] theorem State.onwardExpire_kept (s : State) (i : Nat) : (State.onwardExpire s i).kept = s.kept := by
  unfold State.onwardExpire; split <;> simp [↓State.kept_mk]

@[simp] theorem State.busyRetry_kept (s : State) (id : Nat) : (State.busyRetry s id).kept = s.kept := by
  unfold State.busyRetry; repeat' split
  all_goals simp

@[simp] theorem State.timeOutReq_kept (s : State) (r : Req) : (State.timeOutReq s r).kept = s.kept := by
  unfold State.timeOutReq; repeat' split
  all_goals simp [↓State.kept_mk]

@[simp] theorem State.stewardTimeout_kept (s : State) (id : Nat) : (State.stewardTimeout s id).kept = s.kept := by
  unfold State.stewardTimeout; repeat' split
  all_goals simp

@[simp] theorem State.epochTick_kept (s : State) : (State.epochTick s).kept = s.kept := by
  simp [State.epochTick]

@[simp] theorem State.dropNotes_kept (s : State) (gone : Nat → Bool) : (State.dropNotes s gone).kept = s.kept := by
  simp [State.dropNotes]

@[simp] theorem State.freeNotes_kept (s : State) : (State.freeNotes s).kept = s.kept := s.dropNotes_kept _

@[simp] theorem State.freeDirs_kept (s : State) : (State.freeDirs s).kept = s.kept :=
  rfl

@[simp] theorem State.dirRetry_kept (s : State) (id : Nat) : (State.dirRetry s id).kept = s.kept := by
  unfold State.dirRetry; repeat' split
  all_goals simp

end Sys2Proof.Machine
end

