-- ==== Sys2Proof/Laws/KeptTables.lean ====
section
/-! SUPPORT. What the operations behind the rows of ports, queues, lanes and training keep (`State.kept`). -/

namespace Sys2Proof.Machine

set_option Elab.async false

@[simp] theorem State.holdWrite_kept (s : State) (addr : BitVec 26) (size8 : Bool) (data : Word) : (State.holdWrite s addr size8 data).kept = s.kept :=
  rfl

@[simp] theorem State.credited_kept (s : State) (ch : Channel) (n : Nat) (f : State → State) (h : ∀ r, (f r).kept = r.kept) :
    (State.credited s ch n f).kept = s.kept := by
  unfold State.credited
  exact kept_if rfl (kept_if (State.portProto_kept _ _) ((h _).trans (State.crossEvents_kept _ _ _ _)))

@[simp] theorem State.beatReq_kept (s : State) (n : Nat) (b : BitVec 128) (wd : Bytes) : (State.beatReq s n b wd).kept = s.kept :=
  rfl

@[simp] theorem State.beatGo_kept (s : State) (n tag : Nat) : (State.beatGo s n tag).kept = s.kept := by
  unfold State.beatGo; repeat' split
  all_goals simp

@[simp] theorem State.beatsAfter_kept (s : State) (n : Nat) : (State.beatsAfter s n).kept = s.kept := by
  unfold State.beatsAfter
  repeat' first
    | with_reducible rfl
    | assumption
    | with_reducible (refine (forEach_kept _ _ _ (fun _ _ => ?_)).trans ?_)
    | with_reducible (refine (foldl_kept _ _ _ (fun _ _ => ?_)).trans ?_)
    | with_reducible (refine kept_if ?_ ?_)
    | simp [↓State.kept_mk]
    | intro _
    | dsimp only
    | split

@[simp] theorem State.matchWd_kept (s : State) (n : Nat) : (State.matchWd s n).kept = s.kept := by
  unfold State.matchWd
  repeat' first
    | with_reducible rfl
    | assumption
    | with_reducible (refine (forEach_kept _ _ _ (fun _ _ => ?_)).trans ?_)
    | with_reducible (refine (foldl_kept _ _ _ (fun _ _ => ?_)).trans ?_)
    | with_reducible (refine kept_if ?_ ?_)
    | simp
    | intro _
    | dsimp only
    | split

@[simp] theorem State.eportCmd_kept (s : State) (n op : Nat) (beat : BitVec 128) : (State.eportCmd s n op beat).kept = s.kept := by
  simp [State.eportCmd]

@[simp] theorem State.eportRow_kept (s : State) (n op : Nat) (beat : BitVec 128) : (State.eportRow s n op beat).kept = s.kept := by
  unfold State.eportRow
  repeat' first
    | with_reducible rfl
    | assumption
    | with_reducible (refine (forEach_kept _ _ _ (fun _ _ => ?_)).trans ?_)
    | with_reducible (refine (foldl_kept _ _ _ (fun _ _ => ?_)).trans ?_)
    | with_reducible (refine kept_if ?_ ?_)
    | simp [↓State.kept_mk]
    | intro _
    | dsimp only
    | split

@[simp] theorem State.eportWd_kept (s : State) (n : Nat) (d : Bytes) : (State.eportWd s n d).kept = s.kept := by
  simp [State.eportWd]

@[simp] theorem State.driveCpl_kept (s : State) (n : Nat) : (State.driveCpl s n).kept = s.kept := by
  unfold State.driveCpl
  repeat' first
    | with_reducible rfl
    | assumption
    | with_reducible (refine (forEach_kept _ _ _ (fun _ _ => ?_)).trans ?_)
    | with_reducible (refine (foldl_kept _ _ _ (fun _ _ => ?_)).trans ?_)
    | with_reducible (refine kept_if ?_ ?_)
    | simp
    | intro _
    | dsimp only
    | split

@[simp] theorem State.eportExpire_kept (s : State) (n tag : Nat) : (State.eportExpire s n tag).kept = s.kept := by
  unfold State.eportExpire; repeat' split
  all_goals simp

@[simp] theorem State.carrierExpire_kept (s : State) (port : CPort) (write : Bool) (tag : Nat) : (State.carrierExpire s port write tag).kept = s.kept := by
  unfold State.carrierExpire; split <;> simp

@[simp] theorem State.bindQueue_kept (s : State) (q : Nat) (d : Queue) : (State.bindQueue s q d).kept = s.kept := by
  simp [State.bindQueue]

@[simp] theorem State.rebind_kept (s : State) (q w : Nat) (v : Word) : (State.rebind s q w v).kept = s.kept := by
  unfold State.rebind
  repeat' first
    | with_reducible rfl
    | assumption
    | with_reducible (refine (forEach_kept _ _ _ (fun _ _ => ?_)).trans ?_)
    | with_reducible (refine (foldl_kept _ _ _ (fun _ _ => ?_)).trans ?_)
    | with_reducible (refine kept_if ?_ ?_)
    | simp [↓State.kept_mk]
    | intro _
    | dsimp only
    | split

@[simp] theorem State.writeBind_kept (s : State) (q w : Nat) (v : Word) : (State.writeBind s q w v).kept = s.kept := by
  unfold State.writeBind
  repeat' first
    | with_reducible rfl
    | assumption
    | with_reducible (refine (forEach_kept _ _ _ (fun _ _ => ?_)).trans ?_)
    | with_reducible (refine (foldl_kept _ _ _ (fun _ _ => ?_)).trans ?_)
    | with_reducible (refine kept_if ?_ ?_)
    | simp [↓State.kept_mk]
    | intro _
    | dsimp only
    | split

@[simp] theorem State.doStart_kept (s : State) (q : Nat) : (State.doStart s q).kept = s.kept := by
  unfold State.doStart
  repeat' first
    | with_reducible rfl
    | assumption
    | with_reducible (refine (forEach_kept _ _ _ (fun _ _ => ?_)).trans ?_)
    | with_reducible (refine (foldl_kept _ _ _ (fun _ _ => ?_)).trans ?_)
    | with_reducible (refine kept_if ?_ ?_)
    | simp
    | intro _
    | dsimp only
    | split

@[simp] theorem State.doClear_kept (s : State) (q : Nat) : (State.doClear s q).kept = s.kept := by
  simp [State.doClear]

@[simp] theorem State.doSkip_kept (s : State) (q : Nat) : (State.doSkip s q).kept = s.kept := by
  simp [State.doSkip]

@[simp] theorem State.doHalt_kept (s : State) (q : Nat) : (State.doHalt s q).kept = s.kept := by
  unfold State.doHalt
  repeat' first
    | with_reducible rfl
    | assumption
    | with_reducible (refine (forEach_kept _ _ _ (fun _ _ => ?_)).trans ?_)
    | with_reducible (refine (foldl_kept _ _ _ (fun _ _ => ?_)).trans ?_)
    | with_reducible (refine kept_if ?_ ?_)
    | simp
    | intro _
    | dsimp only
    | split

@[simp] theorem State.writeQctl_kept (s : State) (q : Nat) (v : Word) : (State.writeQctl s q v).kept = s.kept := by
  simp [State.writeQctl]

@[simp] theorem State.ring_kept (s : State) (q : Nat) (v : BitVec 32) : (State.ring s q v).kept = s.kept := by
  simp [State.ring]

@[simp] theorem State.doDoorbell_kept (s : State) (q : Nat) (tenant : Option Nat) (v : BitVec 32) : (State.doDoorbell s q tenant v).kept = s.kept := by
  unfold State.doDoorbell; split <;> simp

@[simp] theorem State.lineIn_kept (s : State) (n : Nat) : (State.lineIn s n).kept = s.kept := by
  unfold State.lineIn; repeat' split
  all_goals simp [↓State.kept_mk]

@[simp] theorem State.writeStwCtl_kept (s : State) (n : Nat) (v : Word) : (State.writeStwCtl s n v).kept = s.kept := by
  simp [State.writeStwCtl]

@[simp] theorem State.writeSyncCtl_kept (s : State) (n : Nat) (alloc : Bool) (p : BitVec 4) : (State.writeSyncCtl s n alloc p).kept = s.kept :=
  rfl

@[simp] theorem State.tenantAdd_kept (s : State) (p n : Nat) (v : Word) : (State.tenantAdd s p n v).kept = s.kept := by
  simp [State.tenantAdd]

@[simp] theorem State.writeSyncVal_kept (s : State) (n : Nat) (v : Word) : (State.writeSyncVal s n v).kept = s.kept := by
  simp [State.writeSyncVal]

@[simp] theorem State.writeTxeq_kept (s : State) (n : Nat) (v : Word) : (State.writeTxeq s n v).kept = s.kept :=
  rfl

@[simp] theorem State.doSlip_kept (s : State) (n : Nat) : (State.doSlip s n).kept = s.kept := by
  simp [State.doSlip]

@[simp] theorem State.doClearWin_kept (s : State) (n : Nat) : (State.doClearWin s n).kept = s.kept := by
  simp [State.doClearWin]

@[simp] theorem State.writeAlign_kept (s : State) (n : Nat) (v : Word) : (State.writeAlign s n v).kept = s.kept := by
  simp [State.writeAlign]

@[simp] theorem State.slipDone_kept (s : State) (n : Nat) : (State.slipDone s n).kept = s.kept := by
  simp [State.slipDone]

@[simp] theorem State.noteAll_kept (s : State) (l : List Nat) : (State.noteAll s l).kept = s.kept := by
  unfold State.noteAll; refine (forEach_kept _ _ _ fun _ _ => ?_).trans ?_ <;> simp

@[simp] theorem State.windowDone_kept (s : State) (n : Nat) (bad : Fin 1025) : (State.windowDone s n bad).kept = s.kept := by
  simp [State.windowDone]

@[simp] theorem State.laneLoss_kept (s : State) (n : Nat) : (State.laneLoss s n).kept = s.kept := by
  simp [State.laneLoss]

@[simp] theorem State.blockLoss_kept (s : State) (n : Nat) : (State.blockLoss s n).kept = s.kept := by
  simp [State.blockLoss]

@[simp] theorem State.cdrLock_kept (s : State) (n : LaneId) : (State.cdrLock s n).kept = s.kept := by
  unfold State.cdrLock
  repeat' first
    | with_reducible rfl
    | assumption
    | with_reducible (refine (forEach_kept _ _ _ (fun _ _ => ?_)).trans ?_)
    | with_reducible (refine (foldl_kept _ _ _ (fun _ _ => ?_)).trans ?_)
    | with_reducible (refine kept_if ?_ ?_)
    | simp [↓State.kept_mk]
    | intro _
    | dsimp only
    | split

@[simp] theorem State.prbsUnlock_kept (s : State) (n : Nat) : (State.prbsUnlock s n).kept = s.kept := by
  simp [State.prbsUnlock]

@[simp] theorem State.writePrbsSet_kept (s : State) (n : Nat) (p : PrbsSet) : (State.writePrbsSet s n p).kept = s.kept := by
  simp [State.writePrbsSet]

@[simp] theorem State.injectOne_kept (s : State) (n : Nat) : (State.injectOne s n).kept = s.kept := by
  unfold State.injectOne
  repeat' first
    | with_reducible rfl
    | assumption
    | with_reducible (refine (forEach_kept _ _ _ (fun _ _ => ?_)).trans ?_)
    | with_reducible (refine (foldl_kept _ _ _ (fun _ _ => ?_)).trans ?_)
    | with_reducible (refine kept_if ?_ ?_)
    | simp [↓State.kept_mk]
    | intro _
    | dsimp only
    | split

@[simp] theorem State.writePrbs_kept (s : State) (n : Nat) (v : Word) : (State.writePrbs s n v).kept = s.kept := by
  simp [State.writePrbs]

@[simp] theorem State.prbsLock_kept (s : State) (n : Nat) : (State.prbsLock s n).kept = s.kept :=
  rfl

@[simp] theorem State.leaveTest_kept (s : State) (k : Nat) : (State.leaveTest s k).kept = s.kept := by
  unfold State.leaveTest; refine kept_if ?_ ?_ <;> simp

@[simp] theorem State.checkNext_kept (s : State) (n : Nat) (bad : Bool) : (State.checkNext s n bad).kept = s.kept := by
  unfold State.checkNext; split <;> simp

@[simp] theorem State.scanEnd_kept (s : State) (n : Nat) (invalid : Bool) (errs : BitVec 32) (moved : Bool) : (State.scanEnd s n invalid errs moved).kept = s.kept := by
  simp [State.scanEnd]

@[simp] theorem State.doScan_kept (s : State) (n : Nat) : (State.doScan s n).kept = s.kept := by
  simp [State.doScan]

@[simp] theorem State.writeEye_kept (s : State) (n : Nat) (v : Word) : (State.writeEye s n v).kept = s.kept := by
  simp [State.writeEye]

@[simp] theorem State.scanDone_kept (s : State) (n : Nat) (errs : BitVec 32) (moved : Bool) : (State.scanDone s n errs moved).kept = s.kept := by
  simp [State.scanDone]

@[simp] theorem State.scanCut_kept (s : State) (n : Nat) : (State.scanCut s n).kept = s.kept := by
  simp [State.scanCut]

@[simp] theorem State.cdrLoss_kept (s : State) (n : Nat) : (State.cdrLoss s n).kept = s.kept := by
  unfold State.cdrLoss
  repeat' first
    | with_reducible rfl
    | assumption
    | with_reducible (refine (forEach_kept _ _ _ (fun _ _ => ?_)).trans ?_)
    | with_reducible (refine (foldl_kept _ _ _ (fun _ _ => ?_)).trans ?_)
    | with_reducible (refine kept_if ?_ ?_)
    | simp [↓State.kept_mk]
    | intro _
    | dsimp only
    | split

@[simp] theorem State.adapted_kept (s : State) (n : Nat) (rx : Adapted) : (State.adapted s n rx).kept = s.kept :=
  rfl

@[simp] theorem State.laneGrade_kept (s : State) (n : Nat) (g : BitVec 2) : (State.laneGrade s n g).kept = s.kept := by
  simp [State.laneGrade]

@[simp] theorem State.prbsMiss_kept (s : State) (n : Nat) : (State.prbsMiss s n).kept = s.kept := by
  unfold State.prbsMiss
  repeat' first
    | with_reducible rfl
    | assumption
    | with_reducible (refine (forEach_kept _ _ _ (fun _ _ => ?_)).trans ?_)
    | with_reducible (refine (foldl_kept _ _ _ (fun _ _ => ?_)).trans ?_)
    | with_reducible (refine kept_if ?_ ?_)
    | simp [↓State.kept_mk]
    | intro _
    | dsimp only
    | split

@[simp] theorem State.writeLaneCtl_kept (s : State) (n : Nat) (v : Word) : (State.writeLaneCtl s n v).kept = s.kept := by
  simp [State.writeLaneCtl]

@[simp] theorem State.takeLine_kept (s : State) (k : Nat) (c : Line) : (State.takeLine s k c).kept = s.kept :=
  forEach_kept _ _ _ fun _ _ => State.headerMore_kept _ _ _

@[simp] theorem State.codeword_kept (s : State) (k : Nat) (fixes : Option (List Nat)) : (State.codeword s k fixes).kept = s.kept := by
  cases fixes with
  | none => simp [State.codeword]
  | some l => exact (forEach_kept _ _ _ fun _ _ => by simp).trans (by simp)

@[simp] theorem State.codewordRx_kept (s : State) (k : Nat) (blocks : List (BitVec 66)) (syms : List (BitVec 10)) :
    (State.codewordRx s k blocks syms).kept = s.kept := by
  unfold State.codewordRx
  repeat' split
  all_goals simp

@[simp] theorem State.sendTrain_kept (s : State) (k cnt : Nat) (f : Nat → Bool) : (State.sendTrain s k cnt f).kept = s.kept := by
  unfold State.sendTrain
  repeat' first
    | with_reducible rfl
    | assumption
    | with_reducible (refine (forEach_kept _ _ _ (fun _ _ => ?_)).trans ?_)
    | with_reducible (refine (foldl_kept _ _ _ (fun _ _ => ?_)).trans ?_)
    | with_reducible (refine kept_if ?_ ?_)
    | simp [↓State.kept_mk]
    | intro _
    | dsimp only
    | split

@[simp] theorem State.freshLanes_kept (s : State) (k : Nat) : (State.freshLanes s k).kept = s.kept := by
  unfold State.freshLanes
  repeat' first
    | with_reducible rfl
    | assumption
    | with_reducible (refine (forEach_kept _ _ _ (fun _ _ => ?_)).trans ?_)
    | with_reducible (refine (foldl_kept _ _ _ (fun _ _ => ?_)).trans ?_)
    | with_reducible (refine kept_if ?_ ?_)
    | simp

@[simp] theorem State.freshCredits_kept (s : State) (k : Nat) : (State.freshCredits s k).kept = s.kept := by
  unfold State.freshCredits
  repeat' first
    | with_reducible rfl
    | assumption
    | with_reducible (refine (forEach_kept _ _ _ (fun _ _ => ?_)).trans ?_)
    | with_reducible (refine (foldl_kept _ _ _ (fun _ _ => ?_)).trans ?_)
    | with_reducible (refine kept_if ?_ ?_)
    | simp [↓State.kept_mk]
    | intro _
    | dsimp only
    | split

@[simp] theorem State.newSession_kept (s : State) (k : Nat) : (State.newSession s k).kept = s.kept :=
  rfl

@[simp] theorem State.busyLink_kept (s : State) (k : Nat) (b : Bool) : (State.busyLink s k b).kept = s.kept :=
  rfl

@[simp] theorem State.enterRow_kept (s : State) (k r : Nat) : (State.enterRow s k r).kept = s.kept := by
  unfold State.enterRow
  repeat' first
    | with_reducible rfl
    | assumption
    | with_reducible (refine (forEach_kept _ _ _ (fun _ _ => ?_)).trans ?_)
    | with_reducible (refine (foldl_kept _ _ _ (fun _ _ => ?_)).trans ?_)
    | with_reducible (refine kept_if ?_ ?_)
    | simp

@[simp] theorem State.sendLocal_kept (s : State) (k : Nat) (op : BitVec 8) (data : Bytes) : (State.sendLocal s k op data).kept = s.kept :=
  rfl

@[simp] theorem State.sendHello_kept (s : State) (k : Nat) : (State.sendHello s k).kept = s.kept :=
  rfl

@[simp] theorem State.startLine_kept (s : State) (k : Nat) : (State.startLine s k).kept = s.kept := by
  simp [State.startLine, ↓State.kept_mk]

@[simp] theorem State.doUp_kept (s : State) (k : Nat) : (State.doUp s k).kept = s.kept := by
  unfold State.doUp
  repeat' first
    | with_reducible rfl
    | assumption
    | with_reducible (refine (forEach_kept _ _ _ (fun _ _ => ?_)).trans ?_)
    | with_reducible (refine (foldl_kept _ _ _ (fun _ _ => ?_)).trans ?_)
    | with_reducible (refine kept_if ?_ ?_)
    | simp

@[simp] theorem State.doWidth_kept (s : State) (k : Nat) : (State.doWidth s k).kept = s.kept := by
  unfold State.doWidth
  repeat' first
    | with_reducible rfl
    | assumption
    | with_reducible (refine (forEach_kept _ _ _ (fun _ _ => ?_)).trans ?_)
    | with_reducible (refine (foldl_kept _ _ _ (fun _ _ => ?_)).trans ?_)
    | with_reducible (refine kept_if ?_ ?_)
    | simp [↓State.kept_mk]
    | intro _
    | dsimp only
    | split

@[simp] theorem State.doStep_kept (s : State) (k : Nat) (g : BitVec 2) : (State.doStep s k g).kept = s.kept := by
  unfold State.doStep
  dsimp only
  rw [State.modTrain_kept]
  refine (forEach_kept _ _ _ fun _ _ => State.sendTrain_kept _ _ _ _).trans ?_
  rw [State.modTrain_kept]

@[simp] theorem State.doEye_kept (s : State) (k : Nat) : (State.doEye s k).kept = s.kept := by
  unfold State.doEye; refine (forEach_kept _ _ _ fun _ _ => ?_).trans ?_ <;> simp

@[simp] theorem State.doAction_kept (s : State) (k action arg : Nat) : (State.doAction s k action arg).kept = s.kept := by
  unfold State.doAction
  repeat' first
    | with_reducible rfl
    | assumption
    | with_reducible (refine (forEach_kept _ _ _ (fun _ _ => ?_)).trans ?_)
    | with_reducible (refine (foldl_kept _ _ _ (fun _ _ => ?_)).trans ?_)
    | with_reducible (refine kept_if ?_ ?_)
    | simp
    | intro _
    | dsimp only
    | split

@[simp] theorem State.actRow_kept (s : State) (k r : Nat) : (State.actRow s k r).kept = s.kept := by
  unfold State.actRow
  repeat' first
    | with_reducible rfl
    | assumption
    | with_reducible (refine (forEach_kept _ _ _ (fun _ _ => ?_)).trans ?_)
    | with_reducible (refine (foldl_kept _ _ _ (fun _ _ => ?_)).trans ?_)
    | with_reducible (refine kept_if ?_ ?_)
    | simp
    | intro _
    | dsimp only
    | split

@[simp] theorem State.trainStep_kept (s : State) (k : Nat) : (State.trainStep s k).kept = s.kept := by
  unfold State.trainStep; repeat' split
  all_goals simp

@[simp] theorem State.trainTimeout_kept (s : State) (k : Nat) : (State.trainTimeout s k).kept = s.kept := by
  unfold State.trainTimeout; split <;> simp

@[simp] theorem State.eyeCheckEnd_kept (s : State) (k : Nat) : (State.eyeCheckEnd s k).kept = s.kept := by
  simp [State.eyeCheckEnd]

@[simp] theorem State.stepEnd_kept (s : State) (k : Nat) : (State.stepEnd s k).kept = s.kept := by
  unfold State.stepEnd
  repeat' first
    | with_reducible rfl
    | assumption
    | with_reducible (refine (forEach_kept _ _ _ (fun _ _ => ?_)).trans ?_)
    | with_reducible (refine (foldl_kept _ _ _ (fun _ _ => ?_)).trans ?_)
    | with_reducible (refine kept_if ?_ ?_)
    | simp
    | intro _
    | dsimp only
    | split

@[simp] theorem State.writeEqReq_kept (s : State) (n : Nat) (v : Word) : (State.writeEqReq s n v).kept = s.kept := by
  simp [State.writeEqReq]

@[simp] theorem State.enableLink_kept (s : State) (k : Nat) : (State.enableLink s k).kept = s.kept := by
  simp [State.enableLink]

@[simp] theorem State.downLink_kept (s : State) (k : Nat) : (State.downLink s k).kept = s.kept := by
  unfold State.downLink
  repeat' first
    | with_reducible rfl
    | assumption
    | with_reducible (refine (forEach_kept _ _ _ (fun _ _ => ?_)).trans ?_)
    | with_reducible (refine (foldl_kept _ _ _ (fun _ _ => ?_)).trans ?_)
    | with_reducible (refine kept_if ?_ ?_)
    | simp

@[simp] theorem State.admitLink_kept (s : State) (k : Nat) : (State.admitLink s k).kept = s.kept :=
  rfl

@[simp] theorem State.writeTrainCtl_kept (s : State) (k : Nat) (v : Word) : (State.writeTrainCtl s k v).kept = s.kept := by
  simp [State.writeTrainCtl]

@[simp] theorem State.linkReset_kept (s : State) (k : Nat) : (State.linkReset s k).kept = s.kept := by
  unfold State.linkReset
  repeat' first
    | with_reducible rfl
    | assumption
    | with_reducible (refine (forEach_kept _ _ _ (fun _ _ => ?_)).trans ?_)
    | with_reducible (refine (foldl_kept _ _ _ (fun _ _ => ?_)).trans ?_)
    | with_reducible (refine kept_if ?_ ?_)
    | simp

@[simp] theorem State.stepRx_kept (s : State) (n : Nat) (w : Word) : (State.stepRx s n w).kept = s.kept := by
  unfold State.stepRx
  repeat' first
    | with_reducible rfl
    | assumption
    | with_reducible (refine (forEach_kept _ _ _ (fun _ _ => ?_)).trans ?_)
    | with_reducible (refine (foldl_kept _ _ _ (fun _ _ => ?_)).trans ?_)
    | with_reducible (refine kept_if ?_ ?_)
    | simp [↓State.kept_mk]
    | intro _
    | dsimp only
    | split

@[simp] theorem State.trainSeen_kept (s : State) (n : Nat) (inv : Bool) (w : Word) : (State.trainSeen s n inv w).kept = s.kept := by
  unfold State.trainSeen
  repeat' first
    | with_reducible rfl
    | assumption
    | with_reducible (refine (forEach_kept _ _ _ (fun _ _ => ?_)).trans ?_)
    | with_reducible (refine (foldl_kept _ _ _ (fun _ _ => ?_)).trans ?_)
    | with_reducible (refine kept_if ?_ ?_)
    | simp [↓State.kept_mk]
    | intro _
    | dsimp only
    | split

@[simp] theorem State.trainRx_kept (s : State) (n : Nat) (inv : Bool) (w : Word) : (State.trainRx s n inv w).kept = s.kept := by
  unfold State.trainRx
  repeat' first
    | with_reducible rfl
    | assumption
    | with_reducible (refine (forEach_kept _ _ _ (fun _ _ => ?_)).trans ?_)
    | with_reducible (refine (foldl_kept _ _ _ (fun _ _ => ?_)).trans ?_)
    | with_reducible (refine kept_if ?_ ?_)
    | simp [↓State.kept_mk]
    | intro _
    | dsimp only
    | split

@[simp] theorem State.linkResets_kept (s : State) (mask : BitVec 24) : (State.linkResets s mask).kept = s.kept := by
  unfold State.linkResets
  repeat' first
    | with_reducible rfl
    | assumption
    | with_reducible (refine (forEach_kept _ _ _ (fun _ _ => ?_)).trans ?_)
    | with_reducible (refine (foldl_kept _ _ _ (fun _ _ => ?_)).trans ?_)
    | with_reducible (refine kept_if ?_ ?_)
    | simp

@[simp] theorem State.stopTastes_kept (s : State) (p : Nat) : (State.stopTastes s p).kept = s.kept := by
  unfold State.stopTastes; refine (forEach_kept _ _ _ fun _ _ => ?_).trans ?_ <;> simp

@[simp] theorem State.abortGroups_kept (s : State) (p : Nat) : (State.abortGroups s p).kept = s.kept := by
  unfold State.abortGroups; refine (forEach_kept _ _ _ fun _ _ => ?_).trans ?_ <;> simp

@[simp] theorem State.clearFlags_kept (s : State) (p : Nat) : (s.clearFlags p).kept = s.kept :=
  rfl

theorem kept_cnt (s : State) (i : Nat) : State.kept { s with obs := { s.obs with cnt := s.obs.cnt.drop i } } = s.kept := rfl

@[simp] theorem State.partReset_kept (s : State) (p : Nat) : (s.partReset p).kept = s.kept := by
  unfold State.partReset
  extract_lets a b c d e
  rw [State.clearFlags_kept]
  have he : e.kept = d.kept := forEach_kept _ _ _ fun _ _ => kept_cnt _ _
  have hc : c.kept = b.kept := forEach_kept _ _ _ fun _ _ => State.setSync_kept _ _ _
  have hb : b.kept = a.kept := forEach_kept _ _ _ fun _ _ => by rw [State.resetQueue_kept, State.modQueue_kept]
  rw [he, State.stopTastes_kept, hc, hb, State.abortGroups_kept]

@[simp] theorem State.startPart_kept (s : State) (p : Nat) : (State.startPart s p).kept = s.kept := by
  simp [State.startPart, ↓State.kept_mk]

@[simp] theorem State.partResets_kept (s : State) (mask : BitVec 16) : (State.partResets s mask).kept = s.kept := by
  unfold State.partResets; refine (forEach_kept _ _ _ fun _ _ => ?_).trans ?_ <;> simp

@[simp] theorem State.heldParts_kept (s : State) : (State.heldParts s).kept = s.kept := by
  unfold State.heldParts
  repeat' first
    | with_reducible rfl
    | assumption
    | with_reducible (refine (forEach_kept _ _ _ (fun _ _ => ?_)).trans ?_)
    | with_reducible (refine (foldl_kept _ _ _ (fun _ _ => ?_)).trans ?_)
    | with_reducible (refine kept_if ?_ ?_)
    | simp [↓State.kept_mk]

@[simp] theorem State.partDone_kept (s : State) (p : Nat) : (State.partDone s p).kept = s.kept := by
  simp [State.partDone, ↓State.kept_mk]

@[simp] theorem State.writeResetCtl_kept (s : State) (v : Word) : (State.writeResetCtl s v).kept = s.kept := by
  simp [State.writeResetCtl]

@[simp] theorem State.bootNext_kept (s : State) (ok : Bool) : (State.bootNext s ok).kept = s.kept := by
  unfold State.bootNext
  repeat' first
    | with_reducible rfl
    | assumption
    | with_reducible (refine (forEach_kept _ _ _ (fun _ _ => ?_)).trans ?_)
    | with_reducible (refine (foldl_kept _ _ _ (fun _ _ => ?_)).trans ?_)
    | with_reducible (refine kept_if ?_ ?_)
    | simp [↓State.kept_mk]
    | intro _
    | dsimp only
    | split

@[simp] theorem State.clDataRow_kept (s : State) (src op : Nat) (rack : Bool) : (State.clDataRow s src op rack).kept = s.kept := by
  simp [State.clDataRow]

@[simp] theorem State.clReadyRx_kept (s : State) (p : Pkt) : (State.clReadyRx s p).kept = s.kept :=
  rfl

@[simp] theorem State.doPark_kept (s : State) (g : Nat) : (State.doPark s g).kept = s.kept := by
  unfold State.doPark; split <;> rfl

@[simp] theorem State.doResume_kept (s : State) (g : Nat) : (State.doResume s g).kept = s.kept := by
  simp [State.doResume]

@[simp] theorem State.doParked_kept (s : State) (g : Nat) : (State.doParked s g).kept = s.kept := by
  simp [State.doParked]

@[simp] theorem State.stalled_kept (s : State) (g : Nat) : (State.stalled s g).kept = s.kept := by
  unfold State.stalled; split <;> simp

@[simp] theorem State.writeTcommit_kept (s : State) (v : Word) : (State.writeTcommit s v).kept = s.kept := by
  simp [State.writeTcommit]

@[simp] theorem State.modPins_kept (s : State) (f : Pins → Pins) : (State.modPins s f).kept = s.kept :=
  rfl

@[simp] theorem State.holdNotices_kept (s : State) : (State.holdNotices s).kept = s.kept := by
  unfold State.holdNotices; refine (forEach_kept _ _ _ fun _ _ => ?_).trans ?_ <;> simp

@[simp] theorem State.enterHold_kept (s : State) : (State.enterHold s).kept = s.kept := by
  simp [State.enterHold]

@[simp] theorem State.vwarnRise_kept (s : State) : (State.vwarnRise s).kept = s.kept := by
  simp [State.vwarnRise]

@[simp] theorem State.forwardHeld_kept (s : State) : (State.forwardHeld s).kept = s.kept := by
  unfold State.forwardHeld
  repeat' first
    | with_reducible rfl
    | assumption
    | with_reducible (refine (forEach_kept _ _ _ (fun _ _ => ?_)).trans ?_)
    | with_reducible (refine (foldl_kept _ _ _ (fun _ _ => ?_)).trans ?_)
    | with_reducible (refine kept_if ?_ ?_)
    | simp

theorem kept_admitQ (s : State) (l : List Pkt) : State.kept { s with admitQ := l } = s.kept := rfl
theorem kept_inn (s : State) (i : Inn) : State.kept { s with inn := i } = s.kept := rfl

@[simp] theorem State.releaseHold_kept (s : State) : (State.releaseHold s).kept = s.kept := by
  unfold State.releaseHold
  rw [State.heldParts_kept, State.payCredits_kept, State.forwardHeld_kept]
  refine (forEach_kept _ _ _ fun _ _ => State.place_kept _ _).trans ?_
  rw [kept_admitQ, State.reportLate_kept, kept_inn, State.modPins_kept]

@[simp] theorem State.vwarnRelease_kept (s : State) : (State.vwarnRelease s).kept = s.kept := by
  unfold State.vwarnRelease
  exact kept_if rfl (kept_if rfl (kept_if ((State.releaseHold_kept _).trans (State.modPins_kept _ _)) (State.modPins_kept _ _)))

@[simp] theorem State.holdAgain_kept (s : State) : (State.holdAgain s).kept = s.kept := by
  simp [State.holdAgain]

@[simp] theorem State.hotChange_kept (s : State) (i : Nat) (high : Bool) : (State.hotChange s i high).kept = s.kept := by
  simp [State.hotChange]

@[simp] theorem State.hotAgain_kept (s : State) : (State.hotAgain s).kept = s.kept := by
  simp [State.hotAgain]

@[simp] theorem State.speed_kept (s : State) (t : BitVec 16) : (State.speed s t).kept = s.kept := by
  simp [State.speed]

@[simp] theorem State.repace_kept (s : State) : (State.repace s).kept = s.kept := by
  unfold State.repace
  repeat' first
    | with_reducible rfl
    | assumption
    | with_reducible (refine (forEach_kept _ _ _ (fun _ _ => ?_)).trans ?_)
    | with_reducible (refine (foldl_kept _ _ _ (fun _ _ => ?_)).trans ?_)
    | with_reducible (refine kept_if ?_ ?_)
    | simp

@[simp] theorem State.hwFault_kept (s : State) (q : Nat) (rec : Bool) : (State.hwFault s q rec).kept = s.kept := by
  unfold State.hwFault
  repeat' first
    | with_reducible rfl
    | assumption
    | with_reducible (refine (forEach_kept _ _ _ (fun _ _ => ?_)).trans ?_)
    | with_reducible (refine (foldl_kept _ _ _ (fun _ _ => ?_)).trans ?_)
    | with_reducible (refine kept_if ?_ ?_)
    | simp
    | intro _
    | dsimp only
    | split

@[simp] theorem State.queueLost_kept (s : State) (q : Nat) : (State.queueLost s q).kept = s.kept := by
  simp [State.queueLost]

@[simp] theorem State.syncLost_kept (s : State) (n : Nat) : (State.syncLost s n).kept = s.kept :=
  rfl

@[simp] theorem State.locLost_kept (s : State) (n : Nat) : (State.locLost s n).kept = s.kept :=
  rfl

@[simp] theorem State.innLost_kept (s : State) (n : Nat) : (State.innLost s n).kept = s.kept :=
  rfl

@[simp] theorem State.traceLost_kept (s : State) (i : Nat) : (State.traceLost s i).kept = s.kept := by
  unfold State.traceLost; split <;> simp

@[simp] theorem State.lineLost_kept (s : State) (n : Nat) : (State.lineLost s n).kept = s.kept := by
  unfold State.lineLost
  repeat' first
    | with_reducible rfl
    | assumption
    | with_reducible (refine (forEach_kept _ _ _ (fun _ _ => ?_)).trans ?_)
    | with_reducible (refine (foldl_kept _ _ _ (fun _ _ => ?_)).trans ?_)
    | with_reducible (refine kept_if ?_ ?_)
    | simp [↓State.kept_mk]
    | intro _
    | dsimp only
    | split

@[simp] theorem State.waitersLost_kept (s : State) (n : Nat) : (State.waitersLost s n).kept = s.kept := by
  unfold State.waitersLost; refine (forEach_kept _ _ _ fun _ _ => ?_).trans ?_ <;> simp

@[simp] theorem State.strike_kept (s : State) (src n : Nat) : (State.strike s src n).kept = s.kept := by
  simp [State.strike, ↓State.kept_mk]

@[simp] theorem State.respondTo_kept (s : State) (src n : Nat) : (State.respondTo s src n).kept = s.kept := by
  simp [State.respondTo]

@[simp] theorem State.react_kept (s : State) (src n : Nat) : (State.react s src n).kept = s.kept := by
  simp [State.react, ↓State.kept_mk]

@[simp] theorem State.detect_kept (s : State) (l : List (Nat × Nat)) : (State.detect s l).kept = s.kept := by
  unfold State.detect; refine (forEach_kept _ _ _ fun _ _ => ?_).trans ?_ <;> simp

@[simp] theorem State.inject_kept (s : State) (src : Nat) : (State.inject s src).kept = s.kept := by
  simp [State.inject]

@[simp] theorem State.writeInject_kept (s : State) (v : Word) : (State.writeInject s v).kept = s.kept := by
  simp [State.writeInject]

@[simp] theorem State.clearStatus_kept (s : State) (mask : Word) : (State.clearStatus s mask).kept = s.kept := by
  simp [State.clearStatus, ↓State.kept_mk]

@[simp] theorem State.clearFirst_kept (s : State) (v : Word) : (State.clearFirst s v).kept = s.kept := by
  simp [State.clearFirst, ↓State.kept_mk]

@[simp] theorem State.writeErrctl_kept (s : State) (v : Word) : (State.writeErrctl s v).kept = s.kept :=
  rfl

@[simp] theorem State.pulseEnd_kept (s : State) : (State.pulseEnd s).kept = s.kept := by
  unfold State.pulseEnd; split <;> simp [↓State.kept_mk]

@[simp] theorem State.takeFaultb_kept (s : State) (p : Pkt) : (State.takeFaultb s p).kept = s.kept := by
  simp [State.takeFaultb, ↓State.kept_mk]

@[simp] theorem State.vc1Row_kept (s : State) (src op : Nat) (act : Pkt → State → State) (h_act : ∀ x0 r, (act x0 r).kept = r.kept) : (State.vc1Row s src op act).kept = s.kept := by
  unfold State.vc1Row
  repeat' first
    | with_reducible rfl
    | assumption
    | with_reducible (refine (forEach_kept _ _ _ (fun _ _ => ?_)).trans ?_)
    | with_reducible (refine (foldl_kept _ _ _ (fun _ _ => ?_)).trans ?_)
    | with_reducible (refine kept_if ?_ ?_)
    | simp [h_act]
    | intro _
    | dsimp only
    | split

@[simp] theorem State.modObs_kept (s : State) (f : Obs → Obs) : (State.modObs s f).kept = s.kept :=
  rfl

@[simp] theorem State.fireLevels_kept (s : State) : (State.fireLevels s).kept = s.kept := by
  simp [State.fireLevels]

@[simp] theorem State.fireNow_kept (s : State) (k : Nat) : (State.fireNow s k).kept = s.kept := by
  simp [State.fireNow]

@[simp] theorem State.writeTrig_kept (s : State) (k : Nat) (v : Word) : (State.writeTrig s k v).kept = s.kept := by
  simp [State.writeTrig]

@[simp] theorem State.writeTrigValue_kept (s : State) (k : Nat) (v : Word) : (State.writeTrigValue s k v).kept = s.kept := by
  simp [State.writeTrigValue]

@[simp] theorem State.writeCsel_kept (s : State) (n : Nat) (v : Word) : (State.writeCsel s n v).kept = s.kept :=
  rfl

@[simp] theorem State.writeCnt_kept (s : State) (n : Nat) (v : Word) : (State.writeCnt s n v).kept = s.kept := by
  simp [State.writeCnt]

@[simp] theorem State.takeViews_kept (s : State) : (State.takeViews s).kept = s.kept :=
  rfl

@[simp] theorem State.exportDue_kept (s : State) : (State.exportDue s).kept = s.kept := by
  simp [State.exportDue]

@[simp] theorem State.writeExport_kept (s : State) (v : Word) : (State.writeExport s v).kept = s.kept := by
  simp [State.writeExport]

@[simp] theorem State.takePower_kept (s : State) (watts : Nat) : (State.takePower s watts).kept = s.kept :=
  rfl

@[simp] theorem State.timedEntry_kept (s : State) : (State.timedEntry s).kept = s.kept := by
  simp [State.timedEntry]

@[simp] theorem State.writeCurfewAt_kept (s : State) (v : Word) : (State.writeCurfewAt s v).kept = s.kept := by
  simp [State.writeCurfewAt]

@[simp] theorem State.takeCurfewPkt_kept (s : State) (p : Pkt) : (State.takeCurfewPkt s p).kept = s.kept := by
  simp [State.takeCurfewPkt]

@[simp] theorem State.benchGo_kept (s : State) : (State.benchGo s).kept = s.kept := by
  simp [State.benchGo]

@[simp] theorem State.writeBench_kept (s : State) (v : Word) : (State.writeBench s v).kept = s.kept := by
  simp [State.writeBench]

end Sys2Proof.Machine
end

