-- ==== Sys2Proof/Laws/KeptRows.lean ====
section
/-! SUPPORT. What the operations of keys, the management port, curfew, instructions and link blocks keep (`State.kept`). -/

namespace Sys2Proof.Machine

set_option Elab.async false

@[simp] theorem State.proofFails_kept (s : State) (k cause : Nat) : (State.proofFails s k cause).kept = s.kept := by
  simp [State.proofFails]

@[simp] theorem State.sendAtt_kept (s : State) (k : Nat) (rsp : Bool) (no : BitVec 8) (m : Bytes) : (State.sendAtt s k rsp no m).kept = s.kept := by
  unfold State.sendAtt; refine (forEach_kept _ _ _ fun _ _ => ?_).trans ?_ <;> simp

@[simp] theorem State.askChain_kept (s : State) (k : Nat) : (State.askChain s k).kept = s.kept := by
  simp [State.askChain]

@[simp] theorem State.startProof_kept (s : State) (k : Nat) : (State.startProof s k).kept = s.kept := by
  simp [State.startProof]

@[simp] theorem State.modKex_kept (s : State) (k : Nat) (f : Kex → Kex) : (State.modKex s k f).kept = s.kept :=
  rfl

@[simp] theorem State.sendOpen_kept (s : State) (k : Nat) : (State.sendOpen s k).kept = s.kept := by
  simp [State.sendOpen]

@[simp] theorem State.sendEph_kept (s : State) (k : Nat) : (State.sendEph s k).kept = s.kept := by
  simp [State.sendEph]

@[simp] theorem State.sendConfirm_kept (s : State) (k : Nat) : (State.sendConfirm s k).kept = s.kept := by
  unfold State.sendConfirm; split <;> simp

@[simp] theorem State.kexGo_kept (s : State) (k : Nat) : (State.kexGo s k).kept = s.kept := by
  simp [State.kexGo]

@[simp] theorem State.fetchOver_kept (s : State) (k : Nat) : (State.fetchOver s k).kept = s.kept := by
  unfold State.fetchOver
  repeat' first
    | with_reducible rfl
    | assumption
    | with_reducible (refine (forEach_kept _ _ _ (fun _ _ => ?_)).trans ?_)
    | with_reducible (refine (foldl_kept _ _ _ (fun _ _ => ?_)).trans ?_)
    | with_reducible (refine kept_if ?_ ?_)
    | simp [↓State.kept_mk]
    | intro _
    | dsimp only
    | split

@[simp] theorem State.takeChain_kept (s : State) (k : Nat) (chain : Bytes) : (State.takeChain s k chain).kept = s.kept := by
  unfold State.takeChain
  repeat' first
    | with_reducible rfl
    | assumption
    | with_reducible (refine (forEach_kept _ _ _ (fun _ _ => ?_)).trans ?_)
    | with_reducible (refine (foldl_kept _ _ _ (fun _ _ => ?_)).trans ?_)
    | with_reducible (refine kept_if ?_ ?_)
    | simp
    | intro _
    | dsimp only
    | split

@[simp] theorem State.attMessage_kept (s : State) (k : Nat) (rsp : Bool) (no : BitVec 8) (m : Bytes) : (State.attMessage s k rsp no m).kept = s.kept := by
  unfold State.attMessage
  repeat' first
    | with_reducible rfl
    | assumption
    | with_reducible (refine (forEach_kept _ _ _ (fun _ _ => ?_)).trans ?_)
    | with_reducible (refine (foldl_kept _ _ _ (fun _ _ => ?_)).trans ?_)
    | with_reducible (refine kept_if ?_ ?_)
    | simp [↓State.kept_mk]
    | intro _
    | dsimp only
    | split

@[simp] theorem State.takeAtt_kept (s : State) (k : Nat) (p : Pkt) : (State.takeAtt s k p).kept = s.kept := by
  unfold State.takeAtt
  repeat' first
    | with_reducible rfl
    | assumption
    | with_reducible (refine (forEach_kept _ _ _ (fun _ _ => ?_)).trans ?_)
    | with_reducible (refine (foldl_kept _ _ _ (fun _ _ => ?_)).trans ?_)
    | with_reducible (refine kept_if ?_ ?_)
    | simp
    | intro _
    | dsimp only
    | split

@[simp] theorem State.attRow_kept (s : State) (k : Nat) : (State.attRow s k).kept = s.kept := by
  unfold State.attRow; repeat' split
  all_goals simp

@[simp] theorem State.kexRow_kept (s : State) (k kind : Nat) (act : Bytes → State → State) (h_act : ∀ x0 r, (act x0 r).kept = r.kept) : (State.kexRow s k kind act).kept = s.kept := by
  unfold State.kexRow
  repeat' first
    | with_reducible rfl
    | assumption
    | with_reducible (refine (forEach_kept _ _ _ (fun _ _ => ?_)).trans ?_)
    | with_reducible (refine (foldl_kept _ _ _ (fun _ _ => ?_)).trans ?_)
    | with_reducible (refine kept_if ?_ ?_)
    | simp [h_act]
    | intro _
    | dsimp only
    | split

@[simp] theorem State.takeOpen_kept (s : State) (k : Nat) (d : Bytes) : (State.takeOpen s k d).kept = s.kept := by
  simp [State.takeOpen]

@[simp] theorem State.takeEph_kept (s : State) (k : Nat) (d : Bytes) : (State.takeEph s k d).kept = s.kept := by
  simp [State.takeEph]

@[simp] theorem State.takeConfirm_kept (s : State) (k : Nat) (d : Bytes) : (State.takeConfirm s k d).kept = s.kept := by
  simp [State.takeConfirm]

@[simp] theorem State.rekeyLink_kept (s : State) (k : Nat) : (State.rekeyLink s k).kept = s.kept := by
  simp [State.rekeyLink]

@[simp] theorem State.askAdvance_kept (s : State) (k : Nat) : (State.askAdvance s k).kept = s.kept :=
  rfl

@[simp] theorem State.writeSecCtl_kept (s : State) (k : Nat) (v : Word) : (State.writeSecCtl s k v).kept = s.kept := by
  simp [State.writeSecCtl]

@[simp] theorem State.retirePrev_kept (s : State) (k : Nat) : (State.retirePrev s k).kept = s.kept := by
  simp [State.retirePrev]

@[simp] theorem State.helloDue_kept (s : State) (k : Nat) : (State.helloDue s k).kept = s.kept := by
  simp [State.helloDue]

@[simp] theorem State.takeHello_kept (s : State) (k : Nat) (h : Bytes) : (State.takeHello s k h).kept = s.kept := by
  simp [State.takeHello]

@[simp] theorem State.helloRow_kept (s : State) (k : Nat) : (State.helloRow s k).kept = s.kept := by
  unfold State.helloRow; repeat' split
  all_goals simp

@[simp] theorem State.writeScrubCtl_kept (s : State) (v : Word) : (State.writeScrubCtl s v).kept = s.kept := by
  simp [State.writeScrubCtl]

@[simp] theorem State.modSpdm_kept (s : State) (f : Spdm → Spdm) : (State.modSpdm s f).kept = s.kept :=
  rfl

@[simp] theorem State.spdmGo_kept (s : State) : (State.spdmGo s).kept = s.kept := by
  simp [State.spdmGo]

@[simp] theorem State.writeSpdm_kept (s : State) (v : Word) : (State.writeSpdm s v).kept = s.kept := by
  simp [State.writeSpdm]

@[simp] theorem State.setRegs_kept (s : State) (a : Nat) (l : List Word) : (State.setRegs s a l).kept = s.kept := by
  unfold State.setRegs; refine (forEach_kept _ _ _ fun _ _ => ?_).trans ?_ <;> simp

@[simp] theorem State.spdmAnswer_kept (s : State) : (State.spdmAnswer s).kept = s.kept := by
  unfold State.spdmAnswer; repeat' split
  all_goals simp

@[simp] theorem State.clearObs_kept (s : State) (o : Nat) : (State.clearObs s o).kept = s.kept := by
  unfold State.clearObs; split <;> simp

@[simp] theorem State.clearLnk_kept (s : State) (k o : Nat) : (State.clearLnk s k o).kept = s.kept := by
  unfold State.clearLnk; split <;> simp

@[simp] theorem State.clearLane_kept (s : State) (n o : Nat) : (State.clearLane s n o).kept = s.kept := by
  unfold State.clearLane; split <;> simp

@[simp] theorem State.clearSmv_kept (s : State) (o : Nat) : (State.clearSmv s o).kept = s.kept := by
  unfold State.clearSmv; repeat' split
  all_goals simp

@[simp] theorem State.clearInn_kept (s : State) (o : Nat) : (State.clearInn s o).kept = s.kept := by
  unfold State.clearInn; split <;> simp

@[simp] theorem State.clearRc_kept (s : State) (a : Nat) : (State.clearRc s a).kept = s.kept := by
  simp [State.clearRc, ↓State.kept_mk]

@[simp] theorem State.plain_kept (s : State) (a : Nat) (m v : Word) : (State.plain s a m v).kept = s.kept :=
  rfl

@[simp] theorem State.writeSpad_kept (s : State) (v : Word) : (State.writeSpad s v).kept = s.kept := by
  simp [State.writeSpad]

@[simp] theorem State.oweReset_kept (s : State) : (State.oweReset s).kept = s.kept := 
  rfl

@[simp] theorem State.writeReset_kept (s : State) (v : Word) : (State.writeReset s v).kept = s.kept := by
  simp [State.writeReset, ↓State.kept_mk]

@[simp] theorem State.writeGbl_kept (s : State) (o : Nat) (v : Word) : (State.writeGbl s o v).kept = s.kept := by
  unfold State.writeGbl; split <;> simp [↓State.kept_mk]

@[simp] theorem State.writeFc_kept (s : State) (o : Nat) (v : Word) : (State.writeFc s o v).kept = s.kept := by
  unfold State.writeFc; split <;> simp

@[simp] theorem State.writeMsCtl_kept (s : State) (v : Word) : (State.writeMsCtl s v).kept = s.kept := by
  simp [State.writeMsCtl]

@[simp] theorem State.writeScanCtl_kept (s : State) (v : Word) : (State.writeScanCtl s v).kept = s.kept := by
  simp [State.writeScanCtl]

@[simp] theorem State.writeBenchRegs_kept (s : State) (o : Nat) (v : Word) : (State.writeBenchRegs s o v).kept = s.kept := by
  simp [State.writeBenchRegs]

@[simp] theorem State.writeObs_kept (s : State) (o : Nat) (v : Word) : (State.writeObs s o v).kept = s.kept := by
  unfold State.writeObs; repeat' split
  all_goals simp

@[simp] theorem State.writeQuota_kept (s : State) (p : Nat) (v : Word) : (State.writeQuota s p v).kept = s.kept := by
  simp [State.writeQuota]

@[simp] theorem State.writeFecCtl_kept (s : State) (k : Nat) (v : Word) : (State.writeFecCtl s k v).kept = s.kept := by
  simp [State.writeFecCtl]

@[simp] theorem State.writeLnk_kept (s : State) (k o : Nat) (v : Word) : (State.writeLnk s k o v).kept = s.kept := by
  unfold State.writeLnk; split <;> simp

@[simp] theorem State.writeLane_kept (s : State) (n o : Nat) (v : Word) : (State.writeLane s n o v).kept = s.kept := by
  unfold State.writeLane; split <;> simp

@[simp] theorem State.writeQ_kept (s : State) (q w : Nat) (v : Word) : (State.writeQ s q w v).kept = s.kept := by
  unfold State.writeQ; split <;> simp

@[simp] theorem State.writeGctl_kept (s : State) (g : Nat) (v : Word) : (State.writeGctl s g v).kept = s.kept := by
  simp [State.writeGctl]

@[simp] theorem State.writeSmv_kept (s : State) (o : Nat) (v : Word) : (State.writeSmv s o v).kept = s.kept := by
  unfold State.writeSmv; split <;> simp

@[simp] theorem State.writePrt_kept (s : State) (p o : Nat) (v : Word) : (State.writePrt s p o v).kept = s.kept := by
  unfold State.writePrt; split <;> simp [↓State.kept_mk]

@[simp] theorem State.tapLoad_kept (s : State) (ir : BitVec 4) : (State.tapLoad s ir).kept = s.kept := 
  rfl

@[simp] theorem State.settle_kept (s : State) (a : Nat) : (State.settle s a).kept = s.kept := by
  unfold State.settle
  repeat' first
    | with_reducible rfl
    | assumption
    | with_reducible (refine (forEach_kept _ _ _ (fun _ _ => ?_)).trans ?_)
    | with_reducible (refine (foldl_kept _ _ _ (fun _ _ => ?_)).trans ?_)
    | with_reducible (refine kept_if ?_ ?_)
    | simp [↓State.kept_mk]
    | intro _
    | dsimp only
    | split

@[simp] theorem State.scanSettle_kept (s : State) (p : ScanPos) : (State.scanSettle s p).kept = s.kept := by
  unfold State.scanSettle
  repeat' first
    | with_reducible rfl
    | assumption
    | with_reducible (refine (forEach_kept _ _ _ (fun _ _ => ?_)).trans ?_)
    | with_reducible (refine (foldl_kept _ _ _ (fun _ _ => ?_)).trans ?_)
    | with_reducible (refine kept_if ?_ ?_)
    | simp [↓State.kept_mk]
    | intro _
    | dsimp only
    | split

@[simp] theorem State.tapScan_kept (s : State) (w : Word) : (State.tapScan s w).kept = s.kept := by
  unfold State.tapScan
  repeat' first
    | with_reducible rfl
    | assumption
    | with_reducible (refine (forEach_kept _ _ _ (fun _ _ => ?_)).trans ?_)
    | with_reducible (refine (foldl_kept _ _ _ (fun _ _ => ?_)).trans ?_)
    | with_reducible (refine kept_if ?_ ?_)
    | simp [↓State.kept_mk]
    | intro _
    | dsimp only
    | split

@[simp] theorem State.linkResumed_kept (s : State) (n : Nat) : (State.linkResumed s n).kept = s.kept := by
  simp [State.linkResumed]

@[simp] theorem State.restart_kept (s : State) : (State.restart s).kept = s.kept := by
  unfold State.restart
  extract_lets a
  have ha : a.kept = s.kept := kept_if (State.enterHold_kept _) rfl
  refine (kept_if (State.releaseHold_kept _) (kept_if ?_ ?_)).trans ha
  · rw [State.heldParts_kept, State.payCredits_kept]
  · rw [State.heldParts_kept, State.payCredits_kept]
    exact (forEach_kept _ _ _ fun _ _ => State.place_kept _ _).trans rfl

@[simp] theorem State.resumeExpire_kept (s : State) (n : Nat) : (State.resumeExpire s n).kept = s.kept := by
  unfold State.resumeExpire; split <;> simp

@[simp] theorem State.laneInsn_kept (s : State) (q : Nat) (w : Fields) (ok : Bool) (k : Nat → State → State) (h_k : ∀ x0 r, (k x0 r).kept = r.kept) : (State.laneInsn s q w ok k).kept = s.kept := by
  unfold State.laneInsn
  repeat' first
    | with_reducible rfl
    | assumption
    | with_reducible (refine (forEach_kept _ _ _ (fun _ _ => ?_)).trans ?_)
    | with_reducible (refine (foldl_kept _ _ _ (fun _ _ => ?_)).trans ?_)
    | with_reducible (refine kept_if ?_ ?_)
    | simp [h_k]

theorem State.notifies_kept (s : State) (q : Nat) (w : Fields) (k : State → State) (h : ∀ r, (k r).kept = r.kept) :
    (State.notifies s q w k).kept = s.kept := by
  unfold State.notifies
  exact kept_if (State.owned_kept _ _ _ _ h) (h s)

@[simp] theorem insnSlipInstr_kept (q : Nat) (w : Fields) (s : State) : (insnSlipInstr q w s).kept = s.kept := by
  unfold insnSlipInstr
  refine State.laneInsn_kept _ _ _ _ _ fun _ r => State.notifies_kept _ _ _ _ fun r => ?_
  dsimp only
  split <;> split <;> simp

@[simp] theorem insnEqset_kept (q : Nat) (w : Fields) (s : State) : (insnEqset q w s).kept = s.kept := by
  simp [insnEqset]

@[simp] theorem insnEyescan_kept (q : Nat) (w : Fields) (s : State) : (insnEyescan q w s).kept = s.kept := by
  unfold insnEyescan
  refine State.laneInsn_kept _ _ _ _ _ fun _ r => State.notifies_kept _ _ _ _ fun r => ?_
  dsimp only
  split <;> simp

@[simp] theorem insnPrbs_kept (q : Nat) (w : Fields) (s : State) : (insnPrbs q w s).kept = s.kept := by
  simp [insnPrbs]

@[simp] theorem insnTrain_kept (q : Nat) (w : Fields) (s : State) : (insnTrain q w s).kept = s.kept := by
  simp [insnTrain]

@[simp] theorem State.control_kept (s : State) (k ty : Nat) (w : Word) (act : State → State) (h_act : ∀  r, (act  r).kept = r.kept) : (State.control s k ty w act).kept = s.kept := by
  unfold State.control
  repeat' first
    | with_reducible rfl
    | assumption
    | with_reducible (refine (forEach_kept _ _ _ (fun _ _ => ?_)).trans ?_)
    | with_reducible (refine (foldl_kept _ _ _ (fun _ _ => ?_)).trans ?_)
    | with_reducible (refine kept_if ?_ ?_)
    | simp [h_act]

@[simp] theorem State.takeAckBlock_kept (s : State) (k : Nat) (w : Word) : (State.takeAckBlock s k w).kept = s.kept := by
  simp [State.takeAckBlock]

@[simp] theorem State.takeCreditBlock_kept (s : State) (k : Nat) (w : Word) : (State.takeCreditBlock s k w).kept = s.kept := by
  simp [State.takeCreditBlock]

@[simp] theorem State.takeCredInitBlock_kept (s : State) (k : Nat) (w : Word) : (State.takeCredInitBlock s k w).kept = s.kept := by
  simp [State.takeCredInitBlock]

@[simp] theorem State.takePaceBlock_kept (s : State) (k : Nat) (w : Word) : (State.takePaceBlock s k w).kept = s.kept := by
  unfold State.takePaceBlock
  exact State.control_kept _ _ _ _ _ fun _ => State.modLL_kept _ _ _

@[simp] theorem State.takeFatalBlock_kept (s : State) (k : Nat) (w : Word) : (State.takeFatalBlock s k w).kept = s.kept := by
  simp [State.takeFatalBlock]

@[simp] theorem State.takeEntry_kept (s : State) (k : Nat) (w : Word) : (State.takeEntry s k w).kept = s.kept := by
  simp [State.takeEntry]

@[simp] theorem State.captureFrame_kept (s : State) (k : Nat) (b : Bytes) : (State.captureFrame s k b).kept = s.kept := by
  unfold State.captureFrame
  repeat' first
    | with_reducible rfl
    | assumption
    | with_reducible (refine (forEach_kept _ _ _ (fun _ _ => ?_)).trans ?_)
    | with_reducible (refine (foldl_kept _ _ _ (fun _ _ => ?_)).trans ?_)
    | with_reducible (refine kept_if ?_ ?_)
    | simp

@[simp] theorem State.endTs_kept (s : State) (k : Nat) : (State.endTs s k).kept = s.kept := by
  unfold State.endTs; refine (forEach_kept _ _ _ fun _ _ => ?_).trans ?_ <;> simp

@[simp] theorem State.checkFrame_kept (s : State) (k : Nat) (fr : RxFrame) : (State.checkFrame s k fr).kept = s.kept := by
  unfold State.checkFrame; split <;> simp

@[simp] theorem State.ackDue_kept (s : State) (k : Nat) : (State.ackDue s k).kept = s.kept := by
  simp [State.ackDue]

@[simp] theorem State.credInitDue_kept (s : State) (k : Nat) : (State.credInitDue s k).kept = s.kept := by
  simp [State.credInitDue]

@[simp] theorem State.replayDue_kept (s : State) (k : Nat) : (State.replayDue s k).kept = s.kept := by
  unfold State.replayDue; split <;> simp

@[simp] theorem State.frameBoundary_kept (s : State) (k : Nat) : (State.frameBoundary s k).kept = s.kept := by
  simp [State.frameBoundary]

@[simp] theorem State.linkBoundary_kept (s : State) (k : Nat) : (State.linkBoundary s k).kept = s.kept := by
  simp [State.linkBoundary]

@[simp] theorem State.schedBoundary_kept (s : State) : (State.schedBoundary s).kept = s.kept := by
  unfold State.schedBoundary
  repeat' first
    | with_reducible rfl
    | assumption
    | with_reducible (refine (forEach_kept _ _ _ (fun _ _ => ?_)).trans ?_)
    | with_reducible (refine (foldl_kept _ _ _ (fun _ _ => ?_)).trans ?_)
    | with_reducible (refine kept_if ?_ ?_)
    | simp

end Sys2Proof.Machine
end

