-- ==== Sys2Proof/Laws/Tab.lean ====
section
/-! SUPPORT. The laws of the sparse tables: reading what was written, other keys untouched, and the canonical form kept. -/

namespace Sys2Proof

variable {α : Type}

theorem Tab.get_insert_same (d : α) (t : Tab α) (k : Nat) (v : α) : Tab.get d (Tab.insert t k v) k = v := by
  induction t with
  | nil => simp [Tab.insert, Tab.get]
  | cons e t ih =>
    obtain ⟨j, w⟩ := e
    unfold Tab.insert
    split
    · simp [Tab.get]
    · split
      · simp [Tab.get]
      · rename_i h
        simp [Tab.get, h, ih]

theorem Tab.get_insert_ne (d : α) (t : Tab α) {k j : Nat} (v : α) (h : j ≠ k) :
    Tab.get d (Tab.insert t k v) j = Tab.get d t j := by
  induction t with
  | nil => simp [Tab.insert, Tab.get, h]
  | cons e t ih =>
    obtain ⟨i, w⟩ := e
    unfold Tab.insert
    split
    · simp [Tab.get, h]
    · split
      · rename_i hk
        subst hk
        simp [Tab.get, h]
      · simp [Tab.get, ih]

theorem Tab.get_drop_same (d : α) (t : Tab α) (k : Nat) : Tab.get d (Tab.drop t k) k = d := by
  induction t with
  | nil => rfl
  | cons e t ih =>
    obtain ⟨j, w⟩ := e
    by_cases h : j = k
    · simpa [Tab.drop, h] using ih
    · have h' : ¬ k = j := fun e => h e.symm
      simpa [Tab.drop, Tab.get, h, h'] using ih

theorem Tab.get_drop_ne (d : α) (t : Tab α) {k j : Nat} (h : j ≠ k) : Tab.get d (Tab.drop t k) j = Tab.get d t j := by
  induction t with
  | nil => rfl
  | cons e t ih =>
    obtain ⟨i, w⟩ := e
    by_cases hi : i = k
    · have h' : ¬ j = i := fun e => h (e.trans hi)
      simpa [Tab.drop, Tab.get, hi, h', h] using ih
    · simp only [Tab.drop, List.filter_cons, decide_not, hi, decide_false, Bool.not_false, ↓reduceIte, Tab.get]
      split
      · rfl
      · simpa [Tab.drop] using ih

/-- Reading the entry that was written. -/
@[simp] theorem Tab.get_put_same [DecidableEq α] (d : α) (t : Tab α) (k : Nat) (v : α) : Tab.get d (Tab.put d t k v) k = v := by
  unfold Tab.put
  split
  · rename_i h
    rw [Tab.get_drop_same, h]
  · exact Tab.get_insert_same d _ k v

/-- Every other entry is as it was, whatever an unlisted key reads as there. -/
theorem Tab.get_put_ne [DecidableEq α] {d d' : α} (t : Tab α) {k j : Nat} (v : α) (h : j ≠ k) :
    Tab.get d' (Tab.put d t k v) j = Tab.get d' t j := by
  unfold Tab.put
  split
  · exact Tab.get_drop_ne d' t h
  · rw [Tab.get_insert_ne d' _ v h, Tab.get_drop_ne d' t h]

theorem Tab.drop_drop (t : Tab α) (k : Nat) : Tab.drop (Tab.drop t k) k = Tab.drop t k := by simp [Tab.drop]

theorem Tab.drop_insert (t : Tab α) (k : Nat) (v : α) : Tab.drop (Tab.insert t k v) k = Tab.drop t k := by
  induction t with
  | nil => simp [Tab.insert, Tab.drop]
  | cons e t ih =>
    obtain ⟨j, w⟩ := e
    unfold Tab.insert
    split
    · simp [Tab.drop]
    · split
      · rename_i h
        simp [Tab.drop, h]
      · unfold Tab.drop at ih ⊢
        simp only [List.filter_cons, ih]

/-- Of two writes of one entry the last stands. -/
@[simp] theorem Tab.put_put [DecidableEq α] (d d' : α) (t : Tab α) (k : Nat) (v w : α) :
    Tab.put d (Tab.put d' t k v) k w = Tab.put d t k w := by
  have h : Tab.drop (Tab.put d' t k v) k = Tab.drop t k := by
    unfold Tab.put
    split
    · exact Tab.drop_drop t k
    · rw [Tab.drop_insert, Tab.drop_drop]
  unfold Tab.put at h ⊢
  rw [h]

theorem Tab.mem_insert {t : Tab α} {k : Nat} {v : α} {e : Nat × α} (h : e ∈ Tab.insert t k v) : e = (k, v) ∨ e ∈ t := by
  induction t with
  | nil => simpa [Tab.insert] using h
  | cons a t ih =>
    unfold Tab.insert at h
    split at h
    · rcases List.mem_cons.mp h with h | h
      · exact .inl h
      · exact .inr h
    · split at h
      · rcases List.mem_cons.mp h with h | h
        · exact .inl h
        · exact .inr (List.mem_cons_of_mem _ h)
      · rcases List.mem_cons.mp h with h | h
        · exact .inr (h ▸ List.mem_cons_self)
        · exact (ih h).imp_right (List.mem_cons_of_mem _)

theorem Tab.wfBy_insert [DecidableEq α] (d : Nat → α) {t : Tab α} {k : Nat} {v : α} (hv : v ≠ d k)
    (h : Tab.wfBy d t = true) : Tab.wfBy d (Tab.insert t k v) = true := by
  induction t with
  | nil => simp [Tab.insert, Tab.wfBy, hv]
  | cons a t ih =>
    obtain ⟨j, w⟩ := a
    simp only [Tab.wfBy, Bool.and_eq_true, decide_eq_true_eq, List.all_eq_true] at h
    obtain ⟨⟨hw, hj⟩, ht⟩ := h
    unfold Tab.insert
    split
    · rename_i hk
      simp only [Tab.wfBy, Bool.and_eq_true, decide_eq_true_eq, List.all_eq_true]
      refine ⟨⟨hv, ?_⟩, ⟨hw, hj⟩, ht⟩
      intro e he
      rcases List.mem_cons.mp he with rfl | he
      · exact hk
      · exact lt_trans hk (hj e he)
    · split
      · rename_i hk
        subst hk
        simp only [Tab.wfBy, Bool.and_eq_true, decide_eq_true_eq, List.all_eq_true]
        exact ⟨⟨hv, hj⟩, ht⟩
      · rename_i h1 h2
        simp only [Tab.wfBy, Bool.and_eq_true, decide_eq_true_eq, List.all_eq_true]
        refine ⟨⟨hw, ?_⟩, ih ht⟩
        intro e he
        rcases Tab.mem_insert he with rfl | he
        · exact lt_of_le_of_ne (not_lt.mp h1) (Ne.symm h2)
        · exact hj e he

theorem Tab.wfBy_drop [DecidableEq α] (d : Nat → α) {t : Tab α} (k : Nat) (h : Tab.wfBy d t = true) :
    Tab.wfBy d (Tab.drop t k) = true := by
  induction t with
  | nil => rfl
  | cons a t ih =>
    obtain ⟨j, w⟩ := a
    simp only [Tab.wfBy, Bool.and_eq_true, decide_eq_true_eq, List.all_eq_true] at h
    obtain ⟨⟨hw, hj⟩, ht⟩ := h
    by_cases hk : j = k
    · simpa [Tab.drop, hk] using ih ht
    · have e : Tab.drop ((j, w) :: t) k = (j, w) :: Tab.drop t k := by simp [Tab.drop, hk]
      rw [e]
      simp only [Tab.wfBy, Bool.and_eq_true, decide_eq_true_eq, List.all_eq_true]
      exact ⟨⟨hw, fun e he => hj e (List.mem_filter.mp he).1⟩, ih ht⟩

/-- Writing an entry keeps the canonical form. -/
theorem Tab.put_wf [DecidableEq α] (d : α) {t : Tab α} (k : Nat) (v : α) (h : Tab.wf d t = true) :
    Tab.wf d (Tab.put d t k v) = true := by
  unfold Tab.put
  split
  · exact Tab.wfBy_drop _ k h
  · rename_i hv
    exact Tab.wfBy_insert _ hv (Tab.wfBy_drop _ k h)

/-- The same where each key has a default of its own, as the registers have. -/
theorem Tab.put_wfBy [DecidableEq α] (d : Nat → α) {t : Tab α} (k : Nat) (v : α) (h : Tab.wfBy d t = true) :
    Tab.wfBy d (Tab.put (d k) t k v) = true := by
  unfold Tab.put
  split
  · exact Tab.wfBy_drop _ k h
  · rename_i hv
    exact Tab.wfBy_insert _ hv (Tab.wfBy_drop _ k h)

end Sys2Proof
end

