-- ==== Sys2Proof/Laws/Watch.lean ====
section
/-! SUPPORT. What counting, recording, firing and entering curfew can do to the block: observation, the record of what is
driven and its line coding, and the pins change, and nothing else. -/

namespace Sys2Proof.Machine

/-- `t` is `s` but for observation, what has been driven, its line coding, and the pins. -/
def Watched (s t : State) : Prop := ∃ o l p z, t = { s with obs := o, sent := l, pins := p, lines := z }

theorem Watched.refl (s : State) : Watched s s := ⟨s.obs, s.sent, s.pins, s.lines, rfl⟩

theorem Watched.trans {s t u : State} : Watched s t → Watched t u → Watched s u := by
  rintro ⟨o, l, p, z, rfl⟩ ⟨o', l', p', z', rfl⟩
  exact ⟨o', l', p', z', rfl⟩

theorem Watched.upd {s t : State} (h : Watched s t) (o : Obs) (p : Pins) : Watched s { t with obs := o, pins := p } := by
  obtain ⟨_, l, _, z, rfl⟩ := h
  exact ⟨o, l, p, z, rfl⟩

theorem Watched.ite {s a b : State} {c : Prop} [Decidable c] (ha : Watched s a) (hb : Watched s b) :
    Watched s (if c then a else b) := by
  split <;> assumption

theorem forEach_watched {α : Type} (l : List α) (f : α → State → State) (s : State) (h : ∀ a r, Watched r (f a r)) :
    Watched s (forEach l f s) := by
  induction l generalizing s with
  | nil => exact .refl s
  | cons a l ih => exact (h a s).trans (ih (f a s))

theorem State.setTrace_watched (s : State) (t : Trace) : Watched s (s.setTrace t) := ⟨_, s.sent, s.pins, s.lines, rfl⟩

theorem State.bumpCnt_watched (s : State) (i n : Nat) : Watched s (s.bumpCnt i n) := ⟨_, s.sent, s.pins, s.lines, rfl⟩

theorem State.setTrigger_watched (s : State) (k : Nat) (t : Trig) : Watched s (s.setTrigger k t) := ⟨_, s.sent, s.pins, s.lines, rfl⟩

theorem State.emits_watched (s : State) (l : List Emit) : Watched s (s.emits l) := ⟨s.obs, _, s.pins, _, rfl⟩

theorem State.tallyCnt_watched (s : State) (event : Nat) : Watched s (s.tallyCnt event) := by
  unfold State.tallyCnt
  refine .ite (.refl s) (.ite (.refl s) ?_)
  exact (s.setTrace_watched _).trans (forEach_watched _ _ _ fun i r => r.bumpCnt_watched i 1)

theorem State.capture_watched (s : State) (r : Rec) : Watched s (s.capture r).1 := by
  unfold State.capture
  exact .ite (.trans (s.setTrace_watched _) (State.tallyCnt_watched _ _)) (s.setTrace_watched _)

theorem State.tally_watched (s : State) (event : Nat) : Watched s (s.tally event) := by
  unfold State.tally
  refine .ite (.refl s) ((s.tallyCnt_watched event).trans ?_)
  exact forEach_watched _ _ _ fun i r => .ite (r.capture_watched _) (.refl r)

theorem State.offer_watched (s : State) (r : Rec) : Watched s (s.offer r) := by
  unfold State.offer
  exact .ite (.refl s) (.ite (.trans (s.setTrace_watched _) (State.tally_watched _ _)) (s.setTrace_watched _))

theorem State.curfewRec_watched (s : State) (aux : Nat) : Watched s (s.curfewRec aux) := by
  unfold State.curfewRec
  exact .ite (s.offer_watched _) (.refl s)

theorem State.enterCurfew_watched (s : State) (cause link : Nat) (origin : BitVec 11) (serial : BitVec 32) :
    Watched s (s.enterCurfew cause link origin serial) := by
  unfold State.enterCurfew
  refine .ite (.refl s) ?_
  have h : ∀ (t : State) (l : List Emit), Watched s t → Watched s (if t.fc.safe then t else t.emits l) :=
    fun t l ht => .ite ht (ht.trans (t.emits_watched l))
  exact h _ _ (.upd (.trans (.upd (.refl s) _ s.pins) (State.curfewRec_watched _ 0)) _ _)

theorem State.enterCurfewOwn_watched (s : State) (cause : Nat) : Watched s (s.enterCurfewOwn cause) :=
  s.enterCurfew_watched _ _ _ _

theorem State.fireUnit_watched (s : State) (k : Nat) : Watched s (s.fireUnit k) := by
  unfold State.fireUnit
  have h := fun t r => (s.setTrigger_watched k t).trans (State.offer_watched _ r)
  exact .ite ((h _ _).trans (State.enterCurfewOwn_watched _ _)) (h _ _)

theorem State.fireWhere_watched (s : State) (holds : Trig → Bool) : Watched s (s.fireWhere holds) :=
  forEach_watched _ _ _ fun k r => .ite (r.fireUnit_watched k) (.refl r)

theorem State.countStep_watched (s : State) (i n inst : Nat) (part : Option Nat) : Watched s (s.countStep i n inst part) := by
  unfold State.countStep
  have h := s.bumpCnt_watched i n
  exact .trans (.ite (h.trans (State.offer_watched _ _)) h) (State.fireWhere_watched _ _)

theorem State.countOne_watched (s : State) (i n inst : Nat) (part : Option Nat) : Watched s (s.countOne i n inst part) := by
  unfold State.countOne
  exact .ite (forEach_watched _ _ _ fun _ r => r.countStep_watched i 1 inst part) (s.countStep_watched i n inst part)

theorem State.fireTallied_watched (s : State) : Watched s s.fireTallied :=
  .ite (.refl s) ((s.setTrace_watched _).trans (State.fireWhere_watched _ _))

/-- Counting an event changes observation, what is driven, its line coding and the pins, and nothing else. -/
theorem State.count_watched (s : State) (unit_ event inst : Nat) (part : Option Nat) (n : Nat) :
    Watched s (s.count unit_ event inst part n) :=
  .ite (.refl s) (forEach_watched _ _ _ fun i r => r.countOne_watched i n inst part)

theorem State.watchPkt_watched (s : State) (link : Nat) (tx : Bool) (p : Pkt) : Watched s (s.watchPkt link tx p) := by
  unfold State.watchPkt
  exact .ite (.refl s) (.trans (.ite (s.offer_watched _) (.refl s)) (State.fireWhere_watched _ _))

end Sys2Proof.Machine
end

