-- ==== Sys2Proof/Laws/LaneCounts.lean ====
section
/-! SUPPORT. What bringing the counts of a lane up to the present can do (R97, R112): that lane's counts and their times change, the
event counters of its receive crossing, observation, what is driven and its line coding, the pins and the free counter, and nothing else. -/

namespace Sys2Proof.Machine

/-- `t` is `s` with lane `n` at `d`, but for the crossings, the free counter and what counting an event changes. -/
def Settled (s t : State) (n : Nat) (d : Lane) : Prop :=
  ∃ o l p z x c, t = { s.setLane n d with obs := o, sent := l, pins := p, lines := z, xings := x, freeCtr := c }

theorem Settled.lane {s t : State} {n : Nat} {d : Lane} (h : Settled s t n d) : t.lane n = d := by
  obtain ⟨_, _, _, _, _, _, rfl⟩ := h
  simp [State.lane, State.setLane]

theorem Settled.lane_ne {s t : State} {n m : Nat} {d : Lane} (h : Settled s t n d) (hm : m ≠ n) : t.lane m = s.lane m := by
  obtain ⟨_, _, _, _, _, _, rfl⟩ := h
  simp [State.lane, State.setLane, Tab.get_put_ne _ _ hm]

theorem Settled.trans {s t u : State} {n : Nat} {d e : Lane} (h : Settled s t n d) (k : Settled t u n e) : Settled s u n e := by
  obtain ⟨_, _, _, _, _, _, rfl⟩ := h
  obtain ⟨o, l, p, z, x, c, rfl⟩ := k
  exact ⟨o, l, p, z, x, c, by simp [State.setLane]⟩

theorem State.setLane_settled (s : State) (n : Nat) (d : Lane) : Settled s (s.setLane n d).drew n d :=
  ⟨s.obs, s.sent, s.pins, s.lines, s.xings, s.freeCtr + 1, rfl⟩

theorem State.modLane_settled (s : State) (n : Nat) (f : Lane → Lane) : Settled s (s.modLane n f) n (f (s.lane n)) :=
  ⟨s.obs, s.sent, s.pins, s.lines, s.xings, s.freeCtr, rfl⟩

theorem State.headerErrs_settled (s : State) (n k : Nat) :
    Settled s (s.headerErrs n k) n { s.lane n with hdrErr := satAdd (s.lane n).hdrErr k } := by
  have hx : ∃ x, s.crossKey n .header k = { s with xings := x } := by
    unfold State.crossKey
    dsimp only
    split
    · exact ⟨s.xings, rfl⟩
    · exact ⟨_, rfl⟩
  obtain ⟨x, hx⟩ := hx
  unfold State.headerErrs
  rw [hx]
  obtain ⟨o, l, p, z, ho⟩ := State.count_watched
    ({ s with xings := x } |>.modLane n fun l => { l with hdrErr := satAdd l.hdrErr k }) 2 1 n none k
  exact ⟨o, l, p, z, x, s.freeCtr, ho⟩

theorem satAdd_zero {w : Nat} (x : BitVec w) : satAdd x 0 = x := by simp [satAdd, x.isLt]

/-- Further invalid headers on a state that has just settled the lane. -/
theorem Settled.headerMore {s t : State} {n : Nat} {d : Lane} (h : Settled s t n d) (k : Nat) :
    Settled s (t.headerMore n k) n { d with hdrErr := satAdd d.hdrErr k } := by
  unfold State.headerMore
  split <;> rename_i hk
  · subst hk; simpa [satAdd_zero] using h
  · have := h.trans (t.headerErrs_settled n k)
    rwa [h.lane] at this

/-- A number drawn between two bounds. -/
theorem draw_le (m k x : Nat) (h : m ≤ k) : m + x % (k - m + 1) ≤ k := by
  have : x % (k - m + 1) < k - m + 1 := Nat.mod_lt x (Nat.succ_pos _)
  omega

/-- A header window that counts takes the headers since it was last looked at, but never its last one. Of them `least` invalid ones are
known, and a free number of the rest is invalid too; all of them count in HDR_ERR (R97, log 59). -/
theorem State.windowTake_settled (s : State) (n least : Nat) (h : (s.lane n).align.counting = true) (hp : (s.lane n).align.pend = false)
    (hc : s.laneHears n = true) :
    ∃ b, let l := s.lane n
      let m := min (1023 - (l.align.good.toNat + l.align.bad.toNat)) least
      let k := max m (min (1023 - (l.align.good.toNat + l.align.bad.toNat)) (lineHeads l.grade (s.clk.up - l.align.since)))
      m ≤ b ∧ b ≤ k ∧ Settled s (s.windowTake n least) n
        { l with hdrErr := satAdd l.hdrErr (b + (least - m))
                 align := { l.align with good := l.align.good + BitVec.ofNat 11 (k - b), bad := l.align.bad + BitVec.ofNat 11 b
                                         since := l.align.since + headTime l.grade k } } := by
  unfold State.windowTake
  simp only [h, hp, hc, Bool.not_true, Bool.or_self, Bool.false_eq_true, if_false]
  exact ⟨_, Nat.le_add_right _ _, draw_le _ _ _ (Nat.le_max_left _ _), (s.setLane_settled n _).headerMore _⟩

/-- The same with no invalid header known. -/
theorem State.windowSettle_settled (s : State) (n : Nat) (h : (s.lane n).align.counting = true) (hp : (s.lane n).align.pend = false)
    (hc : s.laneHears n = true) :
    ∃ b, let l := s.lane n
      let k := min (1023 - (l.align.good.toNat + l.align.bad.toNat)) (lineHeads l.grade (s.clk.up - l.align.since))
      b ≤ k ∧ Settled s (s.windowSettle n) n
        { l with hdrErr := satAdd l.hdrErr b
                 align := { l.align with good := l.align.good + BitVec.ofNat 11 (k - b), bad := l.align.bad + BitVec.ofNat 11 b
                                         since := l.align.since + headTime l.grade k } } := by
  obtain ⟨b, -, hb, hs⟩ := s.windowTake_settled n 0 h hp hc
  simp only [Nat.min_zero, Nat.zero_max, Nat.sub_zero, Nat.add_zero] at hb hs
  exact ⟨b, hb, hs⟩

/-- Elsewhere there is nothing to take in a window. -/
theorem State.windowTake_idle (s : State) (n least : Nat)
    (h : (s.lane n).align.counting = false ∨ (s.lane n).align.pend = true ∨ s.laneHears n = false) : s.windowTake n least = s := by
  unfold State.windowTake
  rcases h with h | h | h <;> simp [h]

/-- What taking a lane's headers leaves of it: everything but the two counts of the window, HDR_ERR and the times they stand at. -/
def Lane.sameButCounts (l d : Lane) : Prop :=
  ∃ e g b t f, d = { l with hdrErr := e, hdrFrom := f, align := { l.align with good := g, bad := b, since := t } }

/-- HDR_ERR takes the headers that have come: nothing where the lane hears none, and otherwise at least those known to be invalid. -/
theorem State.headTake_settled (s : State) (n least : Nat) :
    (s.laneHears n = false ∧ s.headTake n least = s) ∨
      ∃ d j, (s.lane n).sameButCounts d ∧ least ≤ j ∧ d.hdrErr = satAdd (s.lane n).hdrErr j ∧ Settled s (s.headTake n least) n d := by
  unfold State.headTake
  dsimp only
  split
  · rename_i hc; exact .inl ⟨by simpa using hc, rfl⟩
  · rename_i hc
    right
    split
    · rename_i hw
      simp only [Bool.and_eq_true, Bool.not_eq_true'] at hw
      obtain ⟨b, hm, -, h⟩ := s.windowTake_settled n least hw.1 hw.2 (by simpa using hc)
      have k := h.trans ((s.windowTake n least).modLane_settled n fun l => { l with hdrFrom := s.clk.up })
      rw [h.lane] at k
      exact ⟨_, _, ⟨_, _, _, _, _, rfl⟩, by omega, rfl, k⟩
    · exact ⟨_, _, ⟨_, _, _, _, _, rfl⟩, Nat.le_add_right _ _, rfl, (s.setLane_settled n _).headerMore _⟩

/-- Bringing HDR_ERR up to the present. -/
theorem State.headSettle_settled (s : State) (n : Nat) :
    s.headSettle n = s ∨ ∃ d, (s.lane n).sameButCounts d ∧ Settled s (s.headSettle n) n d := by
  rcases s.headTake_settled n 0 with ⟨-, h⟩ | ⟨d, j, h, -, -, k⟩
  · exact .inl h
  · exact .inr ⟨d, h, k⟩

/-- The counts of a locked checker: only they change, and the time they stand at; what is left of a bit is kept, and the errors are too
few to end the lock. -/
theorem State.prbsSettle_settled (s : State) (n : Nat) (h : (s.lane n).prbs.lock = true) :
    ∃ e, let l := s.lane n
      let t := l.prbsDue s.clk.up
      e ≤ prbsMost (t / 16) ∧ Settled s (s.prbsSettle n) n
        { l with prbs := { l.prbs with bits := l.prbs.bits + t / 16, errs := l.prbs.errs + e, since := s.clk.up, part := t % 16 } } := by
  refine ⟨_, Nat.lt_succ_iff.mp (Nat.mod_lt s.free.toNat (Nat.succ_pos _)), ?_⟩
  unfold State.prbsSettle
  simp only [h, Bool.not_true, Bool.false_eq_true, if_false]
  exact s.setLane_settled n _

end Sys2Proof.Machine
end

