-- ==== Sys2Proof/Laws/LineCode.lean ====
section
/-! SUPPORT. The line coding undoes itself: what the scrambler sends the descrambler gives back (R92), and the parity of an F1
codeword makes its remainder zero (R99). -/

namespace Sys2Proof.Machine

/-- The descrambler, started where the scrambler was, gives back what was scrambled, and ends where the scrambler ends. -/
theorem descramble_scramble (st : BitVec 58) (l : List Bool) : descramble st (scramble st l).1 = (l, (scramble st l).2) := by
  induction l generalizing st with
  | nil => rfl
  | cons d t ih => simp [scramble, descramble, ih]; cases d <;> cases st[38] <;> cases st[57] <;> rfl

/-- One step of the division by g. -/
def f1Step (r : Nat) (c : Bool) : Nat := if (2 * r + b2n c).testBit 64 then (2 * r + b2n c) ^^^ f1Gen else 2 * r + b2n c

theorem f1Rem_eq (b : List Bool) : f1Rem b = b.foldl f1Step 0 := rfl

theorem two_mul_add_testBit (r i : Nat) (c : Bool) : (2 * r + b2n c).testBit i = if i = 0 then c else r.testBit (i - 1) := by
  cases i with
  | zero => cases c <;> simp [b2n, Nat.testBit_zero]
  | succ i => cases c <;> simp [b2n, Nat.testBit_succ, Nat.mul_add_div]

theorem two_mul_xor (x y : Nat) (c : Bool) : 2 * (x ^^^ y) + b2n c = (2 * x + b2n false) ^^^ (2 * y + b2n c) := by
  apply Nat.eq_of_testBit_eq
  intro i
  simp only [Nat.testBit_xor, two_mul_add_testBit]
  split <;> simp

/-- A remainder stays below 2^64. -/
theorem f1Step_lt (r : Nat) (c : Bool) (h : r < 2 ^ 64) : f1Step r c < 2 ^ 64 := by
  unfold f1Step
  have hc : b2n c ≤ 1 := by cases c <;> decide
  split
  · rename_i ht
    apply Nat.lt_pow_two_of_testBit
    intro i hi
    rw [Nat.testBit_xor]
    rcases Nat.eq_or_lt_of_le hi with h1 | h1
    · subst h1; rw [ht]; decide
    · have e : 2 ^ 65 ≤ 2 ^ i := Nat.pow_le_pow_right (by omega) h1
      rw [Nat.testBit_lt_two_pow (by omega), Nat.testBit_lt_two_pow (lt_of_lt_of_le (by decide) e)]; rfl
  · rename_i ht
    by_contra hn
    exact ht (Nat.testBit_of_two_pow_le_and_two_pow_add_one_gt (by omega) (by omega))

theorem foldl_f1Step_lt (l : List Bool) (r : Nat) (h : r < 2 ^ 64) : l.foldl f1Step r < 2 ^ 64 := by
  induction l generalizing r with
  | nil => exact h
  | cons c l ih => exact ih _ (f1Step_lt r c h)

/-- A bit taken into a sum whose second part does not reach the divisor. -/
theorem f1Step_xor (x y : Nat) (c : Bool) (h : y < 2 ^ 63) : f1Step (x ^^^ y) c = f1Step x false ^^^ (2 * y + b2n c) := by
  have hc : b2n c ≤ 1 := by cases c <;> decide
  have h0 : (2 * y + b2n c).testBit 64 = false := Nat.testBit_lt_two_pow (by omega)
  unfold f1Step
  rw [two_mul_xor, Nat.testBit_xor, h0, Bool.xor_false]
  split
  · rw [Nat.xor_assoc, Nat.xor_comm (2 * y + b2n c), ← Nat.xor_assoc]
  · rfl

/-- The `n` low bits of a number, highest first, divided after `l`: they add to what as many zeros leave. -/
theorem foldl_f1Step_bits (n : Nat) (hn : n ≤ 64) (a r : Nat) :
    (((List.range n).map fun i => r.testBit (n - 1 - i)).foldl f1Step a) = (List.replicate n false).foldl f1Step a ^^^ (r % 2 ^ n) := by
  induction n generalizing r with
  | zero => simp [Nat.mod_one]
  | succ n ih =>
    have e : ((List.range (n + 1)).map fun i => r.testBit (n + 1 - 1 - i)) =
        ((List.range n).map fun i => (r / 2).testBit (n - 1 - i)) ++ [r.testBit 0] := by
      rw [List.range_succ, List.map_append]
      congr 1
      · apply List.map_congr_left
        intro i hi
        have := List.mem_range.mp hi
        rw [← Nat.testBit_succ]; congr 1; omega
      · simp
    have hm : r / 2 % 2 ^ n < 2 ^ 63 :=
      lt_of_lt_of_le (Nat.mod_lt _ (by positivity)) (Nat.pow_le_pow_right (by omega) (by omega))
    rw [e, List.replicate_succ', List.foldl_append, List.foldl_append, ih (by omega)]
    simp only [List.foldl_cons, List.foldl_nil]
    rw [f1Step_xor _ _ _ hm]
    congr 1
    rw [Nat.pow_succ, Nat.mul_comm (2 ^ n), Nat.mod_mul, Nat.testBit_zero]
    rcases Nat.mod_two_eq_zero_or_one r with h | h <;> simp [h, b2n] <;> omega

/-- A message followed by its remainder of m(x) x^64 leaves no remainder. -/
theorem f1Rem_parity (m : List Bool) :
    f1Rem (m ++ (List.range 64).map fun i => (f1Rem (m ++ List.replicate 64 false)).testBit (63 - i)) = 0 := by
  have h : f1Rem (m ++ List.replicate 64 false) < 2 ^ 64 := foldl_f1Step_lt _ _ (by decide)
  rw [f1Rem_eq, List.foldl_append, foldl_f1Step_bits 64 (le_refl _), Nat.mod_eq_of_lt h, f1Rem_eq, List.foldl_append, Nat.xor_self]

/-- Zeros at the head of a message count for nothing. -/
theorem f1Rem_zeros (n : Nat) (l : List Bool) : f1Rem (List.replicate n false ++ l) = f1Rem l := by
  induction n with
  | zero => rfl
  | succ n ih => exact ih

theorem f1Order_lt (w base i : Nat) (h : i ∈ f1Order w base) : i < 32 := by
  obtain ⟨_, -, h⟩ := List.mem_flatMap.mp h
  exact List.mem_range.mp (List.mem_of_mem_filter h)

/-- The parity block is no part of the message. -/
theorem f1Message_append (w base : Nat) (l : List (List Bool)) (p : List Bool) (h : l.length = 32) :
    f1Message w base (l ++ [p]) = f1Message w base l := by
  unfold f1Message
  rw [List.flatMap_congr]
  intro i hi
  have := f1Order_lt w base i hi
  rw [List.getD_append _ _ _ _ (by omega)]

end Sys2Proof.Machine
end

