-- ==== Sys2Proof/WellFormed.lean ====
section
/-! DEFINITION. Which commands are well formed: the lengths of the beats, lines and frames a command carries are those
of the channel it comes on. Instance numbers, register fields and instruction fields are well formed by their types. -/

namespace Sys2Proof

/-- Bytes per beat on the read channel of a carrier port (Table 2.1). -/
def CPort.beatBytes : CPort → Nat
  | .m _ => 64
  | .n _ => 32
  | .s _ => 128

/-- A RD, WACK or RSP beat names a port that has the channel: M and S ports have RD and WACK, N ports have RSP
(Table 2.2). -/
def CPort.isN : CPort → Bool
  | .n _ => true
  | _ => false

/-- A frame is 256 bytes (R157). -/
def RxFrame.wf (f : RxFrame) : Bool := decide (f.bytes.length = 256)

/-- The well-formedness of a command. -/
def Instr.wf : Instr → Bool
  | .eportWdBeat _ data => decide (data.length = 64)
  | .carrierReadData port _ _ data => !port.isN && decide (data.length = port.beatBytes)
  | .carrierWriteAck port _ _ => !port.isN
  | .nPortResponse _ _ _ data => decide (data.length = 32)
  | .carrierPortTimeout port _ tag _ => !port.isN || decide (tag.toNat < 128)
  | .frame _ fr => fr.wf
  | .fecCodewordRx _ blocks symbols =>
    decide (blocks.length = 33 ∧ symbols = [] ∨ blocks = [] ∧ symbols.length = 544)
  | .faultDetect sources => !sources.isEmpty
  | .mgmtWrite _ _ _ | .rcFieldRead _ _ | .slip _ | .slipDone _ | .clear _ | .coldReset _ | .warmReset | .blockRst | .partRst _ | .partResetDone _
  | .linkRst _ | .bootStageAdvance _ _ | .channelCredit _ | .eportLoad _ _ | .eportStore _ _ | .eportAadd _ _
  | .eportAmin _ _ | .eportAmax _ _ | .eportAand _ _ | .eportAor _ _ | .eportAxor _ _ | .eportAswp _ _
  | .eportAcas _ _ | .eportCompletion _ | .eportFabricTimeout _ _ _ | .vwarnRise | .vwarnRelease _
  | .brownoutNoticeTimer _ | .hbmHotChange _ _ | .hotNoticeTimer _ | .hclkLost | .refclkLost | .speedSample _ _
  | .paceRecompute _ | .crossingResetRequest _ _ | .crossingResetAck _ _ | .txeqApply _ | .windowDone _ _
  | .blockLockAcquire _ | .blockLockLoss _ | .cdrLockAcquire _ | .cdrLockLoss _ | .adaptDone _ _
  | .eyeScanStart _ | .eyeScanDone _ _ _ | .prbsEnable _ _ | .injOne _ | .prbsChkLock _
  | .prbsChkUnlock _ | .enable _ | .linkDisable _ | .retrain _ | .admitGuest _ | .test _ _ | .trainRowAction _
  | .trainRowTimeout _ _ | .eyeCheckDone _ | .stepped _ | .trainingBlockRx _ _ _ | .eqReqSend _ _ | .helloTimer _ _
  | .hello _ | .tcommitTrainingTable | .tcommitInstalledPlan | .tcommitRoutingTable | .tcommitSchedulingTable
  | .tcommitInnkeeperTable | .tcommitSamovarTable | .tcommitFormatTable | .tcommitSipTree | .tcommitTastingMenu
  | .commitDone | .ack _ _ | .credit _ _ | .credInit _ _ | .pace _ _ | .fatal _ _ | .curfewEntryBlock _ _
  | .curfewResumeBlock _ _ | .ackBlockTimer _ | .credInitTimer _ _ | .replayTimeout _ _ | .frameTx _
  | .schedInterval _ | .rd _ | .wr _ | .rsigPacket _ | .atom _ | .rdBf _ | .wrBf _ | .atomBf _ | .brd _ | .bwr _
  | .brdBf _ | .bwrBf _ | .fillRequest _ | .cpl _ | .cplD _ | .onwardTimeout _ _ | .busyRetry _ _
  | .stewardRequestTimeout _ _ | .innkeeperEpoch _ | .noteExpiry _ | .dirHoldEnd _ | .plAsk _ | .plMove _
  | .plOpen _ | .plData _ | .plCommit _ | .plDir _ | .plDrop _ | .plDirRetry _ _ | .queueBind _ _ _
  | .queueUnbind _ | .start _ | .restart _ | .queueClear _ | .skip _ | .queueHalt _ | .doorbell _ _ _
  | .ifetchLine _ | .stewardChoose _ | .stwCtlWrite _ _ _ | .syncCtlWrite _ _ _ | .syncValWrite _ _
  | .prtSyncAdd _ _ _ | .setg _ _ | .addg _ _ | .jmp _ _ | .bnz _ _ | .loop _ _ | .halt _ _ | .yield _ _
  | .copy _ _ | .put _ _ | .get _ _ | .puti _ _ | .fill _ _ | .aadd _ _ | .amin _ _ | .amax _ _ | .aand _ _
  | .aor _ _ | .axor _ _ | .aswp _ _ | .acas _ _ | .sig _ _ | .wait _ _ | .rsig _ _ | .fence _ _ | .rsc _ _
  | .agt _ _ | .sipred _ _ | .sipbar _ _ | .scale _ _ | .pin _ _ | .unpin _ _ | .migr _ _ | .repl _ _
  | .unrepl _ _ | .hint _ _ | .tload _ _ | .tcommit _ _ | .slipInstr _ _ | .eqset _ _ | .eyescan _ _ | .prbs _ _
  | .train _ _ | .linkset _ _ | .taste _ _ | .mark _ _ | .clBrd _ | .clRing _ | .clDone _ | .clReady _ | .park _
  | .groupParked _ | .resume _ | .abort _ | .stallDeadline _ _ | .sipRed _ | .sipBar _ | .sipScale _
  | .sipAbort _ | .sipSlow _ | .sipTime _ | .msGo | .msSampleTimeout _ | .attest _ | .keyxOpen _ | .keyxEph _
  | .keyxConfirm _ | .rekey _ | .advance _ | .previousSlotRetire _ _ | .secPartCtlWrite _ _ _ _ _ | .scrubGo
  | .scrubDone | .spdmGo | .spdmResponseDone | .errPulseEnd _ | .fcStatusClear _ | .fcFirstClear
  | .errDriveWrite _ | .faultInject _ | .faultb _ | .counterSelectWrite _ _ | .counterPreset _ _ | .traceEnable
  | .traceRecordTake | .traceDataRead | .fire _ | .triggerTime _ | .counterExport _ | .obWrite _ | .curfewPacket _
  | .enter | .curfewIn | .curfewTimed _ | .curfewResume | .resumeWaitExpiry _ _ | .scanStart | .seek _ _
  | .scanDataRead | .scansel _ | .scanout | .powerWindow _ _ | .counterViewSnapshot _ | .benchInject | .trstN => true

end Sys2Proof
end

