-- ==== Sys2Proof/Laws/PerInstr.lean ====
section
/-! SUPPORT. Which commands have a condition of well-formedness, one lemma per command. -/

namespace Sys2Proof.Laws.WellFormed
open Sys2Proof

/-- A command is well formed exactly when the beat, line or frame it carries has the length of its channel, a RD, WACK or RSP
beat names a port that has the channel, a TAG of an N port has seven bits, a detection names a source, and a codeword is 33 blocks or 544 symbols. -/
def Statement (c : Instr) : Prop :=
  c.wf = true ↔
    (∀ p d, c = .eportWdBeat p d → d.length = 64) ∧
    (∀ p t st d, c = .carrierReadData p t st d → p.isN = false ∧ d.length = p.beatBytes) ∧
    (∀ p t st, c = .carrierWriteAck p t st → p.isN = false) ∧
    (∀ p t st d, c = .nPortResponse p t st d → d.length = 32) ∧
    (∀ p w t dt, c = .carrierPortTimeout p w t dt → p.isN = false ∨ t.toNat < 128) ∧
    (∀ k f, c = .frame k f → f.bytes.length = 256) ∧
    (∀ l, c = .faultDetect l → l ≠ []) ∧
    (∀ k b y, c = .fecCodewordRx k b y → b.length = 33 ∧ y = [] ∨ b = [] ∧ y.length = 544)

theorem coldReset (testmode : Bool) : Statement (.coldReset testmode) :=
  iff_of_true rfl ⟨nofun, nofun, nofun, nofun, nofun, nofun, nofun, nofun⟩
theorem warmReset : Statement (.warmReset) := iff_of_true rfl ⟨nofun, nofun, nofun, nofun, nofun, nofun, nofun, nofun⟩
theorem blockRst : Statement (.blockRst) := iff_of_true rfl ⟨nofun, nofun, nofun, nofun, nofun, nofun, nofun, nofun⟩
theorem partRst (mask : BitVec 16) : Statement (.partRst mask) :=
  iff_of_true rfl ⟨nofun, nofun, nofun, nofun, nofun, nofun, nofun, nofun⟩
theorem partResetDone (p : PartId) : Statement (.partResetDone p) :=
  iff_of_true rfl ⟨nofun, nofun, nofun, nofun, nofun, nofun, nofun, nofun⟩
theorem linkRst (mask : BitVec 24) : Statement (.linkRst mask) :=
  iff_of_true rfl ⟨nofun, nofun, nofun, nofun, nofun, nofun, nofun, nofun⟩
theorem bootStageAdvance (selftestOk : Bool) (dt : Nat) : Statement (.bootStageAdvance selftestOk dt) :=
  iff_of_true rfl ⟨nofun, nofun, nofun, nofun, nofun, nofun, nofun, nofun⟩
theorem channelCredit (ch : Channel) : Statement (.channelCredit ch) :=
  iff_of_true rfl ⟨nofun, nofun, nofun, nofun, nofun, nofun, nofun, nofun⟩
theorem eportLoad (port : EPortId) (beat : BitVec 128) : Statement (.eportLoad port beat) :=
  iff_of_true rfl ⟨nofun, nofun, nofun, nofun, nofun, nofun, nofun, nofun⟩
theorem eportStore (port : EPortId) (beat : BitVec 128) : Statement (.eportStore port beat) :=
  iff_of_true rfl ⟨nofun, nofun, nofun, nofun, nofun, nofun, nofun, nofun⟩
theorem eportAadd (port : EPortId) (beat : BitVec 128) : Statement (.eportAadd port beat) :=
  iff_of_true rfl ⟨nofun, nofun, nofun, nofun, nofun, nofun, nofun, nofun⟩
theorem eportAmin (port : EPortId) (beat : BitVec 128) : Statement (.eportAmin port beat) :=
  iff_of_true rfl ⟨nofun, nofun, nofun, nofun, nofun, nofun, nofun, nofun⟩
theorem eportAmax (port : EPortId) (beat : BitVec 128) : Statement (.eportAmax port beat) :=
  iff_of_true rfl ⟨nofun, nofun, nofun, nofun, nofun, nofun, nofun, nofun⟩
theorem eportAand (port : EPortId) (beat : BitVec 128) : Statement (.eportAand port beat) :=
  iff_of_true rfl ⟨nofun, nofun, nofun, nofun, nofun, nofun, nofun, nofun⟩
theorem eportAor (port : EPortId) (beat : BitVec 128) : Statement (.eportAor port beat) :=
  iff_of_true rfl ⟨nofun, nofun, nofun, nofun, nofun, nofun, nofun, nofun⟩
theorem eportAxor (port : EPortId) (beat : BitVec 128) : Statement (.eportAxor port beat) :=
  iff_of_true rfl ⟨nofun, nofun, nofun, nofun, nofun, nofun, nofun, nofun⟩
theorem eportAswp (port : EPortId) (beat : BitVec 128) : Statement (.eportAswp port beat) :=
  iff_of_true rfl ⟨nofun, nofun, nofun, nofun, nofun, nofun, nofun, nofun⟩
theorem eportAcas (port : EPortId) (beat : BitVec 128) : Statement (.eportAcas port beat) :=
  iff_of_true rfl ⟨nofun, nofun, nofun, nofun, nofun, nofun, nofun, nofun⟩
theorem eportWdBeat (port : EPortId) (data : Bytes) : Statement (.eportWdBeat port data) := by
  refine ⟨fun h => ⟨by rintro _ _ ⟨⟩; simpa [Instr.wf, RxFrame.wf, CPort.isN] using h, nofun, nofun, nofun, nofun, nofun, nofun, nofun⟩, fun h => ?_⟩
  simpa [Instr.wf, RxFrame.wf, CPort.isN] using h.1 _ _ rfl
theorem eportCompletion (port : EPortId) : Statement (.eportCompletion port) :=
  iff_of_true rfl ⟨nofun, nofun, nofun, nofun, nofun, nofun, nofun, nofun⟩
theorem eportFabricTimeout (port : EPortId) (tag : BitVec 9) (dt : Nat) : Statement (.eportFabricTimeout port tag dt) :=
  iff_of_true rfl ⟨nofun, nofun, nofun, nofun, nofun, nofun, nofun, nofun⟩
theorem carrierReadData (port : CPort) (tag : BitVec 9) (status : BitVec 2) (data : Bytes) : Statement (.carrierReadData port tag status data) := by
  refine ⟨fun h => ⟨nofun, by rintro _ _ _ _ ⟨⟩; simpa [Instr.wf, RxFrame.wf, CPort.isN] using h, nofun, nofun, nofun, nofun, nofun, nofun⟩, fun h => ?_⟩
  simpa [Instr.wf, RxFrame.wf, CPort.isN] using h.2.1 _ _ _ _ rfl
theorem carrierWriteAck (port : CPort) (tag : BitVec 9) (status : BitVec 2) : Statement (.carrierWriteAck port tag status) := by
  refine ⟨fun h => ⟨nofun, nofun, by rintro _ _ _ ⟨⟩; simpa [Instr.wf, RxFrame.wf, CPort.isN] using h, nofun, nofun, nofun, nofun, nofun⟩, fun h => ?_⟩
  simpa [Instr.wf, RxFrame.wf, CPort.isN] using h.2.2.1 _ _ _ rfl
theorem nPortResponse (port : Fin 4) (tag : BitVec 7) (status : BitVec 2) (data : Bytes) : Statement (.nPortResponse port tag status data) := by
  refine ⟨fun h => ⟨nofun, nofun, nofun, by rintro _ _ _ _ ⟨⟩; simpa [Instr.wf, RxFrame.wf, CPort.isN] using h, nofun, nofun, nofun, nofun⟩, fun h => ?_⟩
  simpa [Instr.wf, RxFrame.wf, CPort.isN] using h.2.2.2.1 _ _ _ _ rfl
theorem carrierPortTimeout (port : CPort) (write : Bool) (tag : BitVec 9) (dt : Nat) : Statement (.carrierPortTimeout port write tag dt) := by
  refine ⟨fun h => ⟨nofun, nofun, nofun, nofun, by rintro _ _ _ _ ⟨⟩; simpa [Instr.wf, RxFrame.wf, CPort.isN] using h, nofun, nofun, nofun⟩, fun h => ?_⟩
  simpa [Instr.wf, RxFrame.wf, CPort.isN] using h.2.2.2.2.1 _ _ _ _ rfl
theorem mgmtWrite (addr : BitVec 26) (size8 : Bool) (data : BitVec 64) : Statement (.mgmtWrite addr size8 data) :=
  iff_of_true rfl ⟨nofun, nofun, nofun, nofun, nofun, nofun, nofun, nofun⟩
theorem rcFieldRead (addr : BitVec 26) (size8 : Bool) : Statement (.rcFieldRead addr size8) :=
  iff_of_true rfl ⟨nofun, nofun, nofun, nofun, nofun, nofun, nofun, nofun⟩
theorem vwarnRise : Statement (.vwarnRise) := iff_of_true rfl ⟨nofun, nofun, nofun, nofun, nofun, nofun, nofun, nofun⟩
theorem vwarnRelease (dt : Nat) : Statement (.vwarnRelease dt) :=
  iff_of_true rfl ⟨nofun, nofun, nofun, nofun, nofun, nofun, nofun, nofun⟩
theorem brownoutNoticeTimer (dt : Nat) : Statement (.brownoutNoticeTimer dt) :=
  iff_of_true rfl ⟨nofun, nofun, nofun, nofun, nofun, nofun, nofun, nofun⟩
theorem hbmHotChange (stack : Fin 20) (high : Bool) : Statement (.hbmHotChange stack high) :=
  iff_of_true rfl ⟨nofun, nofun, nofun, nofun, nofun, nofun, nofun, nofun⟩
theorem hotNoticeTimer (dt : Nat) : Statement (.hotNoticeTimer dt) :=
  iff_of_true rfl ⟨nofun, nofun, nofun, nofun, nofun, nofun, nofun, nofun⟩
theorem hclkLost : Statement (.hclkLost) := iff_of_true rfl ⟨nofun, nofun, nofun, nofun, nofun, nofun, nofun, nofun⟩
theorem refclkLost : Statement (.refclkLost) := iff_of_true rfl ⟨nofun, nofun, nofun, nofun, nofun, nofun, nofun, nofun⟩
theorem speedSample (period : BitVec 16) (dt : Nat) : Statement (.speedSample period dt) :=
  iff_of_true rfl ⟨nofun, nofun, nofun, nofun, nofun, nofun, nofun, nofun⟩
theorem paceRecompute (dt : Nat) : Statement (.paceRecompute dt) :=
  iff_of_true rfl ⟨nofun, nofun, nofun, nofun, nofun, nofun, nofun, nofun⟩
theorem crossingResetRequest (x : Crossing) (coreSide : Bool) : Statement (.crossingResetRequest x coreSide) :=
  iff_of_true rfl ⟨nofun, nofun, nofun, nofun, nofun, nofun, nofun, nofun⟩
theorem crossingResetAck (x : Crossing) (coreSide : Bool) : Statement (.crossingResetAck x coreSide) :=
  iff_of_true rfl ⟨nofun, nofun, nofun, nofun, nofun, nofun, nofun, nofun⟩
theorem txeqApply (lane : LaneId) : Statement (.txeqApply lane) :=
  iff_of_true rfl ⟨nofun, nofun, nofun, nofun, nofun, nofun, nofun, nofun⟩
theorem slip (lane : LaneId) : Statement (.slip lane) := iff_of_true rfl ⟨nofun, nofun, nofun, nofun, nofun, nofun, nofun, nofun⟩
theorem slipDone (lane : LaneId) : Statement (.slipDone lane) := iff_of_true rfl ⟨nofun, nofun, nofun, nofun, nofun, nofun, nofun, nofun⟩
theorem clear (lane : LaneId) : Statement (.clear lane) := iff_of_true rfl ⟨nofun, nofun, nofun, nofun, nofun, nofun, nofun, nofun⟩
theorem windowDone (lane : LaneId) (bad : Fin 1025) : Statement (.windowDone lane bad) :=
  iff_of_true rfl ⟨nofun, nofun, nofun, nofun, nofun, nofun, nofun, nofun⟩
theorem blockLockAcquire (lane : LaneId) : Statement (.blockLockAcquire lane) :=
  iff_of_true rfl ⟨nofun, nofun, nofun, nofun, nofun, nofun, nofun, nofun⟩
theorem blockLockLoss (lane : LaneId) : Statement (.blockLockLoss lane) :=
  iff_of_true rfl ⟨nofun, nofun, nofun, nofun, nofun, nofun, nofun, nofun⟩
theorem cdrLockAcquire (lane : LaneId) : Statement (.cdrLockAcquire lane) :=
  iff_of_true rfl ⟨nofun, nofun, nofun, nofun, nofun, nofun, nofun, nofun⟩
theorem cdrLockLoss (lane : LaneId) : Statement (.cdrLockLoss lane) :=
  iff_of_true rfl ⟨nofun, nofun, nofun, nofun, nofun, nofun, nofun, nofun⟩
theorem adaptDone (lane : LaneId) (rx : Adapted) : Statement (.adaptDone lane rx) :=
  iff_of_true rfl ⟨nofun, nofun, nofun, nofun, nofun, nofun, nofun, nofun⟩
theorem fecCodewordRx (link : LinkId) (blocks : List (BitVec 66)) (symbols : List (BitVec 10)) :
    Statement (.fecCodewordRx link blocks symbols) := by
  refine ⟨fun h => ⟨nofun, nofun, nofun, nofun, nofun, nofun, nofun, by rintro _ _ _ ⟨⟩; simpa [Instr.wf] using h⟩, fun h => ?_⟩
  simpa [Instr.wf] using h.2.2.2.2.2.2.2 _ _ _ rfl
theorem eyeScanStart (lane : LaneId) : Statement (.eyeScanStart lane) :=
  iff_of_true rfl ⟨nofun, nofun, nofun, nofun, nofun, nofun, nofun, nofun⟩
theorem eyeScanDone (lane : LaneId) (errs : BitVec 32) (moved : Bool) : Statement (.eyeScanDone lane errs moved) :=
  iff_of_true rfl ⟨nofun, nofun, nofun, nofun, nofun, nofun, nofun, nofun⟩
theorem prbsEnable (lane : LaneId) (w : PrbsSet) : Statement (.prbsEnable lane w) :=
  iff_of_true rfl ⟨nofun, nofun, nofun, nofun, nofun, nofun, nofun, nofun⟩
theorem injOne (lane : LaneId) : Statement (.injOne lane) := iff_of_true rfl ⟨nofun, nofun, nofun, nofun, nofun, nofun, nofun, nofun⟩
theorem prbsChkLock (lane : LaneId) : Statement (.prbsChkLock lane) :=
  iff_of_true rfl ⟨nofun, nofun, nofun, nofun, nofun, nofun, nofun, nofun⟩
theorem prbsChkUnlock (lane : LaneId) : Statement (.prbsChkUnlock lane) :=
  iff_of_true rfl ⟨nofun, nofun, nofun, nofun, nofun, nofun, nofun, nofun⟩
theorem enable (link : LinkId) : Statement (.enable link) := iff_of_true rfl ⟨nofun, nofun, nofun, nofun, nofun, nofun, nofun, nofun⟩
theorem linkDisable (link : LinkId) : Statement (.linkDisable link) :=
  iff_of_true rfl ⟨nofun, nofun, nofun, nofun, nofun, nofun, nofun, nofun⟩
theorem retrain (link : LinkId) : Statement (.retrain link) := iff_of_true rfl ⟨nofun, nofun, nofun, nofun, nofun, nofun, nofun, nofun⟩
theorem admitGuest (link : LinkId) : Statement (.admitGuest link) := iff_of_true rfl ⟨nofun, nofun, nofun, nofun, nofun, nofun, nofun, nofun⟩
theorem test (link : LinkId) (on : Bool) : Statement (.test link on) :=
  iff_of_true rfl ⟨nofun, nofun, nofun, nofun, nofun, nofun, nofun, nofun⟩
theorem trainRowAction (link : LinkId) : Statement (.trainRowAction link) :=
  iff_of_true rfl ⟨nofun, nofun, nofun, nofun, nofun, nofun, nofun, nofun⟩
theorem trainRowTimeout (link : LinkId) (dt : Nat) : Statement (.trainRowTimeout link dt) :=
  iff_of_true rfl ⟨nofun, nofun, nofun, nofun, nofun, nofun, nofun, nofun⟩
theorem eyeCheckDone (link : LinkId) : Statement (.eyeCheckDone link) :=
  iff_of_true rfl ⟨nofun, nofun, nofun, nofun, nofun, nofun, nofun, nofun⟩
theorem stepped (link : LinkId) : Statement (.stepped link) := iff_of_true rfl ⟨nofun, nofun, nofun, nofun, nofun, nofun, nofun, nofun⟩
theorem trainingBlockRx (lane : LaneId) (complemented : Bool) (w : BitVec 64) : Statement (.trainingBlockRx lane complemented w) :=
  iff_of_true rfl ⟨nofun, nofun, nofun, nofun, nofun, nofun, nofun, nofun⟩
theorem eqReqSend (lane : LaneId) (req : BitVec 3) : Statement (.eqReqSend lane req) :=
  iff_of_true rfl ⟨nofun, nofun, nofun, nofun, nofun, nofun, nofun, nofun⟩
theorem helloTimer (link : LinkId) (dt : Nat) : Statement (.helloTimer link dt) :=
  iff_of_true rfl ⟨nofun, nofun, nofun, nofun, nofun, nofun, nofun, nofun⟩
theorem hello (link : LinkId) : Statement (.hello link) := iff_of_true rfl ⟨nofun, nofun, nofun, nofun, nofun, nofun, nofun, nofun⟩
theorem tcommitTrainingTable : Statement (.tcommitTrainingTable) :=
  iff_of_true rfl ⟨nofun, nofun, nofun, nofun, nofun, nofun, nofun, nofun⟩
theorem tcommitInstalledPlan : Statement (.tcommitInstalledPlan) :=
  iff_of_true rfl ⟨nofun, nofun, nofun, nofun, nofun, nofun, nofun, nofun⟩
theorem tcommitRoutingTable : Statement (.tcommitRoutingTable) :=
  iff_of_true rfl ⟨nofun, nofun, nofun, nofun, nofun, nofun, nofun, nofun⟩
theorem tcommitSchedulingTable : Statement (.tcommitSchedulingTable) :=
  iff_of_true rfl ⟨nofun, nofun, nofun, nofun, nofun, nofun, nofun, nofun⟩
theorem tcommitInnkeeperTable : Statement (.tcommitInnkeeperTable) :=
  iff_of_true rfl ⟨nofun, nofun, nofun, nofun, nofun, nofun, nofun, nofun⟩
theorem tcommitSamovarTable : Statement (.tcommitSamovarTable) :=
  iff_of_true rfl ⟨nofun, nofun, nofun, nofun, nofun, nofun, nofun, nofun⟩
theorem tcommitFormatTable : Statement (.tcommitFormatTable) := iff_of_true rfl ⟨nofun, nofun, nofun, nofun, nofun, nofun, nofun, nofun⟩
theorem tcommitSipTree : Statement (.tcommitSipTree) := iff_of_true rfl ⟨nofun, nofun, nofun, nofun, nofun, nofun, nofun, nofun⟩
theorem tcommitTastingMenu : Statement (.tcommitTastingMenu) := iff_of_true rfl ⟨nofun, nofun, nofun, nofun, nofun, nofun, nofun, nofun⟩
theorem commitDone : Statement (.commitDone) := iff_of_true rfl ⟨nofun, nofun, nofun, nofun, nofun, nofun, nofun, nofun⟩
theorem frame (link : LinkId) (fr : RxFrame) : Statement (.frame link fr) := by
  refine ⟨fun h => ⟨nofun, nofun, nofun, nofun, nofun, by rintro _ _ ⟨⟩; simpa [Instr.wf, RxFrame.wf, CPort.isN] using h, nofun, nofun⟩, fun h => ?_⟩
  simpa [Instr.wf, RxFrame.wf, CPort.isN] using h.2.2.2.2.2.1 _ _ rfl
theorem ack (link : LinkId) (w : BitVec 64) : Statement (.ack link w) :=
  iff_of_true rfl ⟨nofun, nofun, nofun, nofun, nofun, nofun, nofun, nofun⟩
theorem credit (link : LinkId) (w : BitVec 64) : Statement (.credit link w) :=
  iff_of_true rfl ⟨nofun, nofun, nofun, nofun, nofun, nofun, nofun, nofun⟩
theorem credInit (link : LinkId) (w : BitVec 64) : Statement (.credInit link w) :=
  iff_of_true rfl ⟨nofun, nofun, nofun, nofun, nofun, nofun, nofun, nofun⟩
theorem pace (link : LinkId) (w : BitVec 64) : Statement (.pace link w) :=
  iff_of_true rfl ⟨nofun, nofun, nofun, nofun, nofun, nofun, nofun, nofun⟩
theorem fatal (link : LinkId) (w : BitVec 64) : Statement (.fatal link w) :=
  iff_of_true rfl ⟨nofun, nofun, nofun, nofun, nofun, nofun, nofun, nofun⟩
theorem curfewEntryBlock (link : LinkId) (w : BitVec 64) : Statement (.curfewEntryBlock link w) :=
  iff_of_true rfl ⟨nofun, nofun, nofun, nofun, nofun, nofun, nofun, nofun⟩
theorem curfewResumeBlock (link : LinkId) (w : BitVec 64) : Statement (.curfewResumeBlock link w) :=
  iff_of_true rfl ⟨nofun, nofun, nofun, nofun, nofun, nofun, nofun, nofun⟩
theorem ackBlockTimer (link : LinkId) : Statement (.ackBlockTimer link) :=
  iff_of_true rfl ⟨nofun, nofun, nofun, nofun, nofun, nofun, nofun, nofun⟩
theorem credInitTimer (link : LinkId) (dt : Nat) : Statement (.credInitTimer link dt) :=
  iff_of_true rfl ⟨nofun, nofun, nofun, nofun, nofun, nofun, nofun, nofun⟩
theorem replayTimeout (link : LinkId) (dt : Nat) : Statement (.replayTimeout link dt) :=
  iff_of_true rfl ⟨nofun, nofun, nofun, nofun, nofun, nofun, nofun, nofun⟩
theorem frameTx (link : LinkId) : Statement (.frameTx link) := iff_of_true rfl ⟨nofun, nofun, nofun, nofun, nofun, nofun, nofun, nofun⟩
theorem schedInterval (dt : Nat) : Statement (.schedInterval dt) :=
  iff_of_true rfl ⟨nofun, nofun, nofun, nofun, nofun, nofun, nofun, nofun⟩
theorem rd (src : SrcId) : Statement (.rd src) := iff_of_true rfl ⟨nofun, nofun, nofun, nofun, nofun, nofun, nofun, nofun⟩
theorem wr (src : SrcId) : Statement (.wr src) := iff_of_true rfl ⟨nofun, nofun, nofun, nofun, nofun, nofun, nofun, nofun⟩
theorem rsigPacket (src : SrcId) : Statement (.rsigPacket src) :=
  iff_of_true rfl ⟨nofun, nofun, nofun, nofun, nofun, nofun, nofun, nofun⟩
theorem atom (src : SrcId) : Statement (.atom src) := iff_of_true rfl ⟨nofun, nofun, nofun, nofun, nofun, nofun, nofun, nofun⟩
theorem rdBf (src : SrcId) : Statement (.rdBf src) := iff_of_true rfl ⟨nofun, nofun, nofun, nofun, nofun, nofun, nofun, nofun⟩
theorem wrBf (src : SrcId) : Statement (.wrBf src) := iff_of_true rfl ⟨nofun, nofun, nofun, nofun, nofun, nofun, nofun, nofun⟩
theorem atomBf (src : SrcId) : Statement (.atomBf src) := iff_of_true rfl ⟨nofun, nofun, nofun, nofun, nofun, nofun, nofun, nofun⟩
theorem brd (src : SrcId) : Statement (.brd src) := iff_of_true rfl ⟨nofun, nofun, nofun, nofun, nofun, nofun, nofun, nofun⟩
theorem bwr (src : SrcId) : Statement (.bwr src) := iff_of_true rfl ⟨nofun, nofun, nofun, nofun, nofun, nofun, nofun, nofun⟩
theorem brdBf (src : SrcId) : Statement (.brdBf src) := iff_of_true rfl ⟨nofun, nofun, nofun, nofun, nofun, nofun, nofun, nofun⟩
theorem bwrBf (src : SrcId) : Statement (.bwrBf src) := iff_of_true rfl ⟨nofun, nofun, nofun, nofun, nofun, nofun, nofun, nofun⟩
theorem fillRequest (src : SrcId) : Statement (.fillRequest src) :=
  iff_of_true rfl ⟨nofun, nofun, nofun, nofun, nofun, nofun, nofun, nofun⟩
theorem cpl (src : SrcId) : Statement (.cpl src) := iff_of_true rfl ⟨nofun, nofun, nofun, nofun, nofun, nofun, nofun, nofun⟩
theorem cplD (src : SrcId) : Statement (.cplD src) := iff_of_true rfl ⟨nofun, nofun, nofun, nofun, nofun, nofun, nofun, nofun⟩
theorem onwardTimeout (i : Fin 512) (dt : Nat) : Statement (.onwardTimeout i dt) :=
  iff_of_true rfl ⟨nofun, nofun, nofun, nofun, nofun, nofun, nofun, nofun⟩
theorem busyRetry (req : Nat) (dt : Nat) : Statement (.busyRetry req dt) :=
  iff_of_true rfl ⟨nofun, nofun, nofun, nofun, nofun, nofun, nofun, nofun⟩
theorem stewardRequestTimeout (req : Nat) (dt : Nat) : Statement (.stewardRequestTimeout req dt) :=
  iff_of_true rfl ⟨nofun, nofun, nofun, nofun, nofun, nofun, nofun, nofun⟩
theorem innkeeperEpoch (dt : Nat) : Statement (.innkeeperEpoch dt) :=
  iff_of_true rfl ⟨nofun, nofun, nofun, nofun, nofun, nofun, nofun, nofun⟩
theorem noteExpiry (dt : Nat) : Statement (.noteExpiry dt) := iff_of_true rfl ⟨nofun, nofun, nofun, nofun, nofun, nofun, nofun, nofun⟩
theorem dirHoldEnd (dt : Nat) : Statement (.dirHoldEnd dt) := iff_of_true rfl ⟨nofun, nofun, nofun, nofun, nofun, nofun, nofun, nofun⟩
theorem plAsk (src : SrcId) : Statement (.plAsk src) := iff_of_true rfl ⟨nofun, nofun, nofun, nofun, nofun, nofun, nofun, nofun⟩
theorem plMove (src : SrcId) : Statement (.plMove src) := iff_of_true rfl ⟨nofun, nofun, nofun, nofun, nofun, nofun, nofun, nofun⟩
theorem plOpen (src : SrcId) : Statement (.plOpen src) := iff_of_true rfl ⟨nofun, nofun, nofun, nofun, nofun, nofun, nofun, nofun⟩
theorem plData (src : SrcId) : Statement (.plData src) := iff_of_true rfl ⟨nofun, nofun, nofun, nofun, nofun, nofun, nofun, nofun⟩
theorem plCommit (src : SrcId) : Statement (.plCommit src) := iff_of_true rfl ⟨nofun, nofun, nofun, nofun, nofun, nofun, nofun, nofun⟩
theorem plDir (src : SrcId) : Statement (.plDir src) := iff_of_true rfl ⟨nofun, nofun, nofun, nofun, nofun, nofun, nofun, nofun⟩
theorem plDrop (src : SrcId) : Statement (.plDrop src) := iff_of_true rfl ⟨nofun, nofun, nofun, nofun, nofun, nofun, nofun, nofun⟩
theorem plDirRetry (pl : Nat) (dt : Nat) : Statement (.plDirRetry pl dt) :=
  iff_of_true rfl ⟨nofun, nofun, nofun, nofun, nofun, nofun, nofun, nofun⟩
theorem queueBind (q : QueueId) (word : Fin 3) (data : BitVec 64) : Statement (.queueBind q word data) :=
  iff_of_true rfl ⟨nofun, nofun, nofun, nofun, nofun, nofun, nofun, nofun⟩
theorem queueUnbind (q : QueueId) : Statement (.queueUnbind q) :=
  iff_of_true rfl ⟨nofun, nofun, nofun, nofun, nofun, nofun, nofun, nofun⟩
theorem start (q : QueueId) : Statement (.start q) := iff_of_true rfl ⟨nofun, nofun, nofun, nofun, nofun, nofun, nofun, nofun⟩
theorem restart (q : QueueId) : Statement (.restart q) := iff_of_true rfl ⟨nofun, nofun, nofun, nofun, nofun, nofun, nofun, nofun⟩
theorem queueClear (q : QueueId) : Statement (.queueClear q) := iff_of_true rfl ⟨nofun, nofun, nofun, nofun, nofun, nofun, nofun, nofun⟩
theorem skip (q : QueueId) : Statement (.skip q) := iff_of_true rfl ⟨nofun, nofun, nofun, nofun, nofun, nofun, nofun, nofun⟩
theorem queueHalt (q : QueueId) : Statement (.queueHalt q) := iff_of_true rfl ⟨nofun, nofun, nofun, nofun, nofun, nofun, nofun, nofun⟩
theorem doorbell (q : QueueId) (tenant : Option PartId) (value : BitVec 32) : Statement (.doorbell q tenant value) :=
  iff_of_true rfl ⟨nofun, nofun, nofun, nofun, nofun, nofun, nofun, nofun⟩
theorem ifetchLine (stw : StwId) : Statement (.ifetchLine stw) :=
  iff_of_true rfl ⟨nofun, nofun, nofun, nofun, nofun, nofun, nofun, nofun⟩
theorem stewardChoose (stw : StwId) : Statement (.stewardChoose stw) :=
  iff_of_true rfl ⟨nofun, nofun, nofun, nofun, nofun, nofun, nofun, nofun⟩
theorem stwCtlWrite (stw : StwId) (en : Bool) (pool : BitVec 4) : Statement (.stwCtlWrite stw en pool) :=
  iff_of_true rfl ⟨nofun, nofun, nofun, nofun, nofun, nofun, nofun, nofun⟩
theorem syncCtlWrite (n : SyncId) (alloc : Bool) (p : BitVec 4) : Statement (.syncCtlWrite n alloc p) :=
  iff_of_true rfl ⟨nofun, nofun, nofun, nofun, nofun, nofun, nofun, nofun⟩
theorem syncValWrite (n : SyncId) (value : BitVec 64) : Statement (.syncValWrite n value) :=
  iff_of_true rfl ⟨nofun, nofun, nofun, nofun, nofun, nofun, nofun, nofun⟩
theorem prtSyncAdd (p : PartId) (n : SyncId) (addend : BitVec 64) : Statement (.prtSyncAdd p n addend) :=
  iff_of_true rfl ⟨nofun, nofun, nofun, nofun, nofun, nofun, nofun, nofun⟩
theorem setg (stw : StwId) (w : Fields) : Statement (.setg stw w) :=
  iff_of_true rfl ⟨nofun, nofun, nofun, nofun, nofun, nofun, nofun, nofun⟩
theorem addg (stw : StwId) (w : Fields) : Statement (.addg stw w) :=
  iff_of_true rfl ⟨nofun, nofun, nofun, nofun, nofun, nofun, nofun, nofun⟩
theorem jmp (stw : StwId) (w : Fields) : Statement (.jmp stw w) :=
  iff_of_true rfl ⟨nofun, nofun, nofun, nofun, nofun, nofun, nofun, nofun⟩
theorem bnz (stw : StwId) (w : Fields) : Statement (.bnz stw w) :=
  iff_of_true rfl ⟨nofun, nofun, nofun, nofun, nofun, nofun, nofun, nofun⟩
theorem loop (stw : StwId) (w : Fields) : Statement (.loop stw w) :=
  iff_of_true rfl ⟨nofun, nofun, nofun, nofun, nofun, nofun, nofun, nofun⟩
theorem halt (stw : StwId) (w : Fields) : Statement (.halt stw w) :=
  iff_of_true rfl ⟨nofun, nofun, nofun, nofun, nofun, nofun, nofun, nofun⟩
theorem yield (stw : StwId) (w : Fields) : Statement (.yield stw w) :=
  iff_of_true rfl ⟨nofun, nofun, nofun, nofun, nofun, nofun, nofun, nofun⟩
theorem copy (stw : StwId) (w : Fields) : Statement (.copy stw w) :=
  iff_of_true rfl ⟨nofun, nofun, nofun, nofun, nofun, nofun, nofun, nofun⟩
theorem put (stw : StwId) (w : Fields) : Statement (.put stw w) :=
  iff_of_true rfl ⟨nofun, nofun, nofun, nofun, nofun, nofun, nofun, nofun⟩
theorem get (stw : StwId) (w : Fields) : Statement (.get stw w) :=
  iff_of_true rfl ⟨nofun, nofun, nofun, nofun, nofun, nofun, nofun, nofun⟩
theorem puti (stw : StwId) (w : Fields) : Statement (.puti stw w) :=
  iff_of_true rfl ⟨nofun, nofun, nofun, nofun, nofun, nofun, nofun, nofun⟩
theorem fill (stw : StwId) (w : Fields) : Statement (.fill stw w) :=
  iff_of_true rfl ⟨nofun, nofun, nofun, nofun, nofun, nofun, nofun, nofun⟩
theorem aadd (stw : StwId) (w : Fields) : Statement (.aadd stw w) :=
  iff_of_true rfl ⟨nofun, nofun, nofun, nofun, nofun, nofun, nofun, nofun⟩
theorem amin (stw : StwId) (w : Fields) : Statement (.amin stw w) :=
  iff_of_true rfl ⟨nofun, nofun, nofun, nofun, nofun, nofun, nofun, nofun⟩
theorem amax (stw : StwId) (w : Fields) : Statement (.amax stw w) :=
  iff_of_true rfl ⟨nofun, nofun, nofun, nofun, nofun, nofun, nofun, nofun⟩
theorem aand (stw : StwId) (w : Fields) : Statement (.aand stw w) :=
  iff_of_true rfl ⟨nofun, nofun, nofun, nofun, nofun, nofun, nofun, nofun⟩
theorem aor (stw : StwId) (w : Fields) : Statement (.aor stw w) :=
  iff_of_true rfl ⟨nofun, nofun, nofun, nofun, nofun, nofun, nofun, nofun⟩
theorem axor (stw : StwId) (w : Fields) : Statement (.axor stw w) :=
  iff_of_true rfl ⟨nofun, nofun, nofun, nofun, nofun, nofun, nofun, nofun⟩
theorem aswp (stw : StwId) (w : Fields) : Statement (.aswp stw w) :=
  iff_of_true rfl ⟨nofun, nofun, nofun, nofun, nofun, nofun, nofun, nofun⟩
theorem acas (stw : StwId) (w : Fields) : Statement (.acas stw w) :=
  iff_of_true rfl ⟨nofun, nofun, nofun, nofun, nofun, nofun, nofun, nofun⟩
theorem sig (stw : StwId) (w : Fields) : Statement (.sig stw w) :=
  iff_of_true rfl ⟨nofun, nofun, nofun, nofun, nofun, nofun, nofun, nofun⟩
theorem wait (stw : StwId) (w : Fields) : Statement (.wait stw w) :=
  iff_of_true rfl ⟨nofun, nofun, nofun, nofun, nofun, nofun, nofun, nofun⟩
theorem rsig (stw : StwId) (w : Fields) : Statement (.rsig stw w) :=
  iff_of_true rfl ⟨nofun, nofun, nofun, nofun, nofun, nofun, nofun, nofun⟩
theorem fence (stw : StwId) (w : Fields) : Statement (.fence stw w) :=
  iff_of_true rfl ⟨nofun, nofun, nofun, nofun, nofun, nofun, nofun, nofun⟩
theorem rsc (stw : StwId) (w : Fields) : Statement (.rsc stw w) :=
  iff_of_true rfl ⟨nofun, nofun, nofun, nofun, nofun, nofun, nofun, nofun⟩
theorem agt (stw : StwId) (w : Fields) : Statement (.agt stw w) :=
  iff_of_true rfl ⟨nofun, nofun, nofun, nofun, nofun, nofun, nofun, nofun⟩
theorem sipred (stw : StwId) (w : Fields) : Statement (.sipred stw w) :=
  iff_of_true rfl ⟨nofun, nofun, nofun, nofun, nofun, nofun, nofun, nofun⟩
theorem sipbar (stw : StwId) (w : Fields) : Statement (.sipbar stw w) :=
  iff_of_true rfl ⟨nofun, nofun, nofun, nofun, nofun, nofun, nofun, nofun⟩
theorem scale (stw : StwId) (w : Fields) : Statement (.scale stw w) :=
  iff_of_true rfl ⟨nofun, nofun, nofun, nofun, nofun, nofun, nofun, nofun⟩
theorem pin (stw : StwId) (w : Fields) : Statement (.pin stw w) :=
  iff_of_true rfl ⟨nofun, nofun, nofun, nofun, nofun, nofun, nofun, nofun⟩
theorem unpin (stw : StwId) (w : Fields) : Statement (.unpin stw w) :=
  iff_of_true rfl ⟨nofun, nofun, nofun, nofun, nofun, nofun, nofun, nofun⟩
theorem migr (stw : StwId) (w : Fields) : Statement (.migr stw w) :=
  iff_of_true rfl ⟨nofun, nofun, nofun, nofun, nofun, nofun, nofun, nofun⟩
theorem repl (stw : StwId) (w : Fields) : Statement (.repl stw w) :=
  iff_of_true rfl ⟨nofun, nofun, nofun, nofun, nofun, nofun, nofun, nofun⟩
theorem unrepl (stw : StwId) (w : Fields) : Statement (.unrepl stw w) :=
  iff_of_true rfl ⟨nofun, nofun, nofun, nofun, nofun, nofun, nofun, nofun⟩
theorem hint (stw : StwId) (w : Fields) : Statement (.hint stw w) :=
  iff_of_true rfl ⟨nofun, nofun, nofun, nofun, nofun, nofun, nofun, nofun⟩
theorem tload (stw : StwId) (w : Fields) : Statement (.tload stw w) :=
  iff_of_true rfl ⟨nofun, nofun, nofun, nofun, nofun, nofun, nofun, nofun⟩
theorem tcommit (stw : StwId) (w : Fields) : Statement (.tcommit stw w) :=
  iff_of_true rfl ⟨nofun, nofun, nofun, nofun, nofun, nofun, nofun, nofun⟩
theorem slipInstr (stw : StwId) (w : Fields) : Statement (.slipInstr stw w) :=
  iff_of_true rfl ⟨nofun, nofun, nofun, nofun, nofun, nofun, nofun, nofun⟩
theorem eqset (stw : StwId) (w : Fields) : Statement (.eqset stw w) :=
  iff_of_true rfl ⟨nofun, nofun, nofun, nofun, nofun, nofun, nofun, nofun⟩
theorem eyescan (stw : StwId) (w : Fields) : Statement (.eyescan stw w) :=
  iff_of_true rfl ⟨nofun, nofun, nofun, nofun, nofun, nofun, nofun, nofun⟩
theorem prbs (stw : StwId) (w : Fields) : Statement (.prbs stw w) :=
  iff_of_true rfl ⟨nofun, nofun, nofun, nofun, nofun, nofun, nofun, nofun⟩
theorem train (stw : StwId) (w : Fields) : Statement (.train stw w) :=
  iff_of_true rfl ⟨nofun, nofun, nofun, nofun, nofun, nofun, nofun, nofun⟩
theorem linkset (stw : StwId) (w : Fields) : Statement (.linkset stw w) :=
  iff_of_true rfl ⟨nofun, nofun, nofun, nofun, nofun, nofun, nofun, nofun⟩
theorem taste (stw : StwId) (w : Fields) : Statement (.taste stw w) :=
  iff_of_true rfl ⟨nofun, nofun, nofun, nofun, nofun, nofun, nofun, nofun⟩
theorem mark (stw : StwId) (w : Fields) : Statement (.mark stw w) :=
  iff_of_true rfl ⟨nofun, nofun, nofun, nofun, nofun, nofun, nofun, nofun⟩
theorem clBrd (src : SrcId) : Statement (.clBrd src) := iff_of_true rfl ⟨nofun, nofun, nofun, nofun, nofun, nofun, nofun, nofun⟩
theorem clRing (src : SrcId) : Statement (.clRing src) := iff_of_true rfl ⟨nofun, nofun, nofun, nofun, nofun, nofun, nofun, nofun⟩
theorem clDone (src : SrcId) : Statement (.clDone src) := iff_of_true rfl ⟨nofun, nofun, nofun, nofun, nofun, nofun, nofun, nofun⟩
theorem clReady (src : SrcId) : Statement (.clReady src) := iff_of_true rfl ⟨nofun, nofun, nofun, nofun, nofun, nofun, nofun, nofun⟩
theorem park (g : GroupId) : Statement (.park g) := iff_of_true rfl ⟨nofun, nofun, nofun, nofun, nofun, nofun, nofun, nofun⟩
theorem groupParked (g : GroupId) : Statement (.groupParked g) :=
  iff_of_true rfl ⟨nofun, nofun, nofun, nofun, nofun, nofun, nofun, nofun⟩
theorem resume (g : GroupId) : Statement (.resume g) := iff_of_true rfl ⟨nofun, nofun, nofun, nofun, nofun, nofun, nofun, nofun⟩
theorem abort (g : GroupId) : Statement (.abort g) := iff_of_true rfl ⟨nofun, nofun, nofun, nofun, nofun, nofun, nofun, nofun⟩
theorem stallDeadline (g : GroupId) (dt : Nat) : Statement (.stallDeadline g dt) :=
  iff_of_true rfl ⟨nofun, nofun, nofun, nofun, nofun, nofun, nofun, nofun⟩
theorem sipRed (src : SrcId) : Statement (.sipRed src) := iff_of_true rfl ⟨nofun, nofun, nofun, nofun, nofun, nofun, nofun, nofun⟩
theorem sipBar (src : SrcId) : Statement (.sipBar src) := iff_of_true rfl ⟨nofun, nofun, nofun, nofun, nofun, nofun, nofun, nofun⟩
theorem sipScale (src : SrcId) : Statement (.sipScale src) := iff_of_true rfl ⟨nofun, nofun, nofun, nofun, nofun, nofun, nofun, nofun⟩
theorem sipAbort (src : SrcId) : Statement (.sipAbort src) := iff_of_true rfl ⟨nofun, nofun, nofun, nofun, nofun, nofun, nofun, nofun⟩
theorem sipSlow (src : SrcId) : Statement (.sipSlow src) := iff_of_true rfl ⟨nofun, nofun, nofun, nofun, nofun, nofun, nofun, nofun⟩
theorem sipTime (src : SrcId) : Statement (.sipTime src) := iff_of_true rfl ⟨nofun, nofun, nofun, nofun, nofun, nofun, nofun, nofun⟩
theorem msGo : Statement (.msGo) := iff_of_true rfl ⟨nofun, nofun, nofun, nofun, nofun, nofun, nofun, nofun⟩
theorem msSampleTimeout (dt : Nat) : Statement (.msSampleTimeout dt) :=
  iff_of_true rfl ⟨nofun, nofun, nofun, nofun, nofun, nofun, nofun, nofun⟩
theorem attest (link : LinkId) : Statement (.attest link) := iff_of_true rfl ⟨nofun, nofun, nofun, nofun, nofun, nofun, nofun, nofun⟩
theorem keyxOpen (link : LinkId) : Statement (.keyxOpen link) := iff_of_true rfl ⟨nofun, nofun, nofun, nofun, nofun, nofun, nofun, nofun⟩
theorem keyxEph (link : LinkId) : Statement (.keyxEph link) := iff_of_true rfl ⟨nofun, nofun, nofun, nofun, nofun, nofun, nofun, nofun⟩
theorem keyxConfirm (link : LinkId) : Statement (.keyxConfirm link) :=
  iff_of_true rfl ⟨nofun, nofun, nofun, nofun, nofun, nofun, nofun, nofun⟩
theorem rekey (link : LinkId) : Statement (.rekey link) := iff_of_true rfl ⟨nofun, nofun, nofun, nofun, nofun, nofun, nofun, nofun⟩
theorem advance (link : LinkId) : Statement (.advance link) := iff_of_true rfl ⟨nofun, nofun, nofun, nofun, nofun, nofun, nofun, nofun⟩
theorem previousSlotRetire (link : LinkId) (dt : Nat) : Statement (.previousSlotRetire link dt) :=
  iff_of_true rfl ⟨nofun, nofun, nofun, nofun, nofun, nofun, nofun, nofun⟩
theorem secPartCtlWrite (p : PartId) (valid : Bool) (bf : Bool) (tasteOk : Bool) (tag : BitVec 16) : Statement (.secPartCtlWrite p valid bf tasteOk tag) :=
  iff_of_true rfl ⟨nofun, nofun, nofun, nofun, nofun, nofun, nofun, nofun⟩
theorem scrubGo : Statement (.scrubGo) := iff_of_true rfl ⟨nofun, nofun, nofun, nofun, nofun, nofun, nofun, nofun⟩
theorem scrubDone : Statement (.scrubDone) := iff_of_true rfl ⟨nofun, nofun, nofun, nofun, nofun, nofun, nofun, nofun⟩
theorem spdmGo : Statement (.spdmGo) := iff_of_true rfl ⟨nofun, nofun, nofun, nofun, nofun, nofun, nofun, nofun⟩
theorem spdmResponseDone : Statement (.spdmResponseDone) := iff_of_true rfl ⟨nofun, nofun, nofun, nofun, nofun, nofun, nofun, nofun⟩
theorem faultDetect (sources : List (Fin 64 × Nat)) : Statement (.faultDetect sources) := by
  refine ⟨fun h => ⟨nofun, nofun, nofun, nofun, nofun, nofun, by rintro _ ⟨⟩; simpa [Instr.wf, RxFrame.wf, CPort.isN] using h, nofun⟩, fun h => ?_⟩
  simpa [Instr.wf, RxFrame.wf, CPort.isN] using h.2.2.2.2.2.2.1 _ rfl
theorem errPulseEnd (dt : Nat) : Statement (.errPulseEnd dt) := iff_of_true rfl ⟨nofun, nofun, nofun, nofun, nofun, nofun, nofun, nofun⟩
theorem fcStatusClear (mask : BitVec 64) : Statement (.fcStatusClear mask) :=
  iff_of_true rfl ⟨nofun, nofun, nofun, nofun, nofun, nofun, nofun, nofun⟩
theorem fcFirstClear : Statement (.fcFirstClear) := iff_of_true rfl ⟨nofun, nofun, nofun, nofun, nofun, nofun, nofun, nofun⟩
theorem errDriveWrite (drive : Bool) : Statement (.errDriveWrite drive) :=
  iff_of_true rfl ⟨nofun, nofun, nofun, nofun, nofun, nofun, nofun, nofun⟩
theorem faultInject (source : BitVec 6) : Statement (.faultInject source) :=
  iff_of_true rfl ⟨nofun, nofun, nofun, nofun, nofun, nofun, nofun, nofun⟩
theorem faultb (src : SrcId) : Statement (.faultb src) := iff_of_true rfl ⟨nofun, nofun, nofun, nofun, nofun, nofun, nofun, nofun⟩
theorem counterSelectWrite (n : Fin 512) (data : BitVec 64) : Statement (.counterSelectWrite n data) :=
  iff_of_true rfl ⟨nofun, nofun, nofun, nofun, nofun, nofun, nofun, nofun⟩
theorem counterPreset (n : Fin 512) (data : BitVec 64) : Statement (.counterPreset n data) :=
  iff_of_true rfl ⟨nofun, nofun, nofun, nofun, nofun, nofun, nofun, nofun⟩
theorem traceEnable : Statement (.traceEnable) := iff_of_true rfl ⟨nofun, nofun, nofun, nofun, nofun, nofun, nofun, nofun⟩
theorem traceRecordTake : Statement (.traceRecordTake) := iff_of_true rfl ⟨nofun, nofun, nofun, nofun, nofun, nofun, nofun, nofun⟩
theorem traceDataRead : Statement (.traceDataRead) := iff_of_true rfl ⟨nofun, nofun, nofun, nofun, nofun, nofun, nofun, nofun⟩
theorem fire (k : Fin 8) : Statement (.fire k) := iff_of_true rfl ⟨nofun, nofun, nofun, nofun, nofun, nofun, nofun, nofun⟩
theorem triggerTime (dt : Nat) : Statement (.triggerTime dt) := iff_of_true rfl ⟨nofun, nofun, nofun, nofun, nofun, nofun, nofun, nofun⟩
theorem counterExport (dt : Nat) : Statement (.counterExport dt) :=
  iff_of_true rfl ⟨nofun, nofun, nofun, nofun, nofun, nofun, nofun, nofun⟩
theorem obWrite (src : SrcId) : Statement (.obWrite src) := iff_of_true rfl ⟨nofun, nofun, nofun, nofun, nofun, nofun, nofun, nofun⟩
theorem curfewPacket (src : SrcId) : Statement (.curfewPacket src) :=
  iff_of_true rfl ⟨nofun, nofun, nofun, nofun, nofun, nofun, nofun, nofun⟩
theorem enter : Statement (.enter) := iff_of_true rfl ⟨nofun, nofun, nofun, nofun, nofun, nofun, nofun, nofun⟩
theorem curfewIn : Statement (.curfewIn) := iff_of_true rfl ⟨nofun, nofun, nofun, nofun, nofun, nofun, nofun, nofun⟩
theorem curfewTimed (dt : Nat) : Statement (.curfewTimed dt) := iff_of_true rfl ⟨nofun, nofun, nofun, nofun, nofun, nofun, nofun, nofun⟩
theorem curfewResume : Statement (.curfewResume) := iff_of_true rfl ⟨nofun, nofun, nofun, nofun, nofun, nofun, nofun, nofun⟩
theorem resumeWaitExpiry (link : LinkId) (dt : Nat) : Statement (.resumeWaitExpiry link dt) :=
  iff_of_true rfl ⟨nofun, nofun, nofun, nofun, nofun, nofun, nofun, nofun⟩
theorem scanStart : Statement (.scanStart) := iff_of_true rfl ⟨nofun, nofun, nofun, nofun, nofun, nofun, nofun, nofun⟩
theorem seek (sect : BitVec 16) (num : BitVec 16) : Statement (.seek sect num) :=
  iff_of_true rfl ⟨nofun, nofun, nofun, nofun, nofun, nofun, nofun, nofun⟩
theorem scanDataRead : Statement (.scanDataRead) := iff_of_true rfl ⟨nofun, nofun, nofun, nofun, nofun, nofun, nofun, nofun⟩
theorem scansel (w : BitVec 64) : Statement (.scansel w) := iff_of_true rfl ⟨nofun, nofun, nofun, nofun, nofun, nofun, nofun, nofun⟩
theorem scanout : Statement (.scanout) := iff_of_true rfl ⟨nofun, nofun, nofun, nofun, nofun, nofun, nofun, nofun⟩
theorem powerWindow (watts : Nat) (dt : Nat) : Statement (.powerWindow watts dt) :=
  iff_of_true rfl ⟨nofun, nofun, nofun, nofun, nofun, nofun, nofun, nofun⟩
theorem counterViewSnapshot (dt : Nat) : Statement (.counterViewSnapshot dt) :=
  iff_of_true rfl ⟨nofun, nofun, nofun, nofun, nofun, nofun, nofun, nofun⟩
theorem benchInject : Statement (.benchInject) := iff_of_true rfl ⟨nofun, nofun, nofun, nofun, nofun, nofun, nofun, nofun⟩
theorem trstN : Statement (.trstN) := iff_of_true rfl ⟨nofun, nofun, nofun, nofun, nofun, nofun, nofun, nofun⟩

end Sys2Proof.Laws.WellFormed
end

