-- ==== Sys2Proof/Laws/State.lean ====
section
/-! SUPPORT. What each named update of State leaves of every field, and what the accessors read after it. -/

namespace Sys2Proof.Machine

variable (s : State)

/-! ### setLink -/

@[simp] theorem State.setLink_pending (n : Nat) (l : Link) : (s.setLink n l).pending = s.pending := rfl
@[simp] theorem State.setLink_sent (n : Nat) (l : Link) : (s.setLink n l).sent = s.sent := rfl
@[simp] theorem State.setLink_freeCtr (n : Nat) (l : Link) : (s.setLink n l).freeCtr = s.freeCtr := rfl
@[simp] theorem State.setLink_clk (n : Nat) (l : Link) : (s.setLink n l).clk = s.clk := rfl
@[simp] theorem State.setLink_boot (n : Nat) (l : Link) : (s.setLink n l).boot = s.boot := rfl
@[simp] theorem State.setLink_fuses (n : Nat) (l : Link) : (s.setLink n l).fuses = s.fuses := rfl
@[simp] theorem State.setLink_pins (n : Nat) (l : Link) : (s.setLink n l).pins = s.pins := rfl
@[simp] theorem State.setLink_win (n : Nat) (l : Link) : (s.setLink n l).win = s.win := rfl
@[simp] theorem State.setLink_xings (n : Nat) (l : Link) : (s.setLink n l).xings = s.xings := rfl
@[simp] theorem State.setLink_eports (n : Nat) (l : Link) : (s.setLink n l).eports = s.eports := rfl
@[simp] theorem State.setLink_cpCrd (n : Nat) (l : Link) : (s.setLink n l).cpCrd = s.cpCrd := rfl
@[simp] theorem State.setLink_cpRx (n : Nat) (l : Link) : (s.setLink n l).cpRx = s.cpRx := rfl
@[simp] theorem State.setLink_cpq (n : Nat) (l : Link) : (s.setLink n l).cpq = s.cpq := rfl
@[simp] theorem State.setLink_cpOut (n : Nat) (l : Link) : (s.setLink n l).cpOut = s.cpOut := rfl
@[simp] theorem State.setLink_jobs (n : Nat) (l : Link) : (s.setLink n l).jobs = s.jobs := rfl
@[simp] theorem State.setLink_nextId (n : Nat) (l : Link) : (s.setLink n l).nextId = s.nextId := rfl
@[simp] theorem State.setLink_mgCrd (n : Nat) (l : Link) : (s.setLink n l).mgCrd = s.mgCrd := rfl
@[simp] theorem State.setLink_mgCmd (n : Nat) (l : Link) : (s.setLink n l).mgCmd = s.mgCmd := rfl
@[simp] theorem State.setLink_mgQ (n : Nat) (l : Link) : (s.setLink n l).mgQ = s.mgQ := rfl
@[simp] theorem State.setLink_lanes (n : Nat) (l : Link) : (s.setLink n l).lanes = s.lanes := rfl
@[simp] theorem State.setLink_lines (n : Nat) (l : Link) : (s.setLink n l).lines = s.lines := rfl
@[simp] theorem State.setLink_own (n : Nat) (l : Link) : (s.setLink n l).own = s.own := rfl
@[simp] theorem State.setLink_admitQ (n : Nat) (l : Link) : (s.setLink n l).admitQ = s.admitQ := rfl
@[simp] theorem State.setLink_tables (n : Nat) (l : Link) : (s.setLink n l).tables = s.tables := rfl
@[simp] theorem State.setLink_plan (n : Nat) (l : Link) : (s.setLink n l).plan = s.plan := rfl
@[simp] theorem State.setLink_commit (n : Nat) (l : Link) : (s.setLink n l).commit = s.commit := rfl
@[simp] theorem State.setLink_parts (n : Nat) (l : Link) : (s.setLink n l).parts = s.parts := rfl
@[simp] theorem State.setLink_flows (n : Nat) (l : Link) : (s.setLink n l).flows = s.flows := rfl
@[simp] theorem State.setLink_flowsIn (n : Nat) (l : Link) : (s.setLink n l).flowsIn = s.flowsIn := rfl
@[simp] theorem State.setLink_reqs (n : Nat) (l : Link) : (s.setLink n l).reqs = s.reqs := rfl
@[simp] theorem State.setLink_caches (n : Nat) (l : Link) : (s.setLink n l).caches = s.caches := rfl
@[simp] theorem State.setLink_onward (n : Nat) (l : Link) : (s.setLink n l).onward = s.onward := rfl
@[simp] theorem State.setLink_ptr (n : Nat) (l : Link) : (s.setLink n l).ptr = s.ptr := rfl
@[simp] theorem State.setLink_gates (n : Nat) (l : Link) : (s.setLink n l).gates = s.gates := rfl
@[simp] theorem State.setLink_schedUs (n : Nat) (l : Link) : (s.setLink n l).schedUs = s.schedUs := rfl
@[simp] theorem State.setLink_schStat (n : Nat) (l : Link) : (s.setLink n l).schStat = s.schStat := rfl
@[simp] theorem State.setLink_queues (n : Nat) (l : Link) : (s.setLink n l).queues = s.queues := rfl
@[simp] theorem State.setLink_stws (n : Nat) (l : Link) : (s.setLink n l).stws = s.stws := rfl
@[simp] theorem State.setLink_syncs (n : Nat) (l : Link) : (s.setLink n l).syncs = s.syncs := rfl
@[simp] theorem State.setLink_inn (n : Nat) (l : Link) : (s.setLink n l).inn = s.inn := rfl
@[simp] theorem State.setLink_groups (n : Nat) (l : Link) : (s.setLink n l).groups = s.groups := rfl
@[simp] theorem State.setLink_smv (n : Nat) (l : Link) : (s.setLink n l).smv = s.smv := rfl
@[simp] theorem State.setLink_sipLinks (n : Nat) (l : Link) : (s.setLink n l).sipLinks = s.sipLinks := rfl
@[simp] theorem State.setLink_fmtStat (n : Nat) (l : Link) : (s.setLink n l).fmtStat = s.fmtStat := rfl
@[simp] theorem State.setLink_fmtFlags (n : Nat) (l : Link) : (s.setLink n l).fmtFlags = s.fmtFlags := rfl
@[simp] theorem State.setLink_sec (n : Nat) (l : Link) : (s.setLink n l).sec = s.sec := rfl
@[simp] theorem State.setLink_fc (n : Nat) (l : Link) : (s.setLink n l).fc = s.fc := rfl
@[simp] theorem State.setLink_obs (n : Nat) (l : Link) : (s.setLink n l).obs = s.obs := rfl

/-! ### setLane -/

@[simp] theorem State.setLane_pending (n : Nat) (l : Lane) : (s.setLane n l).pending = s.pending := rfl
@[simp] theorem State.setLane_sent (n : Nat) (l : Lane) : (s.setLane n l).sent = s.sent := rfl
@[simp] theorem State.setLane_freeCtr (n : Nat) (l : Lane) : (s.setLane n l).freeCtr = s.freeCtr := rfl
@[simp] theorem State.setLane_clk (n : Nat) (l : Lane) : (s.setLane n l).clk = s.clk := rfl
@[simp] theorem State.setLane_boot (n : Nat) (l : Lane) : (s.setLane n l).boot = s.boot := rfl
@[simp] theorem State.setLane_fuses (n : Nat) (l : Lane) : (s.setLane n l).fuses = s.fuses := rfl
@[simp] theorem State.setLane_pins (n : Nat) (l : Lane) : (s.setLane n l).pins = s.pins := rfl
@[simp] theorem State.setLane_win (n : Nat) (l : Lane) : (s.setLane n l).win = s.win := rfl
@[simp] theorem State.setLane_xings (n : Nat) (l : Lane) : (s.setLane n l).xings = s.xings := rfl
@[simp] theorem State.setLane_eports (n : Nat) (l : Lane) : (s.setLane n l).eports = s.eports := rfl
@[simp] theorem State.setLane_cpCrd (n : Nat) (l : Lane) : (s.setLane n l).cpCrd = s.cpCrd := rfl
@[simp] theorem State.setLane_cpRx (n : Nat) (l : Lane) : (s.setLane n l).cpRx = s.cpRx := rfl
@[simp] theorem State.setLane_cpq (n : Nat) (l : Lane) : (s.setLane n l).cpq = s.cpq := rfl
@[simp] theorem State.setLane_cpOut (n : Nat) (l : Lane) : (s.setLane n l).cpOut = s.cpOut := rfl
@[simp] theorem State.setLane_jobs (n : Nat) (l : Lane) : (s.setLane n l).jobs = s.jobs := rfl
@[simp] theorem State.setLane_nextId (n : Nat) (l : Lane) : (s.setLane n l).nextId = s.nextId := rfl
@[simp] theorem State.setLane_mgCrd (n : Nat) (l : Lane) : (s.setLane n l).mgCrd = s.mgCrd := rfl
@[simp] theorem State.setLane_mgCmd (n : Nat) (l : Lane) : (s.setLane n l).mgCmd = s.mgCmd := rfl
@[simp] theorem State.setLane_mgQ (n : Nat) (l : Lane) : (s.setLane n l).mgQ = s.mgQ := rfl
@[simp] theorem State.setLane_links (n : Nat) (l : Lane) : (s.setLane n l).links = s.links := rfl
@[simp] theorem State.setLane_lines (n : Nat) (l : Lane) : (s.setLane n l).lines = s.lines := rfl
@[simp] theorem State.setLane_own (n : Nat) (l : Lane) : (s.setLane n l).own = s.own := rfl
@[simp] theorem State.setLane_admitQ (n : Nat) (l : Lane) : (s.setLane n l).admitQ = s.admitQ := rfl
@[simp] theorem State.setLane_tables (n : Nat) (l : Lane) : (s.setLane n l).tables = s.tables := rfl
@[simp] theorem State.setLane_plan (n : Nat) (l : Lane) : (s.setLane n l).plan = s.plan := rfl
@[simp] theorem State.setLane_commit (n : Nat) (l : Lane) : (s.setLane n l).commit = s.commit := rfl
@[simp] theorem State.setLane_parts (n : Nat) (l : Lane) : (s.setLane n l).parts = s.parts := rfl
@[simp] theorem State.setLane_flows (n : Nat) (l : Lane) : (s.setLane n l).flows = s.flows := rfl
@[simp] theorem State.setLane_flowsIn (n : Nat) (l : Lane) : (s.setLane n l).flowsIn = s.flowsIn := rfl
@[simp] theorem State.setLane_reqs (n : Nat) (l : Lane) : (s.setLane n l).reqs = s.reqs := rfl
@[simp] theorem State.setLane_caches (n : Nat) (l : Lane) : (s.setLane n l).caches = s.caches := rfl
@[simp] theorem State.setLane_onward (n : Nat) (l : Lane) : (s.setLane n l).onward = s.onward := rfl
@[simp] theorem State.setLane_ptr (n : Nat) (l : Lane) : (s.setLane n l).ptr = s.ptr := rfl
@[simp] theorem State.setLane_gates (n : Nat) (l : Lane) : (s.setLane n l).gates = s.gates := rfl
@[simp] theorem State.setLane_schedUs (n : Nat) (l : Lane) : (s.setLane n l).schedUs = s.schedUs := rfl
@[simp] theorem State.setLane_schStat (n : Nat) (l : Lane) : (s.setLane n l).schStat = s.schStat := rfl
@[simp] theorem State.setLane_queues (n : Nat) (l : Lane) : (s.setLane n l).queues = s.queues := rfl
@[simp] theorem State.setLane_stws (n : Nat) (l : Lane) : (s.setLane n l).stws = s.stws := rfl
@[simp] theorem State.setLane_syncs (n : Nat) (l : Lane) : (s.setLane n l).syncs = s.syncs := rfl
@[simp] theorem State.setLane_inn (n : Nat) (l : Lane) : (s.setLane n l).inn = s.inn := rfl
@[simp] theorem State.setLane_groups (n : Nat) (l : Lane) : (s.setLane n l).groups = s.groups := rfl
@[simp] theorem State.setLane_smv (n : Nat) (l : Lane) : (s.setLane n l).smv = s.smv := rfl
@[simp] theorem State.setLane_sipLinks (n : Nat) (l : Lane) : (s.setLane n l).sipLinks = s.sipLinks := rfl
@[simp] theorem State.setLane_fmtStat (n : Nat) (l : Lane) : (s.setLane n l).fmtStat = s.fmtStat := rfl
@[simp] theorem State.setLane_fmtFlags (n : Nat) (l : Lane) : (s.setLane n l).fmtFlags = s.fmtFlags := rfl
@[simp] theorem State.setLane_sec (n : Nat) (l : Lane) : (s.setLane n l).sec = s.sec := rfl
@[simp] theorem State.setLane_fc (n : Nat) (l : Lane) : (s.setLane n l).fc = s.fc := rfl
@[simp] theorem State.setLane_obs (n : Nat) (l : Lane) : (s.setLane n l).obs = s.obs := rfl

/-! ### setEPort -/

@[simp] theorem State.setEPort_pending (n : Nat) (p : EPort) : (s.setEPort n p).pending = s.pending := rfl
@[simp] theorem State.setEPort_sent (n : Nat) (p : EPort) : (s.setEPort n p).sent = s.sent := rfl
@[simp] theorem State.setEPort_freeCtr (n : Nat) (p : EPort) : (s.setEPort n p).freeCtr = s.freeCtr := rfl
@[simp] theorem State.setEPort_clk (n : Nat) (p : EPort) : (s.setEPort n p).clk = s.clk := rfl
@[simp] theorem State.setEPort_boot (n : Nat) (p : EPort) : (s.setEPort n p).boot = s.boot := rfl
@[simp] theorem State.setEPort_fuses (n : Nat) (p : EPort) : (s.setEPort n p).fuses = s.fuses := rfl
@[simp] theorem State.setEPort_pins (n : Nat) (p : EPort) : (s.setEPort n p).pins = s.pins := rfl
@[simp] theorem State.setEPort_win (n : Nat) (p : EPort) : (s.setEPort n p).win = s.win := rfl
@[simp] theorem State.setEPort_xings (n : Nat) (p : EPort) : (s.setEPort n p).xings = s.xings := rfl
@[simp] theorem State.setEPort_cpCrd (n : Nat) (p : EPort) : (s.setEPort n p).cpCrd = s.cpCrd := rfl
@[simp] theorem State.setEPort_cpRx (n : Nat) (p : EPort) : (s.setEPort n p).cpRx = s.cpRx := rfl
@[simp] theorem State.setEPort_cpq (n : Nat) (p : EPort) : (s.setEPort n p).cpq = s.cpq := rfl
@[simp] theorem State.setEPort_cpOut (n : Nat) (p : EPort) : (s.setEPort n p).cpOut = s.cpOut := rfl
@[simp] theorem State.setEPort_jobs (n : Nat) (p : EPort) : (s.setEPort n p).jobs = s.jobs := rfl
@[simp] theorem State.setEPort_nextId (n : Nat) (p : EPort) : (s.setEPort n p).nextId = s.nextId := rfl
@[simp] theorem State.setEPort_mgCrd (n : Nat) (p : EPort) : (s.setEPort n p).mgCrd = s.mgCrd := rfl
@[simp] theorem State.setEPort_mgCmd (n : Nat) (p : EPort) : (s.setEPort n p).mgCmd = s.mgCmd := rfl
@[simp] theorem State.setEPort_mgQ (n : Nat) (p : EPort) : (s.setEPort n p).mgQ = s.mgQ := rfl
@[simp] theorem State.setEPort_lanes (n : Nat) (p : EPort) : (s.setEPort n p).lanes = s.lanes := rfl
@[simp] theorem State.setEPort_links (n : Nat) (p : EPort) : (s.setEPort n p).links = s.links := rfl
@[simp] theorem State.setEPort_lines (n : Nat) (p : EPort) : (s.setEPort n p).lines = s.lines := rfl
@[simp] theorem State.setEPort_own (n : Nat) (p : EPort) : (s.setEPort n p).own = s.own := rfl
@[simp] theorem State.setEPort_admitQ (n : Nat) (p : EPort) : (s.setEPort n p).admitQ = s.admitQ := rfl
@[simp] theorem State.setEPort_tables (n : Nat) (p : EPort) : (s.setEPort n p).tables = s.tables := rfl
@[simp] theorem State.setEPort_plan (n : Nat) (p : EPort) : (s.setEPort n p).plan = s.plan := rfl
@[simp] theorem State.setEPort_commit (n : Nat) (p : EPort) : (s.setEPort n p).commit = s.commit := rfl
@[simp] theorem State.setEPort_parts (n : Nat) (p : EPort) : (s.setEPort n p).parts = s.parts := rfl
@[simp] theorem State.setEPort_flows (n : Nat) (p : EPort) : (s.setEPort n p).flows = s.flows := rfl
@[simp] theorem State.setEPort_flowsIn (n : Nat) (p : EPort) : (s.setEPort n p).flowsIn = s.flowsIn := rfl
@[simp] theorem State.setEPort_reqs (n : Nat) (p : EPort) : (s.setEPort n p).reqs = s.reqs := rfl
@[simp] theorem State.setEPort_caches (n : Nat) (p : EPort) : (s.setEPort n p).caches = s.caches := rfl
@[simp] theorem State.setEPort_onward (n : Nat) (p : EPort) : (s.setEPort n p).onward = s.onward := rfl
@[simp] theorem State.setEPort_ptr (n : Nat) (p : EPort) : (s.setEPort n p).ptr = s.ptr := rfl
@[simp] theorem State.setEPort_gates (n : Nat) (p : EPort) : (s.setEPort n p).gates = s.gates := rfl
@[simp] theorem State.setEPort_schedUs (n : Nat) (p : EPort) : (s.setEPort n p).schedUs = s.schedUs := rfl
@[simp] theorem State.setEPort_schStat (n : Nat) (p : EPort) : (s.setEPort n p).schStat = s.schStat := rfl
@[simp] theorem State.setEPort_queues (n : Nat) (p : EPort) : (s.setEPort n p).queues = s.queues := rfl
@[simp] theorem State.setEPort_stws (n : Nat) (p : EPort) : (s.setEPort n p).stws = s.stws := rfl
@[simp] theorem State.setEPort_syncs (n : Nat) (p : EPort) : (s.setEPort n p).syncs = s.syncs := rfl
@[simp] theorem State.setEPort_inn (n : Nat) (p : EPort) : (s.setEPort n p).inn = s.inn := rfl
@[simp] theorem State.setEPort_groups (n : Nat) (p : EPort) : (s.setEPort n p).groups = s.groups := rfl
@[simp] theorem State.setEPort_smv (n : Nat) (p : EPort) : (s.setEPort n p).smv = s.smv := rfl
@[simp] theorem State.setEPort_sipLinks (n : Nat) (p : EPort) : (s.setEPort n p).sipLinks = s.sipLinks := rfl
@[simp] theorem State.setEPort_fmtStat (n : Nat) (p : EPort) : (s.setEPort n p).fmtStat = s.fmtStat := rfl
@[simp] theorem State.setEPort_fmtFlags (n : Nat) (p : EPort) : (s.setEPort n p).fmtFlags = s.fmtFlags := rfl
@[simp] theorem State.setEPort_sec (n : Nat) (p : EPort) : (s.setEPort n p).sec = s.sec := rfl
@[simp] theorem State.setEPort_fc (n : Nat) (p : EPort) : (s.setEPort n p).fc = s.fc := rfl
@[simp] theorem State.setEPort_obs (n : Nat) (p : EPort) : (s.setEPort n p).obs = s.obs := rfl

/-! ### setReg -/

@[simp] theorem State.setReg_pending (a : Nat) (v : Word) : (s.setReg a v).pending = s.pending := rfl
@[simp] theorem State.setReg_sent (a : Nat) (v : Word) : (s.setReg a v).sent = s.sent := rfl
@[simp] theorem State.setReg_freeCtr (a : Nat) (v : Word) : (s.setReg a v).freeCtr = s.freeCtr := rfl
@[simp] theorem State.setReg_clk (a : Nat) (v : Word) : (s.setReg a v).clk = s.clk := rfl
@[simp] theorem State.setReg_boot (a : Nat) (v : Word) : (s.setReg a v).boot = s.boot := rfl
@[simp] theorem State.setReg_fuses (a : Nat) (v : Word) : (s.setReg a v).fuses = s.fuses := rfl
@[simp] theorem State.setReg_pins (a : Nat) (v : Word) : (s.setReg a v).pins = s.pins := rfl
@[simp] theorem State.setReg_xings (a : Nat) (v : Word) : (s.setReg a v).xings = s.xings := rfl
@[simp] theorem State.setReg_eports (a : Nat) (v : Word) : (s.setReg a v).eports = s.eports := rfl
@[simp] theorem State.setReg_cpCrd (a : Nat) (v : Word) : (s.setReg a v).cpCrd = s.cpCrd := rfl
@[simp] theorem State.setReg_cpRx (a : Nat) (v : Word) : (s.setReg a v).cpRx = s.cpRx := rfl
@[simp] theorem State.setReg_cpq (a : Nat) (v : Word) : (s.setReg a v).cpq = s.cpq := rfl
@[simp] theorem State.setReg_cpOut (a : Nat) (v : Word) : (s.setReg a v).cpOut = s.cpOut := rfl
@[simp] theorem State.setReg_jobs (a : Nat) (v : Word) : (s.setReg a v).jobs = s.jobs := rfl
@[simp] theorem State.setReg_nextId (a : Nat) (v : Word) : (s.setReg a v).nextId = s.nextId := rfl
@[simp] theorem State.setReg_mgCrd (a : Nat) (v : Word) : (s.setReg a v).mgCrd = s.mgCrd := rfl
@[simp] theorem State.setReg_mgCmd (a : Nat) (v : Word) : (s.setReg a v).mgCmd = s.mgCmd := rfl
@[simp] theorem State.setReg_mgQ (a : Nat) (v : Word) : (s.setReg a v).mgQ = s.mgQ := rfl
@[simp] theorem State.setReg_lanes (a : Nat) (v : Word) : (s.setReg a v).lanes = s.lanes := rfl
@[simp] theorem State.setReg_links (a : Nat) (v : Word) : (s.setReg a v).links = s.links := rfl
@[simp] theorem State.setReg_lines (a : Nat) (v : Word) : (s.setReg a v).lines = s.lines := rfl
@[simp] theorem State.setReg_own (a : Nat) (v : Word) : (s.setReg a v).own = s.own := rfl
@[simp] theorem State.setReg_admitQ (a : Nat) (v : Word) : (s.setReg a v).admitQ = s.admitQ := rfl
@[simp] theorem State.setReg_tables (a : Nat) (v : Word) : (s.setReg a v).tables = s.tables := rfl
@[simp] theorem State.setReg_plan (a : Nat) (v : Word) : (s.setReg a v).plan = s.plan := rfl
@[simp] theorem State.setReg_commit (a : Nat) (v : Word) : (s.setReg a v).commit = s.commit := rfl
@[simp] theorem State.setReg_parts (a : Nat) (v : Word) : (s.setReg a v).parts = s.parts := rfl
@[simp] theorem State.setReg_flows (a : Nat) (v : Word) : (s.setReg a v).flows = s.flows := rfl
@[simp] theorem State.setReg_flowsIn (a : Nat) (v : Word) : (s.setReg a v).flowsIn = s.flowsIn := rfl
@[simp] theorem State.setReg_reqs (a : Nat) (v : Word) : (s.setReg a v).reqs = s.reqs := rfl
@[simp] theorem State.setReg_caches (a : Nat) (v : Word) : (s.setReg a v).caches = s.caches := rfl
@[simp] theorem State.setReg_onward (a : Nat) (v : Word) : (s.setReg a v).onward = s.onward := rfl
@[simp] theorem State.setReg_ptr (a : Nat) (v : Word) : (s.setReg a v).ptr = s.ptr := rfl
@[simp] theorem State.setReg_gates (a : Nat) (v : Word) : (s.setReg a v).gates = s.gates := rfl
@[simp] theorem State.setReg_schedUs (a : Nat) (v : Word) : (s.setReg a v).schedUs = s.schedUs := rfl
@[simp] theorem State.setReg_schStat (a : Nat) (v : Word) : (s.setReg a v).schStat = s.schStat := rfl
@[simp] theorem State.setReg_queues (a : Nat) (v : Word) : (s.setReg a v).queues = s.queues := rfl
@[simp] theorem State.setReg_stws (a : Nat) (v : Word) : (s.setReg a v).stws = s.stws := rfl
@[simp] theorem State.setReg_syncs (a : Nat) (v : Word) : (s.setReg a v).syncs = s.syncs := rfl
@[simp] theorem State.setReg_inn (a : Nat) (v : Word) : (s.setReg a v).inn = s.inn := rfl
@[simp] theorem State.setReg_groups (a : Nat) (v : Word) : (s.setReg a v).groups = s.groups := rfl
@[simp] theorem State.setReg_smv (a : Nat) (v : Word) : (s.setReg a v).smv = s.smv := rfl
@[simp] theorem State.setReg_sipLinks (a : Nat) (v : Word) : (s.setReg a v).sipLinks = s.sipLinks := rfl
@[simp] theorem State.setReg_fmtStat (a : Nat) (v : Word) : (s.setReg a v).fmtStat = s.fmtStat := rfl
@[simp] theorem State.setReg_fmtFlags (a : Nat) (v : Word) : (s.setReg a v).fmtFlags = s.fmtFlags := rfl
@[simp] theorem State.setReg_sec (a : Nat) (v : Word) : (s.setReg a v).sec = s.sec := rfl
@[simp] theorem State.setReg_fc (a : Nat) (v : Word) : (s.setReg a v).fc = s.fc := rfl
@[simp] theorem State.setReg_obs (a : Nat) (v : Word) : (s.setReg a v).obs = s.obs := rfl

/-! ### setQueue -/

@[simp] theorem State.setQueue_pending (q : Nat) (d : Queue) : (s.setQueue q d).pending = s.pending := rfl
@[simp] theorem State.setQueue_sent (q : Nat) (d : Queue) : (s.setQueue q d).sent = s.sent := rfl
@[simp] theorem State.setQueue_freeCtr (q : Nat) (d : Queue) : (s.setQueue q d).freeCtr = s.freeCtr := rfl
@[simp] theorem State.setQueue_clk (q : Nat) (d : Queue) : (s.setQueue q d).clk = s.clk := rfl
@[simp] theorem State.setQueue_boot (q : Nat) (d : Queue) : (s.setQueue q d).boot = s.boot := rfl
@[simp] theorem State.setQueue_fuses (q : Nat) (d : Queue) : (s.setQueue q d).fuses = s.fuses := rfl
@[simp] theorem State.setQueue_pins (q : Nat) (d : Queue) : (s.setQueue q d).pins = s.pins := rfl
@[simp] theorem State.setQueue_win (q : Nat) (d : Queue) : (s.setQueue q d).win = s.win := rfl
@[simp] theorem State.setQueue_xings (q : Nat) (d : Queue) : (s.setQueue q d).xings = s.xings := rfl
@[simp] theorem State.setQueue_eports (q : Nat) (d : Queue) : (s.setQueue q d).eports = s.eports := rfl
@[simp] theorem State.setQueue_cpCrd (q : Nat) (d : Queue) : (s.setQueue q d).cpCrd = s.cpCrd := rfl
@[simp] theorem State.setQueue_cpRx (q : Nat) (d : Queue) : (s.setQueue q d).cpRx = s.cpRx := rfl
@[simp] theorem State.setQueue_cpq (q : Nat) (d : Queue) : (s.setQueue q d).cpq = s.cpq := rfl
@[simp] theorem State.setQueue_cpOut (q : Nat) (d : Queue) : (s.setQueue q d).cpOut = s.cpOut := rfl
@[simp] theorem State.setQueue_jobs (q : Nat) (d : Queue) : (s.setQueue q d).jobs = s.jobs := rfl
@[simp] theorem State.setQueue_nextId (q : Nat) (d : Queue) : (s.setQueue q d).nextId = s.nextId := rfl
@[simp] theorem State.setQueue_mgCrd (q : Nat) (d : Queue) : (s.setQueue q d).mgCrd = s.mgCrd := rfl
@[simp] theorem State.setQueue_mgCmd (q : Nat) (d : Queue) : (s.setQueue q d).mgCmd = s.mgCmd := rfl
@[simp] theorem State.setQueue_mgQ (q : Nat) (d : Queue) : (s.setQueue q d).mgQ = s.mgQ := rfl
@[simp] theorem State.setQueue_lanes (q : Nat) (d : Queue) : (s.setQueue q d).lanes = s.lanes := rfl
@[simp] theorem State.setQueue_links (q : Nat) (d : Queue) : (s.setQueue q d).links = s.links := rfl
@[simp] theorem State.setQueue_lines (q : Nat) (d : Queue) : (s.setQueue q d).lines = s.lines := rfl
@[simp] theorem State.setQueue_own (q : Nat) (d : Queue) : (s.setQueue q d).own = s.own := rfl
@[simp] theorem State.setQueue_admitQ (q : Nat) (d : Queue) : (s.setQueue q d).admitQ = s.admitQ := rfl
@[simp] theorem State.setQueue_tables (q : Nat) (d : Queue) : (s.setQueue q d).tables = s.tables := rfl
@[simp] theorem State.setQueue_plan (q : Nat) (d : Queue) : (s.setQueue q d).plan = s.plan := rfl
@[simp] theorem State.setQueue_commit (q : Nat) (d : Queue) : (s.setQueue q d).commit = s.commit := rfl
@[simp] theorem State.setQueue_parts (q : Nat) (d : Queue) : (s.setQueue q d).parts = s.parts := rfl
@[simp] theorem State.setQueue_flows (q : Nat) (d : Queue) : (s.setQueue q d).flows = s.flows := rfl
@[simp] theorem State.setQueue_flowsIn (q : Nat) (d : Queue) : (s.setQueue q d).flowsIn = s.flowsIn := rfl
@[simp] theorem State.setQueue_reqs (q : Nat) (d : Queue) : (s.setQueue q d).reqs = s.reqs := rfl
@[simp] theorem State.setQueue_caches (q : Nat) (d : Queue) : (s.setQueue q d).caches = s.caches := rfl
@[simp] theorem State.setQueue_onward (q : Nat) (d : Queue) : (s.setQueue q d).onward = s.onward := rfl
@[simp] theorem State.setQueue_ptr (q : Nat) (d : Queue) : (s.setQueue q d).ptr = s.ptr := rfl
@[simp] theorem State.setQueue_gates (q : Nat) (d : Queue) : (s.setQueue q d).gates = s.gates := rfl
@[simp] theorem State.setQueue_schedUs (q : Nat) (d : Queue) : (s.setQueue q d).schedUs = s.schedUs := rfl
@[simp] theorem State.setQueue_schStat (q : Nat) (d : Queue) : (s.setQueue q d).schStat = s.schStat := rfl
@[simp] theorem State.setQueue_stws (q : Nat) (d : Queue) : (s.setQueue q d).stws = s.stws := rfl
@[simp] theorem State.setQueue_syncs (q : Nat) (d : Queue) : (s.setQueue q d).syncs = s.syncs := rfl
@[simp] theorem State.setQueue_inn (q : Nat) (d : Queue) : (s.setQueue q d).inn = s.inn := rfl
@[simp] theorem State.setQueue_groups (q : Nat) (d : Queue) : (s.setQueue q d).groups = s.groups := rfl
@[simp] theorem State.setQueue_smv (q : Nat) (d : Queue) : (s.setQueue q d).smv = s.smv := rfl
@[simp] theorem State.setQueue_sipLinks (q : Nat) (d : Queue) : (s.setQueue q d).sipLinks = s.sipLinks := rfl
@[simp] theorem State.setQueue_fmtStat (q : Nat) (d : Queue) : (s.setQueue q d).fmtStat = s.fmtStat := rfl
@[simp] theorem State.setQueue_fmtFlags (q : Nat) (d : Queue) : (s.setQueue q d).fmtFlags = s.fmtFlags := rfl
@[simp] theorem State.setQueue_sec (q : Nat) (d : Queue) : (s.setQueue q d).sec = s.sec := rfl
@[simp] theorem State.setQueue_fc (q : Nat) (d : Queue) : (s.setQueue q d).fc = s.fc := rfl
@[simp] theorem State.setQueue_obs (q : Nat) (d : Queue) : (s.setQueue q d).obs = s.obs := rfl

/-! ### setStw -/

@[simp] theorem State.setStw_pending (n : Nat) (w : Stw) : (s.setStw n w).pending = s.pending := rfl
@[simp] theorem State.setStw_sent (n : Nat) (w : Stw) : (s.setStw n w).sent = s.sent := rfl
@[simp] theorem State.setStw_freeCtr (n : Nat) (w : Stw) : (s.setStw n w).freeCtr = s.freeCtr := rfl
@[simp] theorem State.setStw_clk (n : Nat) (w : Stw) : (s.setStw n w).clk = s.clk := rfl
@[simp] theorem State.setStw_boot (n : Nat) (w : Stw) : (s.setStw n w).boot = s.boot := rfl
@[simp] theorem State.setStw_fuses (n : Nat) (w : Stw) : (s.setStw n w).fuses = s.fuses := rfl
@[simp] theorem State.setStw_pins (n : Nat) (w : Stw) : (s.setStw n w).pins = s.pins := rfl
@[simp] theorem State.setStw_win (n : Nat) (w : Stw) : (s.setStw n w).win = s.win := rfl
@[simp] theorem State.setStw_xings (n : Nat) (w : Stw) : (s.setStw n w).xings = s.xings := rfl
@[simp] theorem State.setStw_eports (n : Nat) (w : Stw) : (s.setStw n w).eports = s.eports := rfl
@[simp] theorem State.setStw_cpCrd (n : Nat) (w : Stw) : (s.setStw n w).cpCrd = s.cpCrd := rfl
@[simp] theorem State.setStw_cpRx (n : Nat) (w : Stw) : (s.setStw n w).cpRx = s.cpRx := rfl
@[simp] theorem State.setStw_cpq (n : Nat) (w : Stw) : (s.setStw n w).cpq = s.cpq := rfl
@[simp] theorem State.setStw_cpOut (n : Nat) (w : Stw) : (s.setStw n w).cpOut = s.cpOut := rfl
@[simp] theorem State.setStw_jobs (n : Nat) (w : Stw) : (s.setStw n w).jobs = s.jobs := rfl
@[simp] theorem State.setStw_nextId (n : Nat) (w : Stw) : (s.setStw n w).nextId = s.nextId := rfl
@[simp] theorem State.setStw_mgCrd (n : Nat) (w : Stw) : (s.setStw n w).mgCrd = s.mgCrd := rfl
@[simp] theorem State.setStw_mgCmd (n : Nat) (w : Stw) : (s.setStw n w).mgCmd = s.mgCmd := rfl
@[simp] theorem State.setStw_mgQ (n : Nat) (w : Stw) : (s.setStw n w).mgQ = s.mgQ := rfl
@[simp] theorem State.setStw_lanes (n : Nat) (w : Stw) : (s.setStw n w).lanes = s.lanes := rfl
@[simp] theorem State.setStw_links (n : Nat) (w : Stw) : (s.setStw n w).links = s.links := rfl
@[simp] theorem State.setStw_lines (n : Nat) (w : Stw) : (s.setStw n w).lines = s.lines := rfl
@[simp] theorem State.setStw_own (n : Nat) (w : Stw) : (s.setStw n w).own = s.own := rfl
@[simp] theorem State.setStw_admitQ (n : Nat) (w : Stw) : (s.setStw n w).admitQ = s.admitQ := rfl
@[simp] theorem State.setStw_tables (n : Nat) (w : Stw) : (s.setStw n w).tables = s.tables := rfl
@[simp] theorem State.setStw_plan (n : Nat) (w : Stw) : (s.setStw n w).plan = s.plan := rfl
@[simp] theorem State.setStw_commit (n : Nat) (w : Stw) : (s.setStw n w).commit = s.commit := rfl
@[simp] theorem State.setStw_parts (n : Nat) (w : Stw) : (s.setStw n w).parts = s.parts := rfl
@[simp] theorem State.setStw_flows (n : Nat) (w : Stw) : (s.setStw n w).flows = s.flows := rfl
@[simp] theorem State.setStw_flowsIn (n : Nat) (w : Stw) : (s.setStw n w).flowsIn = s.flowsIn := rfl
@[simp] theorem State.setStw_reqs (n : Nat) (w : Stw) : (s.setStw n w).reqs = s.reqs := rfl
@[simp] theorem State.setStw_caches (n : Nat) (w : Stw) : (s.setStw n w).caches = s.caches := rfl
@[simp] theorem State.setStw_onward (n : Nat) (w : Stw) : (s.setStw n w).onward = s.onward := rfl
@[simp] theorem State.setStw_ptr (n : Nat) (w : Stw) : (s.setStw n w).ptr = s.ptr := rfl
@[simp] theorem State.setStw_gates (n : Nat) (w : Stw) : (s.setStw n w).gates = s.gates := rfl
@[simp] theorem State.setStw_schedUs (n : Nat) (w : Stw) : (s.setStw n w).schedUs = s.schedUs := rfl
@[simp] theorem State.setStw_schStat (n : Nat) (w : Stw) : (s.setStw n w).schStat = s.schStat := rfl
@[simp] theorem State.setStw_queues (n : Nat) (w : Stw) : (s.setStw n w).queues = s.queues := rfl
@[simp] theorem State.setStw_syncs (n : Nat) (w : Stw) : (s.setStw n w).syncs = s.syncs := rfl
@[simp] theorem State.setStw_inn (n : Nat) (w : Stw) : (s.setStw n w).inn = s.inn := rfl
@[simp] theorem State.setStw_groups (n : Nat) (w : Stw) : (s.setStw n w).groups = s.groups := rfl
@[simp] theorem State.setStw_smv (n : Nat) (w : Stw) : (s.setStw n w).smv = s.smv := rfl
@[simp] theorem State.setStw_sipLinks (n : Nat) (w : Stw) : (s.setStw n w).sipLinks = s.sipLinks := rfl
@[simp] theorem State.setStw_fmtStat (n : Nat) (w : Stw) : (s.setStw n w).fmtStat = s.fmtStat := rfl
@[simp] theorem State.setStw_fmtFlags (n : Nat) (w : Stw) : (s.setStw n w).fmtFlags = s.fmtFlags := rfl
@[simp] theorem State.setStw_sec (n : Nat) (w : Stw) : (s.setStw n w).sec = s.sec := rfl
@[simp] theorem State.setStw_fc (n : Nat) (w : Stw) : (s.setStw n w).fc = s.fc := rfl
@[simp] theorem State.setStw_obs (n : Nat) (w : Stw) : (s.setStw n w).obs = s.obs := rfl

/-! ### setSync -/

@[simp] theorem State.setSync_pending (n : Nat) (o : Sync) : (s.setSync n o).pending = s.pending := rfl
@[simp] theorem State.setSync_sent (n : Nat) (o : Sync) : (s.setSync n o).sent = s.sent := rfl
@[simp] theorem State.setSync_freeCtr (n : Nat) (o : Sync) : (s.setSync n o).freeCtr = s.freeCtr := rfl
@[simp] theorem State.setSync_clk (n : Nat) (o : Sync) : (s.setSync n o).clk = s.clk := rfl
@[simp] theorem State.setSync_boot (n : Nat) (o : Sync) : (s.setSync n o).boot = s.boot := rfl
@[simp] theorem State.setSync_fuses (n : Nat) (o : Sync) : (s.setSync n o).fuses = s.fuses := rfl
@[simp] theorem State.setSync_pins (n : Nat) (o : Sync) : (s.setSync n o).pins = s.pins := rfl
@[simp] theorem State.setSync_win (n : Nat) (o : Sync) : (s.setSync n o).win = s.win := rfl
@[simp] theorem State.setSync_xings (n : Nat) (o : Sync) : (s.setSync n o).xings = s.xings := rfl
@[simp] theorem State.setSync_eports (n : Nat) (o : Sync) : (s.setSync n o).eports = s.eports := rfl
@[simp] theorem State.setSync_cpCrd (n : Nat) (o : Sync) : (s.setSync n o).cpCrd = s.cpCrd := rfl
@[simp] theorem State.setSync_cpRx (n : Nat) (o : Sync) : (s.setSync n o).cpRx = s.cpRx := rfl
@[simp] theorem State.setSync_cpq (n : Nat) (o : Sync) : (s.setSync n o).cpq = s.cpq := rfl
@[simp] theorem State.setSync_cpOut (n : Nat) (o : Sync) : (s.setSync n o).cpOut = s.cpOut := rfl
@[simp] theorem State.setSync_jobs (n : Nat) (o : Sync) : (s.setSync n o).jobs = s.jobs := rfl
@[simp] theorem State.setSync_nextId (n : Nat) (o : Sync) : (s.setSync n o).nextId = s.nextId := rfl
@[simp] theorem State.setSync_mgCrd (n : Nat) (o : Sync) : (s.setSync n o).mgCrd = s.mgCrd := rfl
@[simp] theorem State.setSync_mgCmd (n : Nat) (o : Sync) : (s.setSync n o).mgCmd = s.mgCmd := rfl
@[simp] theorem State.setSync_mgQ (n : Nat) (o : Sync) : (s.setSync n o).mgQ = s.mgQ := rfl
@[simp] theorem State.setSync_lanes (n : Nat) (o : Sync) : (s.setSync n o).lanes = s.lanes := rfl
@[simp] theorem State.setSync_links (n : Nat) (o : Sync) : (s.setSync n o).links = s.links := rfl
@[simp] theorem State.setSync_lines (n : Nat) (o : Sync) : (s.setSync n o).lines = s.lines := rfl
@[simp] theorem State.setSync_own (n : Nat) (o : Sync) : (s.setSync n o).own = s.own := rfl
@[simp] theorem State.setSync_admitQ (n : Nat) (o : Sync) : (s.setSync n o).admitQ = s.admitQ := rfl
@[simp] theorem State.setSync_tables (n : Nat) (o : Sync) : (s.setSync n o).tables = s.tables := rfl
@[simp] theorem State.setSync_plan (n : Nat) (o : Sync) : (s.setSync n o).plan = s.plan := rfl
@[simp] theorem State.setSync_commit (n : Nat) (o : Sync) : (s.setSync n o).commit = s.commit := rfl
@[simp] theorem State.setSync_parts (n : Nat) (o : Sync) : (s.setSync n o).parts = s.parts := rfl
@[simp] theorem State.setSync_flows (n : Nat) (o : Sync) : (s.setSync n o).flows = s.flows := rfl
@[simp] theorem State.setSync_flowsIn (n : Nat) (o : Sync) : (s.setSync n o).flowsIn = s.flowsIn := rfl
@[simp] theorem State.setSync_reqs (n : Nat) (o : Sync) : (s.setSync n o).reqs = s.reqs := rfl
@[simp] theorem State.setSync_caches (n : Nat) (o : Sync) : (s.setSync n o).caches = s.caches := rfl
@[simp] theorem State.setSync_onward (n : Nat) (o : Sync) : (s.setSync n o).onward = s.onward := rfl
@[simp] theorem State.setSync_ptr (n : Nat) (o : Sync) : (s.setSync n o).ptr = s.ptr := rfl
@[simp] theorem State.setSync_gates (n : Nat) (o : Sync) : (s.setSync n o).gates = s.gates := rfl
@[simp] theorem State.setSync_schedUs (n : Nat) (o : Sync) : (s.setSync n o).schedUs = s.schedUs := rfl
@[simp] theorem State.setSync_schStat (n : Nat) (o : Sync) : (s.setSync n o).schStat = s.schStat := rfl
@[simp] theorem State.setSync_queues (n : Nat) (o : Sync) : (s.setSync n o).queues = s.queues := rfl
@[simp] theorem State.setSync_stws (n : Nat) (o : Sync) : (s.setSync n o).stws = s.stws := rfl
@[simp] theorem State.setSync_inn (n : Nat) (o : Sync) : (s.setSync n o).inn = s.inn := rfl
@[simp] theorem State.setSync_groups (n : Nat) (o : Sync) : (s.setSync n o).groups = s.groups := rfl
@[simp] theorem State.setSync_smv (n : Nat) (o : Sync) : (s.setSync n o).smv = s.smv := rfl
@[simp] theorem State.setSync_sipLinks (n : Nat) (o : Sync) : (s.setSync n o).sipLinks = s.sipLinks := rfl
@[simp] theorem State.setSync_fmtStat (n : Nat) (o : Sync) : (s.setSync n o).fmtStat = s.fmtStat := rfl
@[simp] theorem State.setSync_fmtFlags (n : Nat) (o : Sync) : (s.setSync n o).fmtFlags = s.fmtFlags := rfl
@[simp] theorem State.setSync_sec (n : Nat) (o : Sync) : (s.setSync n o).sec = s.sec := rfl
@[simp] theorem State.setSync_fc (n : Nat) (o : Sync) : (s.setSync n o).fc = s.fc := rfl
@[simp] theorem State.setSync_obs (n : Nat) (o : Sync) : (s.setSync n o).obs = s.obs := rfl

/-! ### setTrace -/

@[simp] theorem State.setTrace_pending (t : Trace) : (s.setTrace t).pending = s.pending := rfl
@[simp] theorem State.setTrace_sent (t : Trace) : (s.setTrace t).sent = s.sent := rfl
@[simp] theorem State.setTrace_freeCtr (t : Trace) : (s.setTrace t).freeCtr = s.freeCtr := rfl
@[simp] theorem State.setTrace_clk (t : Trace) : (s.setTrace t).clk = s.clk := rfl
@[simp] theorem State.setTrace_boot (t : Trace) : (s.setTrace t).boot = s.boot := rfl
@[simp] theorem State.setTrace_fuses (t : Trace) : (s.setTrace t).fuses = s.fuses := rfl
@[simp] theorem State.setTrace_pins (t : Trace) : (s.setTrace t).pins = s.pins := rfl
@[simp] theorem State.setTrace_win (t : Trace) : (s.setTrace t).win = s.win := rfl
@[simp] theorem State.setTrace_xings (t : Trace) : (s.setTrace t).xings = s.xings := rfl
@[simp] theorem State.setTrace_eports (t : Trace) : (s.setTrace t).eports = s.eports := rfl
@[simp] theorem State.setTrace_cpCrd (t : Trace) : (s.setTrace t).cpCrd = s.cpCrd := rfl
@[simp] theorem State.setTrace_cpRx (t : Trace) : (s.setTrace t).cpRx = s.cpRx := rfl
@[simp] theorem State.setTrace_cpq (t : Trace) : (s.setTrace t).cpq = s.cpq := rfl
@[simp] theorem State.setTrace_cpOut (t : Trace) : (s.setTrace t).cpOut = s.cpOut := rfl
@[simp] theorem State.setTrace_jobs (t : Trace) : (s.setTrace t).jobs = s.jobs := rfl
@[simp] theorem State.setTrace_nextId (t : Trace) : (s.setTrace t).nextId = s.nextId := rfl
@[simp] theorem State.setTrace_mgCrd (t : Trace) : (s.setTrace t).mgCrd = s.mgCrd := rfl
@[simp] theorem State.setTrace_mgCmd (t : Trace) : (s.setTrace t).mgCmd = s.mgCmd := rfl
@[simp] theorem State.setTrace_mgQ (t : Trace) : (s.setTrace t).mgQ = s.mgQ := rfl
@[simp] theorem State.setTrace_lanes (t : Trace) : (s.setTrace t).lanes = s.lanes := rfl
@[simp] theorem State.setTrace_links (t : Trace) : (s.setTrace t).links = s.links := rfl
@[simp] theorem State.setTrace_lines (t : Trace) : (s.setTrace t).lines = s.lines := rfl
@[simp] theorem State.setTrace_own (t : Trace) : (s.setTrace t).own = s.own := rfl
@[simp] theorem State.setTrace_admitQ (t : Trace) : (s.setTrace t).admitQ = s.admitQ := rfl
@[simp] theorem State.setTrace_tables (t : Trace) : (s.setTrace t).tables = s.tables := rfl
@[simp] theorem State.setTrace_plan (t : Trace) : (s.setTrace t).plan = s.plan := rfl
@[simp] theorem State.setTrace_commit (t : Trace) : (s.setTrace t).commit = s.commit := rfl
@[simp] theorem State.setTrace_parts (t : Trace) : (s.setTrace t).parts = s.parts := rfl
@[simp] theorem State.setTrace_flows (t : Trace) : (s.setTrace t).flows = s.flows := rfl
@[simp] theorem State.setTrace_flowsIn (t : Trace) : (s.setTrace t).flowsIn = s.flowsIn := rfl
@[simp] theorem State.setTrace_reqs (t : Trace) : (s.setTrace t).reqs = s.reqs := rfl
@[simp] theorem State.setTrace_caches (t : Trace) : (s.setTrace t).caches = s.caches := rfl
@[simp] theorem State.setTrace_onward (t : Trace) : (s.setTrace t).onward = s.onward := rfl
@[simp] theorem State.setTrace_ptr (t : Trace) : (s.setTrace t).ptr = s.ptr := rfl
@[simp] theorem State.setTrace_gates (t : Trace) : (s.setTrace t).gates = s.gates := rfl
@[simp] theorem State.setTrace_schedUs (t : Trace) : (s.setTrace t).schedUs = s.schedUs := rfl
@[simp] theorem State.setTrace_schStat (t : Trace) : (s.setTrace t).schStat = s.schStat := rfl
@[simp] theorem State.setTrace_queues (t : Trace) : (s.setTrace t).queues = s.queues := rfl
@[simp] theorem State.setTrace_stws (t : Trace) : (s.setTrace t).stws = s.stws := rfl
@[simp] theorem State.setTrace_syncs (t : Trace) : (s.setTrace t).syncs = s.syncs := rfl
@[simp] theorem State.setTrace_inn (t : Trace) : (s.setTrace t).inn = s.inn := rfl
@[simp] theorem State.setTrace_groups (t : Trace) : (s.setTrace t).groups = s.groups := rfl
@[simp] theorem State.setTrace_smv (t : Trace) : (s.setTrace t).smv = s.smv := rfl
@[simp] theorem State.setTrace_sipLinks (t : Trace) : (s.setTrace t).sipLinks = s.sipLinks := rfl
@[simp] theorem State.setTrace_fmtStat (t : Trace) : (s.setTrace t).fmtStat = s.fmtStat := rfl
@[simp] theorem State.setTrace_fmtFlags (t : Trace) : (s.setTrace t).fmtFlags = s.fmtFlags := rfl
@[simp] theorem State.setTrace_sec (t : Trace) : (s.setTrace t).sec = s.sec := rfl
@[simp] theorem State.setTrace_fc (t : Trace) : (s.setTrace t).fc = s.fc := rfl

/-! ### modPins -/

@[simp] theorem State.modPins_pending (f : Pins → Pins) : (s.modPins f).pending = s.pending := rfl
@[simp] theorem State.modPins_sent (f : Pins → Pins) : (s.modPins f).sent = s.sent := rfl
@[simp] theorem State.modPins_freeCtr (f : Pins → Pins) : (s.modPins f).freeCtr = s.freeCtr := rfl
@[simp] theorem State.modPins_clk (f : Pins → Pins) : (s.modPins f).clk = s.clk := rfl
@[simp] theorem State.modPins_boot (f : Pins → Pins) : (s.modPins f).boot = s.boot := rfl
@[simp] theorem State.modPins_fuses (f : Pins → Pins) : (s.modPins f).fuses = s.fuses := rfl
@[simp] theorem State.modPins_win (f : Pins → Pins) : (s.modPins f).win = s.win := rfl
@[simp] theorem State.modPins_xings (f : Pins → Pins) : (s.modPins f).xings = s.xings := rfl
@[simp] theorem State.modPins_eports (f : Pins → Pins) : (s.modPins f).eports = s.eports := rfl
@[simp] theorem State.modPins_cpCrd (f : Pins → Pins) : (s.modPins f).cpCrd = s.cpCrd := rfl
@[simp] theorem State.modPins_cpRx (f : Pins → Pins) : (s.modPins f).cpRx = s.cpRx := rfl
@[simp] theorem State.modPins_cpq (f : Pins → Pins) : (s.modPins f).cpq = s.cpq := rfl
@[simp] theorem State.modPins_cpOut (f : Pins → Pins) : (s.modPins f).cpOut = s.cpOut := rfl
@[simp] theorem State.modPins_jobs (f : Pins → Pins) : (s.modPins f).jobs = s.jobs := rfl
@[simp] theorem State.modPins_nextId (f : Pins → Pins) : (s.modPins f).nextId = s.nextId := rfl
@[simp] theorem State.modPins_mgCrd (f : Pins → Pins) : (s.modPins f).mgCrd = s.mgCrd := rfl
@[simp] theorem State.modPins_mgCmd (f : Pins → Pins) : (s.modPins f).mgCmd = s.mgCmd := rfl
@[simp] theorem State.modPins_mgQ (f : Pins → Pins) : (s.modPins f).mgQ = s.mgQ := rfl
@[simp] theorem State.modPins_lanes (f : Pins → Pins) : (s.modPins f).lanes = s.lanes := rfl
@[simp] theorem State.modPins_links (f : Pins → Pins) : (s.modPins f).links = s.links := rfl
@[simp] theorem State.modPins_lines (f : Pins → Pins) : (s.modPins f).lines = s.lines := rfl
@[simp] theorem State.modPins_own (f : Pins → Pins) : (s.modPins f).own = s.own := rfl
@[simp] theorem State.modPins_admitQ (f : Pins → Pins) : (s.modPins f).admitQ = s.admitQ := rfl
@[simp] theorem State.modPins_tables (f : Pins → Pins) : (s.modPins f).tables = s.tables := rfl
@[simp] theorem State.modPins_plan (f : Pins → Pins) : (s.modPins f).plan = s.plan := rfl
@[simp] theorem State.modPins_commit (f : Pins → Pins) : (s.modPins f).commit = s.commit := rfl
@[simp] theorem State.modPins_parts (f : Pins → Pins) : (s.modPins f).parts = s.parts := rfl
@[simp] theorem State.modPins_flows (f : Pins → Pins) : (s.modPins f).flows = s.flows := rfl
@[simp] theorem State.modPins_flowsIn (f : Pins → Pins) : (s.modPins f).flowsIn = s.flowsIn := rfl
@[simp] theorem State.modPins_reqs (f : Pins → Pins) : (s.modPins f).reqs = s.reqs := rfl
@[simp] theorem State.modPins_caches (f : Pins → Pins) : (s.modPins f).caches = s.caches := rfl
@[simp] theorem State.modPins_onward (f : Pins → Pins) : (s.modPins f).onward = s.onward := rfl
@[simp] theorem State.modPins_ptr (f : Pins → Pins) : (s.modPins f).ptr = s.ptr := rfl
@[simp] theorem State.modPins_gates (f : Pins → Pins) : (s.modPins f).gates = s.gates := rfl
@[simp] theorem State.modPins_schedUs (f : Pins → Pins) : (s.modPins f).schedUs = s.schedUs := rfl
@[simp] theorem State.modPins_schStat (f : Pins → Pins) : (s.modPins f).schStat = s.schStat := rfl
@[simp] theorem State.modPins_queues (f : Pins → Pins) : (s.modPins f).queues = s.queues := rfl
@[simp] theorem State.modPins_stws (f : Pins → Pins) : (s.modPins f).stws = s.stws := rfl
@[simp] theorem State.modPins_syncs (f : Pins → Pins) : (s.modPins f).syncs = s.syncs := rfl
@[simp] theorem State.modPins_inn (f : Pins → Pins) : (s.modPins f).inn = s.inn := rfl
@[simp] theorem State.modPins_groups (f : Pins → Pins) : (s.modPins f).groups = s.groups := rfl
@[simp] theorem State.modPins_smv (f : Pins → Pins) : (s.modPins f).smv = s.smv := rfl
@[simp] theorem State.modPins_sipLinks (f : Pins → Pins) : (s.modPins f).sipLinks = s.sipLinks := rfl
@[simp] theorem State.modPins_fmtStat (f : Pins → Pins) : (s.modPins f).fmtStat = s.fmtStat := rfl
@[simp] theorem State.modPins_fmtFlags (f : Pins → Pins) : (s.modPins f).fmtFlags = s.fmtFlags := rfl
@[simp] theorem State.modPins_sec (f : Pins → Pins) : (s.modPins f).sec = s.sec := rfl
@[simp] theorem State.modPins_fc (f : Pins → Pins) : (s.modPins f).fc = s.fc := rfl
@[simp] theorem State.modPins_obs (f : Pins → Pins) : (s.modPins f).obs = s.obs := rfl

/-! ### modObs -/

@[simp] theorem State.modObs_pending (f : Obs → Obs) : (s.modObs f).pending = s.pending := rfl
@[simp] theorem State.modObs_sent (f : Obs → Obs) : (s.modObs f).sent = s.sent := rfl
@[simp] theorem State.modObs_freeCtr (f : Obs → Obs) : (s.modObs f).freeCtr = s.freeCtr := rfl
@[simp] theorem State.modObs_clk (f : Obs → Obs) : (s.modObs f).clk = s.clk := rfl
@[simp] theorem State.modObs_boot (f : Obs → Obs) : (s.modObs f).boot = s.boot := rfl
@[simp] theorem State.modObs_fuses (f : Obs → Obs) : (s.modObs f).fuses = s.fuses := rfl
@[simp] theorem State.modObs_pins (f : Obs → Obs) : (s.modObs f).pins = s.pins := rfl
@[simp] theorem State.modObs_win (f : Obs → Obs) : (s.modObs f).win = s.win := rfl
@[simp] theorem State.modObs_xings (f : Obs → Obs) : (s.modObs f).xings = s.xings := rfl
@[simp] theorem State.modObs_eports (f : Obs → Obs) : (s.modObs f).eports = s.eports := rfl
@[simp] theorem State.modObs_cpCrd (f : Obs → Obs) : (s.modObs f).cpCrd = s.cpCrd := rfl
@[simp] theorem State.modObs_cpRx (f : Obs → Obs) : (s.modObs f).cpRx = s.cpRx := rfl
@[simp] theorem State.modObs_cpq (f : Obs → Obs) : (s.modObs f).cpq = s.cpq := rfl
@[simp] theorem State.modObs_cpOut (f : Obs → Obs) : (s.modObs f).cpOut = s.cpOut := rfl
@[simp] theorem State.modObs_jobs (f : Obs → Obs) : (s.modObs f).jobs = s.jobs := rfl
@[simp] theorem State.modObs_nextId (f : Obs → Obs) : (s.modObs f).nextId = s.nextId := rfl
@[simp] theorem State.modObs_mgCrd (f : Obs → Obs) : (s.modObs f).mgCrd = s.mgCrd := rfl
@[simp] theorem State.modObs_mgCmd (f : Obs → Obs) : (s.modObs f).mgCmd = s.mgCmd := rfl
@[simp] theorem State.modObs_mgQ (f : Obs → Obs) : (s.modObs f).mgQ = s.mgQ := rfl
@[simp] theorem State.modObs_lanes (f : Obs → Obs) : (s.modObs f).lanes = s.lanes := rfl
@[simp] theorem State.modObs_links (f : Obs → Obs) : (s.modObs f).links = s.links := rfl
@[simp] theorem State.modObs_lines (f : Obs → Obs) : (s.modObs f).lines = s.lines := rfl
@[simp] theorem State.modObs_own (f : Obs → Obs) : (s.modObs f).own = s.own := rfl
@[simp] theorem State.modObs_admitQ (f : Obs → Obs) : (s.modObs f).admitQ = s.admitQ := rfl
@[simp] theorem State.modObs_tables (f : Obs → Obs) : (s.modObs f).tables = s.tables := rfl
@[simp] theorem State.modObs_plan (f : Obs → Obs) : (s.modObs f).plan = s.plan := rfl
@[simp] theorem State.modObs_commit (f : Obs → Obs) : (s.modObs f).commit = s.commit := rfl
@[simp] theorem State.modObs_parts (f : Obs → Obs) : (s.modObs f).parts = s.parts := rfl
@[simp] theorem State.modObs_flows (f : Obs → Obs) : (s.modObs f).flows = s.flows := rfl
@[simp] theorem State.modObs_flowsIn (f : Obs → Obs) : (s.modObs f).flowsIn = s.flowsIn := rfl
@[simp] theorem State.modObs_reqs (f : Obs → Obs) : (s.modObs f).reqs = s.reqs := rfl
@[simp] theorem State.modObs_caches (f : Obs → Obs) : (s.modObs f).caches = s.caches := rfl
@[simp] theorem State.modObs_onward (f : Obs → Obs) : (s.modObs f).onward = s.onward := rfl
@[simp] theorem State.modObs_ptr (f : Obs → Obs) : (s.modObs f).ptr = s.ptr := rfl
@[simp] theorem State.modObs_gates (f : Obs → Obs) : (s.modObs f).gates = s.gates := rfl
@[simp] theorem State.modObs_schedUs (f : Obs → Obs) : (s.modObs f).schedUs = s.schedUs := rfl
@[simp] theorem State.modObs_schStat (f : Obs → Obs) : (s.modObs f).schStat = s.schStat := rfl
@[simp] theorem State.modObs_queues (f : Obs → Obs) : (s.modObs f).queues = s.queues := rfl
@[simp] theorem State.modObs_stws (f : Obs → Obs) : (s.modObs f).stws = s.stws := rfl
@[simp] theorem State.modObs_syncs (f : Obs → Obs) : (s.modObs f).syncs = s.syncs := rfl
@[simp] theorem State.modObs_inn (f : Obs → Obs) : (s.modObs f).inn = s.inn := rfl
@[simp] theorem State.modObs_groups (f : Obs → Obs) : (s.modObs f).groups = s.groups := rfl
@[simp] theorem State.modObs_smv (f : Obs → Obs) : (s.modObs f).smv = s.smv := rfl
@[simp] theorem State.modObs_sipLinks (f : Obs → Obs) : (s.modObs f).sipLinks = s.sipLinks := rfl
@[simp] theorem State.modObs_fmtStat (f : Obs → Obs) : (s.modObs f).fmtStat = s.fmtStat := rfl
@[simp] theorem State.modObs_fmtFlags (f : Obs → Obs) : (s.modObs f).fmtFlags = s.fmtFlags := rfl
@[simp] theorem State.modObs_sec (f : Obs → Obs) : (s.modObs f).sec = s.sec := rfl
@[simp] theorem State.modObs_fc (f : Obs → Obs) : (s.modObs f).fc = s.fc := rfl

/-! ### modCommit -/

@[simp] theorem State.modCommit_pending (f : Commit → Commit) : (s.modCommit f).pending = s.pending := rfl
@[simp] theorem State.modCommit_sent (f : Commit → Commit) : (s.modCommit f).sent = s.sent := rfl
@[simp] theorem State.modCommit_freeCtr (f : Commit → Commit) : (s.modCommit f).freeCtr = s.freeCtr := rfl
@[simp] theorem State.modCommit_clk (f : Commit → Commit) : (s.modCommit f).clk = s.clk := rfl
@[simp] theorem State.modCommit_boot (f : Commit → Commit) : (s.modCommit f).boot = s.boot := rfl
@[simp] theorem State.modCommit_fuses (f : Commit → Commit) : (s.modCommit f).fuses = s.fuses := rfl
@[simp] theorem State.modCommit_pins (f : Commit → Commit) : (s.modCommit f).pins = s.pins := rfl
@[simp] theorem State.modCommit_win (f : Commit → Commit) : (s.modCommit f).win = s.win := rfl
@[simp] theorem State.modCommit_xings (f : Commit → Commit) : (s.modCommit f).xings = s.xings := rfl
@[simp] theorem State.modCommit_eports (f : Commit → Commit) : (s.modCommit f).eports = s.eports := rfl
@[simp] theorem State.modCommit_cpCrd (f : Commit → Commit) : (s.modCommit f).cpCrd = s.cpCrd := rfl
@[simp] theorem State.modCommit_cpRx (f : Commit → Commit) : (s.modCommit f).cpRx = s.cpRx := rfl
@[simp] theorem State.modCommit_cpq (f : Commit → Commit) : (s.modCommit f).cpq = s.cpq := rfl
@[simp] theorem State.modCommit_cpOut (f : Commit → Commit) : (s.modCommit f).cpOut = s.cpOut := rfl
@[simp] theorem State.modCommit_jobs (f : Commit → Commit) : (s.modCommit f).jobs = s.jobs := rfl
@[simp] theorem State.modCommit_nextId (f : Commit → Commit) : (s.modCommit f).nextId = s.nextId := rfl
@[simp] theorem State.modCommit_mgCrd (f : Commit → Commit) : (s.modCommit f).mgCrd = s.mgCrd := rfl
@[simp] theorem State.modCommit_mgCmd (f : Commit → Commit) : (s.modCommit f).mgCmd = s.mgCmd := rfl
@[simp] theorem State.modCommit_mgQ (f : Commit → Commit) : (s.modCommit f).mgQ = s.mgQ := rfl
@[simp] theorem State.modCommit_lanes (f : Commit → Commit) : (s.modCommit f).lanes = s.lanes := rfl
@[simp] theorem State.modCommit_links (f : Commit → Commit) : (s.modCommit f).links = s.links := rfl
@[simp] theorem State.modCommit_lines (f : Commit → Commit) : (s.modCommit f).lines = s.lines := rfl
@[simp] theorem State.modCommit_own (f : Commit → Commit) : (s.modCommit f).own = s.own := rfl
@[simp] theorem State.modCommit_admitQ (f : Commit → Commit) : (s.modCommit f).admitQ = s.admitQ := rfl
@[simp] theorem State.modCommit_tables (f : Commit → Commit) : (s.modCommit f).tables = s.tables := rfl
@[simp] theorem State.modCommit_plan (f : Commit → Commit) : (s.modCommit f).plan = s.plan := rfl
@[simp] theorem State.modCommit_parts (f : Commit → Commit) : (s.modCommit f).parts = s.parts := rfl
@[simp] theorem State.modCommit_flows (f : Commit → Commit) : (s.modCommit f).flows = s.flows := rfl
@[simp] theorem State.modCommit_flowsIn (f : Commit → Commit) : (s.modCommit f).flowsIn = s.flowsIn := rfl
@[simp] theorem State.modCommit_reqs (f : Commit → Commit) : (s.modCommit f).reqs = s.reqs := rfl
@[simp] theorem State.modCommit_caches (f : Commit → Commit) : (s.modCommit f).caches = s.caches := rfl
@[simp] theorem State.modCommit_onward (f : Commit → Commit) : (s.modCommit f).onward = s.onward := rfl
@[simp] theorem State.modCommit_ptr (f : Commit → Commit) : (s.modCommit f).ptr = s.ptr := rfl
@[simp] theorem State.modCommit_gates (f : Commit → Commit) : (s.modCommit f).gates = s.gates := rfl
@[simp] theorem State.modCommit_schedUs (f : Commit → Commit) : (s.modCommit f).schedUs = s.schedUs := rfl
@[simp] theorem State.modCommit_schStat (f : Commit → Commit) : (s.modCommit f).schStat = s.schStat := rfl
@[simp] theorem State.modCommit_queues (f : Commit → Commit) : (s.modCommit f).queues = s.queues := rfl
@[simp] theorem State.modCommit_stws (f : Commit → Commit) : (s.modCommit f).stws = s.stws := rfl
@[simp] theorem State.modCommit_syncs (f : Commit → Commit) : (s.modCommit f).syncs = s.syncs := rfl
@[simp] theorem State.modCommit_inn (f : Commit → Commit) : (s.modCommit f).inn = s.inn := rfl
@[simp] theorem State.modCommit_groups (f : Commit → Commit) : (s.modCommit f).groups = s.groups := rfl
@[simp] theorem State.modCommit_smv (f : Commit → Commit) : (s.modCommit f).smv = s.smv := rfl
@[simp] theorem State.modCommit_sipLinks (f : Commit → Commit) : (s.modCommit f).sipLinks = s.sipLinks := rfl
@[simp] theorem State.modCommit_fmtStat (f : Commit → Commit) : (s.modCommit f).fmtStat = s.fmtStat := rfl
@[simp] theorem State.modCommit_fmtFlags (f : Commit → Commit) : (s.modCommit f).fmtFlags = s.fmtFlags := rfl
@[simp] theorem State.modCommit_sec (f : Commit → Commit) : (s.modCommit f).sec = s.sec := rfl
@[simp] theorem State.modCommit_fc (f : Commit → Commit) : (s.modCommit f).fc = s.fc := rfl
@[simp] theorem State.modCommit_obs (f : Commit → Commit) : (s.modCommit f).obs = s.obs := rfl

/-! ### modCrd -/

@[simp] theorem State.modCrd_pending (p : CPort) (i : Nat) (f : Nat → Nat) : (s.modCrd p i f).pending = s.pending := rfl
@[simp] theorem State.modCrd_sent (p : CPort) (i : Nat) (f : Nat → Nat) : (s.modCrd p i f).sent = s.sent := rfl
@[simp] theorem State.modCrd_freeCtr (p : CPort) (i : Nat) (f : Nat → Nat) : (s.modCrd p i f).freeCtr = s.freeCtr := rfl
@[simp] theorem State.modCrd_clk (p : CPort) (i : Nat) (f : Nat → Nat) : (s.modCrd p i f).clk = s.clk := rfl
@[simp] theorem State.modCrd_boot (p : CPort) (i : Nat) (f : Nat → Nat) : (s.modCrd p i f).boot = s.boot := rfl
@[simp] theorem State.modCrd_fuses (p : CPort) (i : Nat) (f : Nat → Nat) : (s.modCrd p i f).fuses = s.fuses := rfl
@[simp] theorem State.modCrd_pins (p : CPort) (i : Nat) (f : Nat → Nat) : (s.modCrd p i f).pins = s.pins := rfl
@[simp] theorem State.modCrd_win (p : CPort) (i : Nat) (f : Nat → Nat) : (s.modCrd p i f).win = s.win := rfl
@[simp] theorem State.modCrd_xings (p : CPort) (i : Nat) (f : Nat → Nat) : (s.modCrd p i f).xings = s.xings := rfl
@[simp] theorem State.modCrd_eports (p : CPort) (i : Nat) (f : Nat → Nat) : (s.modCrd p i f).eports = s.eports := rfl
@[simp] theorem State.modCrd_cpq (p : CPort) (i : Nat) (f : Nat → Nat) : (s.modCrd p i f).cpq = s.cpq := rfl
@[simp] theorem State.modCrd_cpOut (p : CPort) (i : Nat) (f : Nat → Nat) : (s.modCrd p i f).cpOut = s.cpOut := rfl
@[simp] theorem State.modCrd_jobs (p : CPort) (i : Nat) (f : Nat → Nat) : (s.modCrd p i f).jobs = s.jobs := rfl
@[simp] theorem State.modCrd_nextId (p : CPort) (i : Nat) (f : Nat → Nat) : (s.modCrd p i f).nextId = s.nextId := rfl
@[simp] theorem State.modCrd_mgCrd (p : CPort) (i : Nat) (f : Nat → Nat) : (s.modCrd p i f).mgCrd = s.mgCrd := rfl
@[simp] theorem State.modCrd_mgCmd (p : CPort) (i : Nat) (f : Nat → Nat) : (s.modCrd p i f).mgCmd = s.mgCmd := rfl
@[simp] theorem State.modCrd_mgQ (p : CPort) (i : Nat) (f : Nat → Nat) : (s.modCrd p i f).mgQ = s.mgQ := rfl
@[simp] theorem State.modCrd_lanes (p : CPort) (i : Nat) (f : Nat → Nat) : (s.modCrd p i f).lanes = s.lanes := rfl
@[simp] theorem State.modCrd_links (p : CPort) (i : Nat) (f : Nat → Nat) : (s.modCrd p i f).links = s.links := rfl
@[simp] theorem State.modCrd_lines (p : CPort) (i : Nat) (f : Nat → Nat) : (s.modCrd p i f).lines = s.lines := rfl
@[simp] theorem State.modCrd_own (p : CPort) (i : Nat) (f : Nat → Nat) : (s.modCrd p i f).own = s.own := rfl
@[simp] theorem State.modCrd_admitQ (p : CPort) (i : Nat) (f : Nat → Nat) : (s.modCrd p i f).admitQ = s.admitQ := rfl
@[simp] theorem State.modCrd_tables (p : CPort) (i : Nat) (f : Nat → Nat) : (s.modCrd p i f).tables = s.tables := rfl
@[simp] theorem State.modCrd_plan (p : CPort) (i : Nat) (f : Nat → Nat) : (s.modCrd p i f).plan = s.plan := rfl
@[simp] theorem State.modCrd_commit (p : CPort) (i : Nat) (f : Nat → Nat) : (s.modCrd p i f).commit = s.commit := rfl
@[simp] theorem State.modCrd_parts (p : CPort) (i : Nat) (f : Nat → Nat) : (s.modCrd p i f).parts = s.parts := rfl
@[simp] theorem State.modCrd_flows (p : CPort) (i : Nat) (f : Nat → Nat) : (s.modCrd p i f).flows = s.flows := rfl
@[simp] theorem State.modCrd_flowsIn (p : CPort) (i : Nat) (f : Nat → Nat) : (s.modCrd p i f).flowsIn = s.flowsIn := rfl
@[simp] theorem State.modCrd_reqs (p : CPort) (i : Nat) (f : Nat → Nat) : (s.modCrd p i f).reqs = s.reqs := rfl
@[simp] theorem State.modCrd_caches (p : CPort) (i : Nat) (f : Nat → Nat) : (s.modCrd p i f).caches = s.caches := rfl
@[simp] theorem State.modCrd_onward (p : CPort) (i : Nat) (f : Nat → Nat) : (s.modCrd p i f).onward = s.onward := rfl
@[simp] theorem State.modCrd_ptr (p : CPort) (i : Nat) (f : Nat → Nat) : (s.modCrd p i f).ptr = s.ptr := rfl
@[simp] theorem State.modCrd_gates (p : CPort) (i : Nat) (f : Nat → Nat) : (s.modCrd p i f).gates = s.gates := rfl
@[simp] theorem State.modCrd_schedUs (p : CPort) (i : Nat) (f : Nat → Nat) : (s.modCrd p i f).schedUs = s.schedUs := rfl
@[simp] theorem State.modCrd_schStat (p : CPort) (i : Nat) (f : Nat → Nat) : (s.modCrd p i f).schStat = s.schStat := rfl
@[simp] theorem State.modCrd_queues (p : CPort) (i : Nat) (f : Nat → Nat) : (s.modCrd p i f).queues = s.queues := rfl
@[simp] theorem State.modCrd_stws (p : CPort) (i : Nat) (f : Nat → Nat) : (s.modCrd p i f).stws = s.stws := rfl
@[simp] theorem State.modCrd_syncs (p : CPort) (i : Nat) (f : Nat → Nat) : (s.modCrd p i f).syncs = s.syncs := rfl
@[simp] theorem State.modCrd_inn (p : CPort) (i : Nat) (f : Nat → Nat) : (s.modCrd p i f).inn = s.inn := rfl
@[simp] theorem State.modCrd_groups (p : CPort) (i : Nat) (f : Nat → Nat) : (s.modCrd p i f).groups = s.groups := rfl
@[simp] theorem State.modCrd_smv (p : CPort) (i : Nat) (f : Nat → Nat) : (s.modCrd p i f).smv = s.smv := rfl
@[simp] theorem State.modCrd_sipLinks (p : CPort) (i : Nat) (f : Nat → Nat) : (s.modCrd p i f).sipLinks = s.sipLinks := rfl
@[simp] theorem State.modCrd_fmtStat (p : CPort) (i : Nat) (f : Nat → Nat) : (s.modCrd p i f).fmtStat = s.fmtStat := rfl
@[simp] theorem State.modCrd_fmtFlags (p : CPort) (i : Nat) (f : Nat → Nat) : (s.modCrd p i f).fmtFlags = s.fmtFlags := rfl
@[simp] theorem State.modCrd_sec (p : CPort) (i : Nat) (f : Nat → Nat) : (s.modCrd p i f).sec = s.sec := rfl
@[simp] theorem State.modCrd_fc (p : CPort) (i : Nat) (f : Nat → Nat) : (s.modCrd p i f).fc = s.fc := rfl
@[simp] theorem State.modCrd_obs (p : CPort) (i : Nat) (f : Nat → Nat) : (s.modCrd p i f).obs = s.obs := rfl

/-! ### addReq -/

@[simp] theorem State.addReq_pending (r : Req) : (s.addReq r).pending = s.pending := rfl
@[simp] theorem State.addReq_sent (r : Req) : (s.addReq r).sent = s.sent := rfl
@[simp] theorem State.addReq_freeCtr (r : Req) : (s.addReq r).freeCtr = s.freeCtr := rfl
@[simp] theorem State.addReq_clk (r : Req) : (s.addReq r).clk = s.clk := rfl
@[simp] theorem State.addReq_boot (r : Req) : (s.addReq r).boot = s.boot := rfl
@[simp] theorem State.addReq_fuses (r : Req) : (s.addReq r).fuses = s.fuses := rfl
@[simp] theorem State.addReq_pins (r : Req) : (s.addReq r).pins = s.pins := rfl
@[simp] theorem State.addReq_win (r : Req) : (s.addReq r).win = s.win := rfl
@[simp] theorem State.addReq_xings (r : Req) : (s.addReq r).xings = s.xings := rfl
@[simp] theorem State.addReq_eports (r : Req) : (s.addReq r).eports = s.eports := rfl
@[simp] theorem State.addReq_cpCrd (r : Req) : (s.addReq r).cpCrd = s.cpCrd := rfl
@[simp] theorem State.addReq_cpRx (r : Req) : (s.addReq r).cpRx = s.cpRx := rfl
@[simp] theorem State.addReq_cpq (r : Req) : (s.addReq r).cpq = s.cpq := rfl
@[simp] theorem State.addReq_cpOut (r : Req) : (s.addReq r).cpOut = s.cpOut := rfl
@[simp] theorem State.addReq_jobs (r : Req) : (s.addReq r).jobs = s.jobs := rfl
@[simp] theorem State.addReq_mgCrd (r : Req) : (s.addReq r).mgCrd = s.mgCrd := rfl
@[simp] theorem State.addReq_mgCmd (r : Req) : (s.addReq r).mgCmd = s.mgCmd := rfl
@[simp] theorem State.addReq_mgQ (r : Req) : (s.addReq r).mgQ = s.mgQ := rfl
@[simp] theorem State.addReq_lanes (r : Req) : (s.addReq r).lanes = s.lanes := rfl
@[simp] theorem State.addReq_links (r : Req) : (s.addReq r).links = s.links := rfl
@[simp] theorem State.addReq_lines (r : Req) : (s.addReq r).lines = s.lines := rfl
@[simp] theorem State.addReq_own (r : Req) : (s.addReq r).own = s.own := rfl
@[simp] theorem State.addReq_admitQ (r : Req) : (s.addReq r).admitQ = s.admitQ := rfl
@[simp] theorem State.addReq_tables (r : Req) : (s.addReq r).tables = s.tables := rfl
@[simp] theorem State.addReq_plan (r : Req) : (s.addReq r).plan = s.plan := rfl
@[simp] theorem State.addReq_commit (r : Req) : (s.addReq r).commit = s.commit := rfl
@[simp] theorem State.addReq_parts (r : Req) : (s.addReq r).parts = s.parts := rfl
@[simp] theorem State.addReq_flows (r : Req) : (s.addReq r).flows = s.flows := rfl
@[simp] theorem State.addReq_flowsIn (r : Req) : (s.addReq r).flowsIn = s.flowsIn := rfl
@[simp] theorem State.addReq_caches (r : Req) : (s.addReq r).caches = s.caches := rfl
@[simp] theorem State.addReq_onward (r : Req) : (s.addReq r).onward = s.onward := rfl
@[simp] theorem State.addReq_ptr (r : Req) : (s.addReq r).ptr = s.ptr := rfl
@[simp] theorem State.addReq_gates (r : Req) : (s.addReq r).gates = s.gates := rfl
@[simp] theorem State.addReq_schedUs (r : Req) : (s.addReq r).schedUs = s.schedUs := rfl
@[simp] theorem State.addReq_schStat (r : Req) : (s.addReq r).schStat = s.schStat := rfl
@[simp] theorem State.addReq_queues (r : Req) : (s.addReq r).queues = s.queues := rfl
@[simp] theorem State.addReq_stws (r : Req) : (s.addReq r).stws = s.stws := rfl
@[simp] theorem State.addReq_syncs (r : Req) : (s.addReq r).syncs = s.syncs := rfl
@[simp] theorem State.addReq_inn (r : Req) : (s.addReq r).inn = s.inn := rfl
@[simp] theorem State.addReq_groups (r : Req) : (s.addReq r).groups = s.groups := rfl
@[simp] theorem State.addReq_smv (r : Req) : (s.addReq r).smv = s.smv := rfl
@[simp] theorem State.addReq_sipLinks (r : Req) : (s.addReq r).sipLinks = s.sipLinks := rfl
@[simp] theorem State.addReq_fmtStat (r : Req) : (s.addReq r).fmtStat = s.fmtStat := rfl
@[simp] theorem State.addReq_fmtFlags (r : Req) : (s.addReq r).fmtFlags = s.fmtFlags := rfl
@[simp] theorem State.addReq_sec (r : Req) : (s.addReq r).sec = s.sec := rfl
@[simp] theorem State.addReq_fc (r : Req) : (s.addReq r).fc = s.fc := rfl
@[simp] theorem State.addReq_obs (r : Req) : (s.addReq r).obs = s.obs := rfl

/-! ### emit -/

@[simp] theorem State.emit_pending (e : Emit) : (s.emit e).pending = s.pending := rfl
@[simp] theorem State.emit_freeCtr (e : Emit) : (s.emit e).freeCtr = s.freeCtr := rfl
@[simp] theorem State.emit_clk (e : Emit) : (s.emit e).clk = s.clk := rfl
@[simp] theorem State.emit_boot (e : Emit) : (s.emit e).boot = s.boot := rfl
@[simp] theorem State.emit_fuses (e : Emit) : (s.emit e).fuses = s.fuses := rfl
@[simp] theorem State.emit_pins (e : Emit) : (s.emit e).pins = s.pins := rfl
@[simp] theorem State.emit_win (e : Emit) : (s.emit e).win = s.win := rfl
@[simp] theorem State.emit_xings (e : Emit) : (s.emit e).xings = s.xings := rfl
@[simp] theorem State.emit_eports (e : Emit) : (s.emit e).eports = s.eports := rfl
@[simp] theorem State.emit_cpCrd (e : Emit) : (s.emit e).cpCrd = s.cpCrd := rfl
@[simp] theorem State.emit_cpRx (e : Emit) : (s.emit e).cpRx = s.cpRx := rfl
@[simp] theorem State.emit_cpq (e : Emit) : (s.emit e).cpq = s.cpq := rfl
@[simp] theorem State.emit_cpOut (e : Emit) : (s.emit e).cpOut = s.cpOut := rfl
@[simp] theorem State.emit_jobs (e : Emit) : (s.emit e).jobs = s.jobs := rfl
@[simp] theorem State.emit_nextId (e : Emit) : (s.emit e).nextId = s.nextId := rfl
@[simp] theorem State.emit_mgCrd (e : Emit) : (s.emit e).mgCrd = s.mgCrd := rfl
@[simp] theorem State.emit_mgCmd (e : Emit) : (s.emit e).mgCmd = s.mgCmd := rfl
@[simp] theorem State.emit_mgQ (e : Emit) : (s.emit e).mgQ = s.mgQ := rfl
@[simp] theorem State.emit_lanes (e : Emit) : (s.emit e).lanes = s.lanes := rfl
@[simp] theorem State.emit_links (e : Emit) : (s.emit e).links = s.links := rfl
@[simp] theorem State.emit_lines (e : Emit) : (s.emit e).lines = lineSend s.links s.lanes s.lines e := rfl
@[simp] theorem State.emit_own (e : Emit) : (s.emit e).own = s.own := rfl
@[simp] theorem State.emit_admitQ (e : Emit) : (s.emit e).admitQ = s.admitQ := rfl
@[simp] theorem State.emit_tables (e : Emit) : (s.emit e).tables = s.tables := rfl
@[simp] theorem State.emit_plan (e : Emit) : (s.emit e).plan = s.plan := rfl
@[simp] theorem State.emit_commit (e : Emit) : (s.emit e).commit = s.commit := rfl
@[simp] theorem State.emit_parts (e : Emit) : (s.emit e).parts = s.parts := rfl
@[simp] theorem State.emit_flows (e : Emit) : (s.emit e).flows = s.flows := rfl
@[simp] theorem State.emit_flowsIn (e : Emit) : (s.emit e).flowsIn = s.flowsIn := rfl
@[simp] theorem State.emit_reqs (e : Emit) : (s.emit e).reqs = s.reqs := rfl
@[simp] theorem State.emit_caches (e : Emit) : (s.emit e).caches = s.caches := rfl
@[simp] theorem State.emit_onward (e : Emit) : (s.emit e).onward = s.onward := rfl
@[simp] theorem State.emit_ptr (e : Emit) : (s.emit e).ptr = s.ptr := rfl
@[simp] theorem State.emit_gates (e : Emit) : (s.emit e).gates = s.gates := rfl
@[simp] theorem State.emit_schedUs (e : Emit) : (s.emit e).schedUs = s.schedUs := rfl
@[simp] theorem State.emit_schStat (e : Emit) : (s.emit e).schStat = s.schStat := rfl
@[simp] theorem State.emit_queues (e : Emit) : (s.emit e).queues = s.queues := rfl
@[simp] theorem State.emit_stws (e : Emit) : (s.emit e).stws = s.stws := rfl
@[simp] theorem State.emit_syncs (e : Emit) : (s.emit e).syncs = s.syncs := rfl
@[simp] theorem State.emit_inn (e : Emit) : (s.emit e).inn = s.inn := rfl
@[simp] theorem State.emit_groups (e : Emit) : (s.emit e).groups = s.groups := rfl
@[simp] theorem State.emit_smv (e : Emit) : (s.emit e).smv = s.smv := rfl
@[simp] theorem State.emit_sipLinks (e : Emit) : (s.emit e).sipLinks = s.sipLinks := rfl
@[simp] theorem State.emit_fmtStat (e : Emit) : (s.emit e).fmtStat = s.fmtStat := rfl
@[simp] theorem State.emit_fmtFlags (e : Emit) : (s.emit e).fmtFlags = s.fmtFlags := rfl
@[simp] theorem State.emit_sec (e : Emit) : (s.emit e).sec = s.sec := rfl
@[simp] theorem State.emit_fc (e : Emit) : (s.emit e).fc = s.fc := rfl
@[simp] theorem State.emit_obs (e : Emit) : (s.emit e).obs = s.obs := rfl

/-! ### emits -/

@[simp] theorem State.emits_pending (l : List Emit) : (s.emits l).pending = s.pending := rfl
@[simp] theorem State.emits_freeCtr (l : List Emit) : (s.emits l).freeCtr = s.freeCtr := rfl
@[simp] theorem State.emits_clk (l : List Emit) : (s.emits l).clk = s.clk := rfl
@[simp] theorem State.emits_boot (l : List Emit) : (s.emits l).boot = s.boot := rfl
@[simp] theorem State.emits_fuses (l : List Emit) : (s.emits l).fuses = s.fuses := rfl
@[simp] theorem State.emits_pins (l : List Emit) : (s.emits l).pins = s.pins := rfl
@[simp] theorem State.emits_win (l : List Emit) : (s.emits l).win = s.win := rfl
@[simp] theorem State.emits_xings (l : List Emit) : (s.emits l).xings = s.xings := rfl
@[simp] theorem State.emits_eports (l : List Emit) : (s.emits l).eports = s.eports := rfl
@[simp] theorem State.emits_cpCrd (l : List Emit) : (s.emits l).cpCrd = s.cpCrd := rfl
@[simp] theorem State.emits_cpRx (l : List Emit) : (s.emits l).cpRx = s.cpRx := rfl
@[simp] theorem State.emits_cpq (l : List Emit) : (s.emits l).cpq = s.cpq := rfl
@[simp] theorem State.emits_cpOut (l : List Emit) : (s.emits l).cpOut = s.cpOut := rfl
@[simp] theorem State.emits_jobs (l : List Emit) : (s.emits l).jobs = s.jobs := rfl
@[simp] theorem State.emits_nextId (l : List Emit) : (s.emits l).nextId = s.nextId := rfl
@[simp] theorem State.emits_mgCrd (l : List Emit) : (s.emits l).mgCrd = s.mgCrd := rfl
@[simp] theorem State.emits_mgCmd (l : List Emit) : (s.emits l).mgCmd = s.mgCmd := rfl
@[simp] theorem State.emits_mgQ (l : List Emit) : (s.emits l).mgQ = s.mgQ := rfl
@[simp] theorem State.emits_lanes (l : List Emit) : (s.emits l).lanes = s.lanes := rfl
@[simp] theorem State.emits_links (l : List Emit) : (s.emits l).links = s.links := rfl
@[simp] theorem State.emits_lines (l : List Emit) : (s.emits l).lines = l.foldl (lineSend s.links s.lanes) s.lines := rfl
@[simp] theorem State.emits_own (l : List Emit) : (s.emits l).own = s.own := rfl
@[simp] theorem State.emits_admitQ (l : List Emit) : (s.emits l).admitQ = s.admitQ := rfl
@[simp] theorem State.emits_tables (l : List Emit) : (s.emits l).tables = s.tables := rfl
@[simp] theorem State.emits_plan (l : List Emit) : (s.emits l).plan = s.plan := rfl
@[simp] theorem State.emits_commit (l : List Emit) : (s.emits l).commit = s.commit := rfl
@[simp] theorem State.emits_parts (l : List Emit) : (s.emits l).parts = s.parts := rfl
@[simp] theorem State.emits_flows (l : List Emit) : (s.emits l).flows = s.flows := rfl
@[simp] theorem State.emits_flowsIn (l : List Emit) : (s.emits l).flowsIn = s.flowsIn := rfl
@[simp] theorem State.emits_reqs (l : List Emit) : (s.emits l).reqs = s.reqs := rfl
@[simp] theorem State.emits_caches (l : List Emit) : (s.emits l).caches = s.caches := rfl
@[simp] theorem State.emits_onward (l : List Emit) : (s.emits l).onward = s.onward := rfl
@[simp] theorem State.emits_ptr (l : List Emit) : (s.emits l).ptr = s.ptr := rfl
@[simp] theorem State.emits_gates (l : List Emit) : (s.emits l).gates = s.gates := rfl
@[simp] theorem State.emits_schedUs (l : List Emit) : (s.emits l).schedUs = s.schedUs := rfl
@[simp] theorem State.emits_schStat (l : List Emit) : (s.emits l).schStat = s.schStat := rfl
@[simp] theorem State.emits_queues (l : List Emit) : (s.emits l).queues = s.queues := rfl
@[simp] theorem State.emits_stws (l : List Emit) : (s.emits l).stws = s.stws := rfl
@[simp] theorem State.emits_syncs (l : List Emit) : (s.emits l).syncs = s.syncs := rfl
@[simp] theorem State.emits_inn (l : List Emit) : (s.emits l).inn = s.inn := rfl
@[simp] theorem State.emits_groups (l : List Emit) : (s.emits l).groups = s.groups := rfl
@[simp] theorem State.emits_smv (l : List Emit) : (s.emits l).smv = s.smv := rfl
@[simp] theorem State.emits_sipLinks (l : List Emit) : (s.emits l).sipLinks = s.sipLinks := rfl
@[simp] theorem State.emits_fmtStat (l : List Emit) : (s.emits l).fmtStat = s.fmtStat := rfl
@[simp] theorem State.emits_fmtFlags (l : List Emit) : (s.emits l).fmtFlags = s.fmtFlags := rfl
@[simp] theorem State.emits_sec (l : List Emit) : (s.emits l).sec = s.sec := rfl
@[simp] theorem State.emits_fc (l : List Emit) : (s.emits l).fc = s.fc := rfl
@[simp] theorem State.emits_obs (l : List Emit) : (s.emits l).obs = s.obs := rfl

/-! ### fresh -/

@[simp] theorem State.fresh_pending : (s.fresh).pending = s.pending := rfl
@[simp] theorem State.fresh_sent : (s.fresh).sent = s.sent := rfl
@[simp] theorem State.fresh_freeCtr : (s.fresh).freeCtr = s.freeCtr := rfl
@[simp] theorem State.fresh_clk : (s.fresh).clk = s.clk := rfl
@[simp] theorem State.fresh_boot : (s.fresh).boot = s.boot := rfl
@[simp] theorem State.fresh_fuses : (s.fresh).fuses = s.fuses := rfl
@[simp] theorem State.fresh_pins : (s.fresh).pins = s.pins := rfl
@[simp] theorem State.fresh_win : (s.fresh).win = s.win := rfl
@[simp] theorem State.fresh_xings : (s.fresh).xings = s.xings := rfl
@[simp] theorem State.fresh_eports : (s.fresh).eports = s.eports := rfl
@[simp] theorem State.fresh_cpCrd : (s.fresh).cpCrd = s.cpCrd := rfl
@[simp] theorem State.fresh_cpRx : (s.fresh).cpRx = s.cpRx := rfl
@[simp] theorem State.fresh_cpq : (s.fresh).cpq = s.cpq := rfl
@[simp] theorem State.fresh_cpOut : (s.fresh).cpOut = s.cpOut := rfl
@[simp] theorem State.fresh_jobs : (s.fresh).jobs = s.jobs := rfl
@[simp] theorem State.fresh_mgCrd : (s.fresh).mgCrd = s.mgCrd := rfl
@[simp] theorem State.fresh_mgCmd : (s.fresh).mgCmd = s.mgCmd := rfl
@[simp] theorem State.fresh_mgQ : (s.fresh).mgQ = s.mgQ := rfl
@[simp] theorem State.fresh_lanes : (s.fresh).lanes = s.lanes := rfl
@[simp] theorem State.fresh_links : (s.fresh).links = s.links := rfl
@[simp] theorem State.fresh_lines : (s.fresh).lines = s.lines := rfl
@[simp] theorem State.fresh_own : (s.fresh).own = s.own := rfl
@[simp] theorem State.fresh_admitQ : (s.fresh).admitQ = s.admitQ := rfl
@[simp] theorem State.fresh_tables : (s.fresh).tables = s.tables := rfl
@[simp] theorem State.fresh_plan : (s.fresh).plan = s.plan := rfl
@[simp] theorem State.fresh_commit : (s.fresh).commit = s.commit := rfl
@[simp] theorem State.fresh_parts : (s.fresh).parts = s.parts := rfl
@[simp] theorem State.fresh_flows : (s.fresh).flows = s.flows := rfl
@[simp] theorem State.fresh_flowsIn : (s.fresh).flowsIn = s.flowsIn := rfl
@[simp] theorem State.fresh_reqs : (s.fresh).reqs = s.reqs := rfl
@[simp] theorem State.fresh_caches : (s.fresh).caches = s.caches := rfl
@[simp] theorem State.fresh_onward : (s.fresh).onward = s.onward := rfl
@[simp] theorem State.fresh_ptr : (s.fresh).ptr = s.ptr := rfl
@[simp] theorem State.fresh_gates : (s.fresh).gates = s.gates := rfl
@[simp] theorem State.fresh_schedUs : (s.fresh).schedUs = s.schedUs := rfl
@[simp] theorem State.fresh_schStat : (s.fresh).schStat = s.schStat := rfl
@[simp] theorem State.fresh_queues : (s.fresh).queues = s.queues := rfl
@[simp] theorem State.fresh_stws : (s.fresh).stws = s.stws := rfl
@[simp] theorem State.fresh_syncs : (s.fresh).syncs = s.syncs := rfl
@[simp] theorem State.fresh_inn : (s.fresh).inn = s.inn := rfl
@[simp] theorem State.fresh_groups : (s.fresh).groups = s.groups := rfl
@[simp] theorem State.fresh_smv : (s.fresh).smv = s.smv := rfl
@[simp] theorem State.fresh_sipLinks : (s.fresh).sipLinks = s.sipLinks := rfl
@[simp] theorem State.fresh_fmtStat : (s.fresh).fmtStat = s.fmtStat := rfl
@[simp] theorem State.fresh_fmtFlags : (s.fresh).fmtFlags = s.fmtFlags := rfl
@[simp] theorem State.fresh_sec : (s.fresh).sec = s.sec := rfl
@[simp] theorem State.fresh_fc : (s.fresh).fc = s.fc := rfl
@[simp] theorem State.fresh_obs : (s.fresh).obs = s.obs := rfl

/-! ### drew -/

@[simp] theorem State.drew_pending : (s.drew).pending = s.pending := rfl
@[simp] theorem State.drew_sent : (s.drew).sent = s.sent := rfl
@[simp] theorem State.drew_clk : (s.drew).clk = s.clk := rfl
@[simp] theorem State.drew_boot : (s.drew).boot = s.boot := rfl
@[simp] theorem State.drew_fuses : (s.drew).fuses = s.fuses := rfl
@[simp] theorem State.drew_pins : (s.drew).pins = s.pins := rfl
@[simp] theorem State.drew_win : (s.drew).win = s.win := rfl
@[simp] theorem State.drew_xings : (s.drew).xings = s.xings := rfl
@[simp] theorem State.drew_eports : (s.drew).eports = s.eports := rfl
@[simp] theorem State.drew_cpCrd : (s.drew).cpCrd = s.cpCrd := rfl
@[simp] theorem State.drew_cpRx : (s.drew).cpRx = s.cpRx := rfl
@[simp] theorem State.drew_cpq : (s.drew).cpq = s.cpq := rfl
@[simp] theorem State.drew_cpOut : (s.drew).cpOut = s.cpOut := rfl
@[simp] theorem State.drew_jobs : (s.drew).jobs = s.jobs := rfl
@[simp] theorem State.drew_nextId : (s.drew).nextId = s.nextId := rfl
@[simp] theorem State.drew_mgCrd : (s.drew).mgCrd = s.mgCrd := rfl
@[simp] theorem State.drew_mgCmd : (s.drew).mgCmd = s.mgCmd := rfl
@[simp] theorem State.drew_mgQ : (s.drew).mgQ = s.mgQ := rfl
@[simp] theorem State.drew_lanes : (s.drew).lanes = s.lanes := rfl
@[simp] theorem State.drew_links : (s.drew).links = s.links := rfl
@[simp] theorem State.drew_lines : (s.drew).lines = s.lines := rfl
@[simp] theorem State.drew_own : (s.drew).own = s.own := rfl
@[simp] theorem State.drew_admitQ : (s.drew).admitQ = s.admitQ := rfl
@[simp] theorem State.drew_tables : (s.drew).tables = s.tables := rfl
@[simp] theorem State.drew_plan : (s.drew).plan = s.plan := rfl
@[simp] theorem State.drew_commit : (s.drew).commit = s.commit := rfl
@[simp] theorem State.drew_parts : (s.drew).parts = s.parts := rfl
@[simp] theorem State.drew_flows : (s.drew).flows = s.flows := rfl
@[simp] theorem State.drew_flowsIn : (s.drew).flowsIn = s.flowsIn := rfl
@[simp] theorem State.drew_reqs : (s.drew).reqs = s.reqs := rfl
@[simp] theorem State.drew_caches : (s.drew).caches = s.caches := rfl
@[simp] theorem State.drew_onward : (s.drew).onward = s.onward := rfl
@[simp] theorem State.drew_ptr : (s.drew).ptr = s.ptr := rfl
@[simp] theorem State.drew_gates : (s.drew).gates = s.gates := rfl
@[simp] theorem State.drew_schedUs : (s.drew).schedUs = s.schedUs := rfl
@[simp] theorem State.drew_schStat : (s.drew).schStat = s.schStat := rfl
@[simp] theorem State.drew_queues : (s.drew).queues = s.queues := rfl
@[simp] theorem State.drew_stws : (s.drew).stws = s.stws := rfl
@[simp] theorem State.drew_syncs : (s.drew).syncs = s.syncs := rfl
@[simp] theorem State.drew_inn : (s.drew).inn = s.inn := rfl
@[simp] theorem State.drew_groups : (s.drew).groups = s.groups := rfl
@[simp] theorem State.drew_smv : (s.drew).smv = s.smv := rfl
@[simp] theorem State.drew_sipLinks : (s.drew).sipLinks = s.sipLinks := rfl
@[simp] theorem State.drew_fmtStat : (s.drew).fmtStat = s.fmtStat := rfl
@[simp] theorem State.drew_fmtFlags : (s.drew).fmtFlags = s.fmtFlags := rfl
@[simp] theorem State.drew_sec : (s.drew).sec = s.sec := rfl
@[simp] theorem State.drew_fc : (s.drew).fc = s.fc := rfl
@[simp] theorem State.drew_obs : (s.drew).obs = s.obs := rfl

/-! ### pass -/

@[simp] theorem State.pass_pending (d : Nat) : (s.pass d).pending = s.pending := rfl
@[simp] theorem State.pass_sent (d : Nat) : (s.pass d).sent = s.sent := rfl
@[simp] theorem State.pass_freeCtr (d : Nat) : (s.pass d).freeCtr = s.freeCtr := rfl
@[simp] theorem State.pass_boot (d : Nat) : (s.pass d).boot = s.boot := rfl
@[simp] theorem State.pass_fuses (d : Nat) : (s.pass d).fuses = s.fuses := rfl
@[simp] theorem State.pass_pins (d : Nat) : (s.pass d).pins = s.pins := rfl
@[simp] theorem State.pass_win (d : Nat) : (s.pass d).win = s.win := rfl
@[simp] theorem State.pass_xings (d : Nat) : (s.pass d).xings = s.xings := rfl
@[simp] theorem State.pass_eports (d : Nat) : (s.pass d).eports = s.eports := rfl
@[simp] theorem State.pass_cpCrd (d : Nat) : (s.pass d).cpCrd = s.cpCrd := rfl
@[simp] theorem State.pass_cpRx (d : Nat) : (s.pass d).cpRx = s.cpRx := rfl
@[simp] theorem State.pass_cpq (d : Nat) : (s.pass d).cpq = s.cpq := rfl
@[simp] theorem State.pass_cpOut (d : Nat) : (s.pass d).cpOut = s.cpOut := rfl
@[simp] theorem State.pass_jobs (d : Nat) : (s.pass d).jobs = s.jobs := rfl
@[simp] theorem State.pass_nextId (d : Nat) : (s.pass d).nextId = s.nextId := rfl
@[simp] theorem State.pass_mgCrd (d : Nat) : (s.pass d).mgCrd = s.mgCrd := rfl
@[simp] theorem State.pass_mgCmd (d : Nat) : (s.pass d).mgCmd = s.mgCmd := rfl
@[simp] theorem State.pass_mgQ (d : Nat) : (s.pass d).mgQ = s.mgQ := rfl
@[simp] theorem State.pass_lanes (d : Nat) : (s.pass d).lanes = s.lanes := rfl
@[simp] theorem State.pass_links (d : Nat) : (s.pass d).links = s.links := rfl
@[simp] theorem State.pass_lines (d : Nat) : (s.pass d).lines = s.lines := rfl
@[simp] theorem State.pass_own (d : Nat) : (s.pass d).own = s.own := rfl
@[simp] theorem State.pass_admitQ (d : Nat) : (s.pass d).admitQ = s.admitQ := rfl
@[simp] theorem State.pass_tables (d : Nat) : (s.pass d).tables = s.tables := rfl
@[simp] theorem State.pass_plan (d : Nat) : (s.pass d).plan = s.plan := rfl
@[simp] theorem State.pass_commit (d : Nat) : (s.pass d).commit = s.commit := rfl
@[simp] theorem State.pass_parts (d : Nat) : (s.pass d).parts = s.parts := rfl
@[simp] theorem State.pass_flows (d : Nat) : (s.pass d).flows = s.flows := rfl
@[simp] theorem State.pass_flowsIn (d : Nat) : (s.pass d).flowsIn = s.flowsIn := rfl
@[simp] theorem State.pass_reqs (d : Nat) : (s.pass d).reqs = s.reqs := rfl
@[simp] theorem State.pass_caches (d : Nat) : (s.pass d).caches = s.caches := rfl
@[simp] theorem State.pass_onward (d : Nat) : (s.pass d).onward = s.onward := rfl
@[simp] theorem State.pass_ptr (d : Nat) : (s.pass d).ptr = s.ptr := rfl
@[simp] theorem State.pass_gates (d : Nat) : (s.pass d).gates = s.gates := rfl
@[simp] theorem State.pass_schedUs (d : Nat) : (s.pass d).schedUs = s.schedUs := rfl
@[simp] theorem State.pass_schStat (d : Nat) : (s.pass d).schStat = s.schStat := rfl
@[simp] theorem State.pass_queues (d : Nat) : (s.pass d).queues = s.queues := rfl
@[simp] theorem State.pass_stws (d : Nat) : (s.pass d).stws = s.stws := rfl
@[simp] theorem State.pass_syncs (d : Nat) : (s.pass d).syncs = s.syncs := rfl
@[simp] theorem State.pass_inn (d : Nat) : (s.pass d).inn = s.inn := rfl
@[simp] theorem State.pass_groups (d : Nat) : (s.pass d).groups = s.groups := rfl
@[simp] theorem State.pass_smv (d : Nat) : (s.pass d).smv = s.smv := rfl
@[simp] theorem State.pass_sipLinks (d : Nat) : (s.pass d).sipLinks = s.sipLinks := rfl
@[simp] theorem State.pass_fmtStat (d : Nat) : (s.pass d).fmtStat = s.fmtStat := rfl
@[simp] theorem State.pass_fmtFlags (d : Nat) : (s.pass d).fmtFlags = s.fmtFlags := rfl
@[simp] theorem State.pass_sec (d : Nat) : (s.pass d).sec = s.sec := rfl
@[simp] theorem State.pass_fc (d : Nat) : (s.pass d).fc = s.fc := rfl
@[simp] theorem State.pass_obs (d : Nat) : (s.pass d).obs = s.obs := rfl

/-! ### rest -/

@[simp] theorem State.rest_sent (l : List Instr) : (s.rest l).sent = s.sent := rfl
@[simp] theorem State.rest_freeCtr (l : List Instr) : (s.rest l).freeCtr = s.freeCtr := rfl
@[simp] theorem State.rest_clk (l : List Instr) : (s.rest l).clk = s.clk := rfl
@[simp] theorem State.rest_boot (l : List Instr) : (s.rest l).boot = s.boot := rfl
@[simp] theorem State.rest_fuses (l : List Instr) : (s.rest l).fuses = s.fuses := rfl
@[simp] theorem State.rest_pins (l : List Instr) : (s.rest l).pins = s.pins := rfl
@[simp] theorem State.rest_win (l : List Instr) : (s.rest l).win = s.win := rfl
@[simp] theorem State.rest_xings (l : List Instr) : (s.rest l).xings = s.xings := rfl
@[simp] theorem State.rest_eports (l : List Instr) : (s.rest l).eports = s.eports := rfl
@[simp] theorem State.rest_cpCrd (l : List Instr) : (s.rest l).cpCrd = s.cpCrd := rfl
@[simp] theorem State.rest_cpRx (l : List Instr) : (s.rest l).cpRx = s.cpRx := rfl
@[simp] theorem State.rest_cpq (l : List Instr) : (s.rest l).cpq = s.cpq := rfl
@[simp] theorem State.rest_cpOut (l : List Instr) : (s.rest l).cpOut = s.cpOut := rfl
@[simp] theorem State.rest_jobs (l : List Instr) : (s.rest l).jobs = s.jobs := rfl
@[simp] theorem State.rest_nextId (l : List Instr) : (s.rest l).nextId = s.nextId := rfl
@[simp] theorem State.rest_mgCrd (l : List Instr) : (s.rest l).mgCrd = s.mgCrd := rfl
@[simp] theorem State.rest_mgCmd (l : List Instr) : (s.rest l).mgCmd = s.mgCmd := rfl
@[simp] theorem State.rest_mgQ (l : List Instr) : (s.rest l).mgQ = s.mgQ := rfl
@[simp] theorem State.rest_lanes (l : List Instr) : (s.rest l).lanes = s.lanes := rfl
@[simp] theorem State.rest_links (l : List Instr) : (s.rest l).links = s.links := rfl
@[simp] theorem State.rest_lines (l : List Instr) : (s.rest l).lines = s.lines := rfl
@[simp] theorem State.rest_own (l : List Instr) : (s.rest l).own = s.own := rfl
@[simp] theorem State.rest_admitQ (l : List Instr) : (s.rest l).admitQ = s.admitQ := rfl
@[simp] theorem State.rest_tables (l : List Instr) : (s.rest l).tables = s.tables := rfl
@[simp] theorem State.rest_plan (l : List Instr) : (s.rest l).plan = s.plan := rfl
@[simp] theorem State.rest_commit (l : List Instr) : (s.rest l).commit = s.commit := rfl
@[simp] theorem State.rest_parts (l : List Instr) : (s.rest l).parts = s.parts := rfl
@[simp] theorem State.rest_flows (l : List Instr) : (s.rest l).flows = s.flows := rfl
@[simp] theorem State.rest_flowsIn (l : List Instr) : (s.rest l).flowsIn = s.flowsIn := rfl
@[simp] theorem State.rest_reqs (l : List Instr) : (s.rest l).reqs = s.reqs := rfl
@[simp] theorem State.rest_caches (l : List Instr) : (s.rest l).caches = s.caches := rfl
@[simp] theorem State.rest_onward (l : List Instr) : (s.rest l).onward = s.onward := rfl
@[simp] theorem State.rest_ptr (l : List Instr) : (s.rest l).ptr = s.ptr := rfl
@[simp] theorem State.rest_gates (l : List Instr) : (s.rest l).gates = s.gates := rfl
@[simp] theorem State.rest_schedUs (l : List Instr) : (s.rest l).schedUs = s.schedUs := rfl
@[simp] theorem State.rest_schStat (l : List Instr) : (s.rest l).schStat = s.schStat := rfl
@[simp] theorem State.rest_queues (l : List Instr) : (s.rest l).queues = s.queues := rfl
@[simp] theorem State.rest_stws (l : List Instr) : (s.rest l).stws = s.stws := rfl
@[simp] theorem State.rest_syncs (l : List Instr) : (s.rest l).syncs = s.syncs := rfl
@[simp] theorem State.rest_inn (l : List Instr) : (s.rest l).inn = s.inn := rfl
@[simp] theorem State.rest_groups (l : List Instr) : (s.rest l).groups = s.groups := rfl
@[simp] theorem State.rest_smv (l : List Instr) : (s.rest l).smv = s.smv := rfl
@[simp] theorem State.rest_sipLinks (l : List Instr) : (s.rest l).sipLinks = s.sipLinks := rfl
@[simp] theorem State.rest_fmtStat (l : List Instr) : (s.rest l).fmtStat = s.fmtStat := rfl
@[simp] theorem State.rest_fmtFlags (l : List Instr) : (s.rest l).fmtFlags = s.fmtFlags := rfl
@[simp] theorem State.rest_sec (l : List Instr) : (s.rest l).sec = s.sec := rfl
@[simp] theorem State.rest_fc (l : List Instr) : (s.rest l).fc = s.fc := rfl
@[simp] theorem State.rest_obs (l : List Instr) : (s.rest l).obs = s.obs := rfl

/-! ### Reading back -/

@[simp] theorem State.link_setLink (n : Nat) (l : Link) : (s.setLink n l).link n = l := Tab.get_put_same _ _ _ _
theorem State.link_setLink_ne {n m : Nat} (l : Link) (h : m ≠ n) : (s.setLink n l).link m = s.link m := Tab.get_put_ne _ _ h
@[simp] theorem State.setLink_setLink (n : Nat) (l l' : Link) : (s.setLink n l).setLink n l' = s.setLink n l' := by
  simp [State.setLink]
@[simp] theorem State.link_setLane (n : Nat) (m : Nat) (l : Lane) : (s.setLane m l).link n = s.link n := rfl
@[simp] theorem State.link_setEPort (n : Nat) (m : Nat) (p : EPort) : (s.setEPort m p).link n = s.link n := rfl
@[simp] theorem State.link_setReg (n : Nat) (a : Nat) (v : Word) : (s.setReg a v).link n = s.link n := rfl
@[simp] theorem State.link_setQueue (n : Nat) (q : Nat) (d : Queue) : (s.setQueue q d).link n = s.link n := rfl
@[simp] theorem State.link_setStw (n : Nat) (m : Nat) (w : Stw) : (s.setStw m w).link n = s.link n := rfl
@[simp] theorem State.link_setSync (n : Nat) (m : Nat) (o : Sync) : (s.setSync m o).link n = s.link n := rfl
@[simp] theorem State.link_setTrace (n : Nat) (t : Trace) : (s.setTrace t).link n = s.link n := rfl
@[simp] theorem State.link_modPins (n : Nat) (f : Pins → Pins) : (s.modPins f).link n = s.link n := rfl
@[simp] theorem State.link_modObs (n : Nat) (f : Obs → Obs) : (s.modObs f).link n = s.link n := rfl
@[simp] theorem State.link_modCommit (n : Nat) (f : Commit → Commit) : (s.modCommit f).link n = s.link n := rfl
@[simp] theorem State.link_modCrd (n : Nat) (p : CPort) (i : Nat) (f : Nat → Nat) : (s.modCrd p i f).link n = s.link n := rfl
@[simp] theorem State.link_addReq (n : Nat) (r : Req) : (s.addReq r).link n = s.link n := rfl
@[simp] theorem State.link_emit (n : Nat) (e : Emit) : (s.emit e).link n = s.link n := rfl
@[simp] theorem State.link_emits (n : Nat) (l : List Emit) : (s.emits l).link n = s.link n := rfl
@[simp] theorem State.link_fresh (n : Nat) : (s.fresh).link n = s.link n := rfl
@[simp] theorem State.link_drew (n : Nat) : (s.drew).link n = s.link n := rfl
@[simp] theorem State.link_pass (n : Nat) (d : Nat) : (s.pass d).link n = s.link n := rfl
@[simp] theorem State.link_rest (n : Nat) (l : List Instr) : (s.rest l).link n = s.link n := rfl

@[simp] theorem State.lane_setLane (n : Nat) (l : Lane) : (s.setLane n l).lane n = l := Tab.get_put_same _ _ _ _
theorem State.lane_setLane_ne {n m : Nat} (l : Lane) (h : m ≠ n) : (s.setLane n l).lane m = s.lane m := Tab.get_put_ne _ _ h
@[simp] theorem State.setLane_setLane (n : Nat) (l l' : Lane) : (s.setLane n l).setLane n l' = s.setLane n l' := by
  simp [State.setLane]
@[simp] theorem State.lane_setLink (n : Nat) (m : Nat) (l : Link) : (s.setLink m l).lane n = s.lane n := rfl
@[simp] theorem State.lane_setEPort (n : Nat) (m : Nat) (p : EPort) : (s.setEPort m p).lane n = s.lane n := rfl
@[simp] theorem State.lane_setReg (n : Nat) (a : Nat) (v : Word) : (s.setReg a v).lane n = s.lane n := rfl
@[simp] theorem State.lane_setQueue (n : Nat) (q : Nat) (d : Queue) : (s.setQueue q d).lane n = s.lane n := rfl
@[simp] theorem State.lane_setStw (n : Nat) (m : Nat) (w : Stw) : (s.setStw m w).lane n = s.lane n := rfl
@[simp] theorem State.lane_setSync (n : Nat) (m : Nat) (o : Sync) : (s.setSync m o).lane n = s.lane n := rfl
@[simp] theorem State.lane_setTrace (n : Nat) (t : Trace) : (s.setTrace t).lane n = s.lane n := rfl
@[simp] theorem State.lane_modPins (n : Nat) (f : Pins → Pins) : (s.modPins f).lane n = s.lane n := rfl
@[simp] theorem State.lane_modObs (n : Nat) (f : Obs → Obs) : (s.modObs f).lane n = s.lane n := rfl
@[simp] theorem State.lane_modCommit (n : Nat) (f : Commit → Commit) : (s.modCommit f).lane n = s.lane n := rfl
@[simp] theorem State.lane_modCrd (n : Nat) (p : CPort) (i : Nat) (f : Nat → Nat) : (s.modCrd p i f).lane n = s.lane n := rfl
@[simp] theorem State.lane_addReq (n : Nat) (r : Req) : (s.addReq r).lane n = s.lane n := rfl
@[simp] theorem State.lane_emit (n : Nat) (e : Emit) : (s.emit e).lane n = s.lane n := rfl
@[simp] theorem State.lane_emits (n : Nat) (l : List Emit) : (s.emits l).lane n = s.lane n := rfl
@[simp] theorem State.lane_fresh (n : Nat) : (s.fresh).lane n = s.lane n := rfl
@[simp] theorem State.lane_drew (n : Nat) : (s.drew).lane n = s.lane n := rfl
@[simp] theorem State.lane_pass (n : Nat) (d : Nat) : (s.pass d).lane n = s.lane n := rfl
@[simp] theorem State.lane_rest (n : Nat) (l : List Instr) : (s.rest l).lane n = s.lane n := rfl

@[simp] theorem State.eport_setEPort (n : Nat) (p : EPort) : (s.setEPort n p).eport n = p := Tab.get_put_same _ _ _ _
theorem State.eport_setEPort_ne {n m : Nat} (p : EPort) (h : m ≠ n) : (s.setEPort n p).eport m = s.eport m := Tab.get_put_ne _ _ h
@[simp] theorem State.setEPort_setEPort (n : Nat) (p p' : EPort) : (s.setEPort n p).setEPort n p' = s.setEPort n p' := by
  simp [State.setEPort]
@[simp] theorem State.eport_setLink (n : Nat) (m : Nat) (l : Link) : (s.setLink m l).eport n = s.eport n := rfl
@[simp] theorem State.eport_setLane (n : Nat) (m : Nat) (l : Lane) : (s.setLane m l).eport n = s.eport n := rfl
@[simp] theorem State.eport_setReg (n : Nat) (a : Nat) (v : Word) : (s.setReg a v).eport n = s.eport n := rfl
@[simp] theorem State.eport_setQueue (n : Nat) (q : Nat) (d : Queue) : (s.setQueue q d).eport n = s.eport n := rfl
@[simp] theorem State.eport_setStw (n : Nat) (m : Nat) (w : Stw) : (s.setStw m w).eport n = s.eport n := rfl
@[simp] theorem State.eport_setSync (n : Nat) (m : Nat) (o : Sync) : (s.setSync m o).eport n = s.eport n := rfl
@[simp] theorem State.eport_setTrace (n : Nat) (t : Trace) : (s.setTrace t).eport n = s.eport n := rfl
@[simp] theorem State.eport_modPins (n : Nat) (f : Pins → Pins) : (s.modPins f).eport n = s.eport n := rfl
@[simp] theorem State.eport_modObs (n : Nat) (f : Obs → Obs) : (s.modObs f).eport n = s.eport n := rfl
@[simp] theorem State.eport_modCommit (n : Nat) (f : Commit → Commit) : (s.modCommit f).eport n = s.eport n := rfl
@[simp] theorem State.eport_modCrd (n : Nat) (p : CPort) (i : Nat) (f : Nat → Nat) : (s.modCrd p i f).eport n = s.eport n := rfl
@[simp] theorem State.eport_addReq (n : Nat) (r : Req) : (s.addReq r).eport n = s.eport n := rfl
@[simp] theorem State.eport_emit (n : Nat) (e : Emit) : (s.emit e).eport n = s.eport n := rfl
@[simp] theorem State.eport_emits (n : Nat) (l : List Emit) : (s.emits l).eport n = s.eport n := rfl
@[simp] theorem State.eport_fresh (n : Nat) : (s.fresh).eport n = s.eport n := rfl
@[simp] theorem State.eport_drew (n : Nat) : (s.drew).eport n = s.eport n := rfl
@[simp] theorem State.eport_pass (n : Nat) (d : Nat) : (s.pass d).eport n = s.eport n := rfl
@[simp] theorem State.eport_rest (n : Nat) (l : List Instr) : (s.rest l).eport n = s.eport n := rfl

@[simp] theorem State.queue_setQueue (n : Nat) (d : Queue) : (s.setQueue n d).queue n = d := Tab.get_put_same _ _ _ _
theorem State.queue_setQueue_ne {n m : Nat} (d : Queue) (h : m ≠ n) : (s.setQueue n d).queue m = s.queue m := Tab.get_put_ne _ _ h
@[simp] theorem State.setQueue_setQueue (n : Nat) (d d' : Queue) : (s.setQueue n d).setQueue n d' = s.setQueue n d' := by
  simp [State.setQueue]
@[simp] theorem State.queue_setLink (n : Nat) (m : Nat) (l : Link) : (s.setLink m l).queue n = s.queue n := rfl
@[simp] theorem State.queue_setLane (n : Nat) (m : Nat) (l : Lane) : (s.setLane m l).queue n = s.queue n := rfl
@[simp] theorem State.queue_setEPort (n : Nat) (m : Nat) (p : EPort) : (s.setEPort m p).queue n = s.queue n := rfl
@[simp] theorem State.queue_setReg (n : Nat) (a : Nat) (v : Word) : (s.setReg a v).queue n = s.queue n := rfl
@[simp] theorem State.queue_setStw (n : Nat) (m : Nat) (w : Stw) : (s.setStw m w).queue n = s.queue n := rfl
@[simp] theorem State.queue_setSync (n : Nat) (m : Nat) (o : Sync) : (s.setSync m o).queue n = s.queue n := rfl
@[simp] theorem State.queue_setTrace (n : Nat) (t : Trace) : (s.setTrace t).queue n = s.queue n := rfl
@[simp] theorem State.queue_modPins (n : Nat) (f : Pins → Pins) : (s.modPins f).queue n = s.queue n := rfl
@[simp] theorem State.queue_modObs (n : Nat) (f : Obs → Obs) : (s.modObs f).queue n = s.queue n := rfl
@[simp] theorem State.queue_modCommit (n : Nat) (f : Commit → Commit) : (s.modCommit f).queue n = s.queue n := rfl
@[simp] theorem State.queue_modCrd (n : Nat) (p : CPort) (i : Nat) (f : Nat → Nat) : (s.modCrd p i f).queue n = s.queue n := rfl
@[simp] theorem State.queue_addReq (n : Nat) (r : Req) : (s.addReq r).queue n = s.queue n := rfl
@[simp] theorem State.queue_emit (n : Nat) (e : Emit) : (s.emit e).queue n = s.queue n := rfl
@[simp] theorem State.queue_emits (n : Nat) (l : List Emit) : (s.emits l).queue n = s.queue n := rfl
@[simp] theorem State.queue_fresh (n : Nat) : (s.fresh).queue n = s.queue n := rfl
@[simp] theorem State.queue_drew (n : Nat) : (s.drew).queue n = s.queue n := rfl
@[simp] theorem State.queue_pass (n : Nat) (d : Nat) : (s.pass d).queue n = s.queue n := rfl
@[simp] theorem State.queue_rest (n : Nat) (l : List Instr) : (s.rest l).queue n = s.queue n := rfl

@[simp] theorem State.stw_setStw (n : Nat) (w : Stw) : (s.setStw n w).stw n = w := Tab.get_put_same _ _ _ _
theorem State.stw_setStw_ne {n m : Nat} (w : Stw) (h : m ≠ n) : (s.setStw n w).stw m = s.stw m := Tab.get_put_ne _ _ h
@[simp] theorem State.setStw_setStw (n : Nat) (w w' : Stw) : (s.setStw n w).setStw n w' = s.setStw n w' := by
  simp [State.setStw]
@[simp] theorem State.stw_setLink (n : Nat) (m : Nat) (l : Link) : (s.setLink m l).stw n = s.stw n := rfl
@[simp] theorem State.stw_setLane (n : Nat) (m : Nat) (l : Lane) : (s.setLane m l).stw n = s.stw n := rfl
@[simp] theorem State.stw_setEPort (n : Nat) (m : Nat) (p : EPort) : (s.setEPort m p).stw n = s.stw n := rfl
@[simp] theorem State.stw_setReg (n : Nat) (a : Nat) (v : Word) : (s.setReg a v).stw n = s.stw n := rfl
@[simp] theorem State.stw_setQueue (n : Nat) (q : Nat) (d : Queue) : (s.setQueue q d).stw n = s.stw n := rfl
@[simp] theorem State.stw_setSync (n : Nat) (m : Nat) (o : Sync) : (s.setSync m o).stw n = s.stw n := rfl
@[simp] theorem State.stw_setTrace (n : Nat) (t : Trace) : (s.setTrace t).stw n = s.stw n := rfl
@[simp] theorem State.stw_modPins (n : Nat) (f : Pins → Pins) : (s.modPins f).stw n = s.stw n := rfl
@[simp] theorem State.stw_modObs (n : Nat) (f : Obs → Obs) : (s.modObs f).stw n = s.stw n := rfl
@[simp] theorem State.stw_modCommit (n : Nat) (f : Commit → Commit) : (s.modCommit f).stw n = s.stw n := rfl
@[simp] theorem State.stw_modCrd (n : Nat) (p : CPort) (i : Nat) (f : Nat → Nat) : (s.modCrd p i f).stw n = s.stw n := rfl
@[simp] theorem State.stw_addReq (n : Nat) (r : Req) : (s.addReq r).stw n = s.stw n := rfl
@[simp] theorem State.stw_emit (n : Nat) (e : Emit) : (s.emit e).stw n = s.stw n := rfl
@[simp] theorem State.stw_emits (n : Nat) (l : List Emit) : (s.emits l).stw n = s.stw n := rfl
@[simp] theorem State.stw_fresh (n : Nat) : (s.fresh).stw n = s.stw n := rfl
@[simp] theorem State.stw_drew (n : Nat) : (s.drew).stw n = s.stw n := rfl
@[simp] theorem State.stw_pass (n : Nat) (d : Nat) : (s.pass d).stw n = s.stw n := rfl
@[simp] theorem State.stw_rest (n : Nat) (l : List Instr) : (s.rest l).stw n = s.stw n := rfl

@[simp] theorem State.sync_setSync (n : Nat) (o : Sync) : (s.setSync n o).sync n = o := Tab.get_put_same _ _ _ _
theorem State.sync_setSync_ne {n m : Nat} (o : Sync) (h : m ≠ n) : (s.setSync n o).sync m = s.sync m := Tab.get_put_ne _ _ h
@[simp] theorem State.setSync_setSync (n : Nat) (o o' : Sync) : (s.setSync n o).setSync n o' = s.setSync n o' := by
  simp [State.setSync]
@[simp] theorem State.sync_setLink (n : Nat) (m : Nat) (l : Link) : (s.setLink m l).sync n = s.sync n := rfl
@[simp] theorem State.sync_setLane (n : Nat) (m : Nat) (l : Lane) : (s.setLane m l).sync n = s.sync n := rfl
@[simp] theorem State.sync_setEPort (n : Nat) (m : Nat) (p : EPort) : (s.setEPort m p).sync n = s.sync n := rfl
@[simp] theorem State.sync_setReg (n : Nat) (a : Nat) (v : Word) : (s.setReg a v).sync n = s.sync n := rfl
@[simp] theorem State.sync_setQueue (n : Nat) (q : Nat) (d : Queue) : (s.setQueue q d).sync n = s.sync n := rfl
@[simp] theorem State.sync_setStw (n : Nat) (m : Nat) (w : Stw) : (s.setStw m w).sync n = s.sync n := rfl
@[simp] theorem State.sync_setTrace (n : Nat) (t : Trace) : (s.setTrace t).sync n = s.sync n := rfl
@[simp] theorem State.sync_modPins (n : Nat) (f : Pins → Pins) : (s.modPins f).sync n = s.sync n := rfl
@[simp] theorem State.sync_modObs (n : Nat) (f : Obs → Obs) : (s.modObs f).sync n = s.sync n := rfl
@[simp] theorem State.sync_modCommit (n : Nat) (f : Commit → Commit) : (s.modCommit f).sync n = s.sync n := rfl
@[simp] theorem State.sync_modCrd (n : Nat) (p : CPort) (i : Nat) (f : Nat → Nat) : (s.modCrd p i f).sync n = s.sync n := rfl
@[simp] theorem State.sync_addReq (n : Nat) (r : Req) : (s.addReq r).sync n = s.sync n := rfl
@[simp] theorem State.sync_emit (n : Nat) (e : Emit) : (s.emit e).sync n = s.sync n := rfl
@[simp] theorem State.sync_emits (n : Nat) (l : List Emit) : (s.emits l).sync n = s.sync n := rfl
@[simp] theorem State.sync_fresh (n : Nat) : (s.fresh).sync n = s.sync n := rfl
@[simp] theorem State.sync_drew (n : Nat) : (s.drew).sync n = s.sync n := rfl
@[simp] theorem State.sync_pass (n : Nat) (d : Nat) : (s.pass d).sync n = s.sync n := rfl
@[simp] theorem State.sync_rest (n : Nat) (l : List Instr) : (s.rest l).sync n = s.sync n := rfl

@[simp] theorem State.reg_setReg (n : Nat) (v : Word) : (s.setReg n v).reg n = v := Tab.get_put_same _ _ _ _
theorem State.reg_setReg_ne {n m : Nat} (v : Word) (h : m ≠ n) : (s.setReg n v).reg m = s.reg m := Tab.get_put_ne _ _ h
@[simp] theorem State.setReg_setReg (n : Nat) (v v' : Word) : (s.setReg n v).setReg n v' = s.setReg n v' := by
  simp [State.setReg]
@[simp] theorem State.reg_setLink (n : Nat) (m : Nat) (l : Link) : (s.setLink m l).reg n = s.reg n := rfl
@[simp] theorem State.reg_setLane (n : Nat) (m : Nat) (l : Lane) : (s.setLane m l).reg n = s.reg n := rfl
@[simp] theorem State.reg_setEPort (n : Nat) (m : Nat) (p : EPort) : (s.setEPort m p).reg n = s.reg n := rfl
@[simp] theorem State.reg_setQueue (n : Nat) (q : Nat) (d : Queue) : (s.setQueue q d).reg n = s.reg n := rfl
@[simp] theorem State.reg_setStw (n : Nat) (m : Nat) (w : Stw) : (s.setStw m w).reg n = s.reg n := rfl
@[simp] theorem State.reg_setSync (n : Nat) (m : Nat) (o : Sync) : (s.setSync m o).reg n = s.reg n := rfl
@[simp] theorem State.reg_setTrace (n : Nat) (t : Trace) : (s.setTrace t).reg n = s.reg n := rfl
@[simp] theorem State.reg_modPins (n : Nat) (f : Pins → Pins) : (s.modPins f).reg n = s.reg n := rfl
@[simp] theorem State.reg_modObs (n : Nat) (f : Obs → Obs) : (s.modObs f).reg n = s.reg n := rfl
@[simp] theorem State.reg_modCommit (n : Nat) (f : Commit → Commit) : (s.modCommit f).reg n = s.reg n := rfl
@[simp] theorem State.reg_modCrd (n : Nat) (p : CPort) (i : Nat) (f : Nat → Nat) : (s.modCrd p i f).reg n = s.reg n := rfl
@[simp] theorem State.reg_addReq (n : Nat) (r : Req) : (s.addReq r).reg n = s.reg n := rfl
@[simp] theorem State.reg_emit (n : Nat) (e : Emit) : (s.emit e).reg n = s.reg n := rfl
@[simp] theorem State.reg_emits (n : Nat) (l : List Emit) : (s.emits l).reg n = s.reg n := rfl
@[simp] theorem State.reg_fresh (n : Nat) : (s.fresh).reg n = s.reg n := rfl
@[simp] theorem State.reg_drew (n : Nat) : (s.drew).reg n = s.reg n := rfl
@[simp] theorem State.reg_pass (n : Nat) (d : Nat) : (s.pass d).reg n = s.reg n := rfl
@[simp] theorem State.reg_rest (n : Nat) (l : List Instr) : (s.rest l).reg n = s.reg n := rfl

end Sys2Proof.Machine
end

