-- ==== Sys2Proof/Tests/Slice0.lean ====
section
/-! SUPPORT. Checks of the model on small states: ill-formed commands are refused, a few results the spec states, and for each
statement with hypotheses a state and operands that meet them (`test_hyp_…`). -/

namespace Sys2Proof.Tests
open Sys2Proof Sys2Proof.Machine Sys2Proof.Safety

set_option Elab.async false

/-! ### Small states -/

/-- A block at READY. -/
def ready : State := { State.reset with boot := { stage := .ready } }
/-- `Port` and `Open`, decided. -/
def ported (s : State) : Bool := s.mgmtOpen && decide (s.mgCmd ≠ 0)
def opened (s : State) : Bool := ported s && !s.obs.curfew.on
theorem opened_iff (s : State) : (ported s = true ↔ Port s) ∧ (opened s = true ↔ Open s) := by simp [opened, ported, Open, Port]
/-- In curfew. -/
def curfewed : State := { ready with obs := { curfew := { on := true } } }
/-- In the safe state. -/
def safed : State := { ready with fc := { safe := true } }
/-- In a brown-out hold. -/
def held : State := { ready with pins := { vwarn := true, hold := true } }
/-- Link L23 as given, at READY. -/
def linked (l : Link) : State := { ready with links := [(23, l)] }
/-- A link in DATA. -/
def data : Link := { train := { enable := true, state := 4 }, guest := { verdict := .match_ } }
/-- Lane 95 as given, its link on a TEST row. -/
def laned (l : Lane) : State := { linked { train := { state := 2 } } with lanes := [(95, l)] }
/-- Steward 63 holds queue 8191 of partition `part` READY, with registers `regs` and the word at its PC. -/
def ask (word : BitVec 128) (part : Nat := 0) (regs : List Word := List.replicate 16 0) : State :=
  { ready with
    parts := [(0, { valid := true, bf := true }), (1, { valid := true, tag := 1 })]
    win := [(0x31108, 0x8002000020100000)]
    queues := [(8191, { bind := fields [(63, 1, 1), (59, 4, part)], ring := 0x10000000000, st := .ready, tail := 1 })]
    stws := [(63, { ctxs := [(7, { queue := 8191, regs := regs })], cache := [(8191, 0, leBytes 16 word.toNat ++ zeros 48)] })] }

/-- A block of a plan, chip 5 of a board, with segment 1023 of one page and a board-flat window of P0 over the whole board. -/
def placed : State :=
  { ready with
    plan := { valid := true, chip := 5, dig := 1, ids := [(1, 0), (1, 5)] }
    tables := { inn := [(0x8FE0, fields [(63, 1, 1), (15, 26, 1)]), (0x9000, 1), (0x10000, 5)] }
    win := [(0x31040, 0xF000000010000000), (0x321F8, 0xFFFFFFFFFFFFFFFF)] }
/-- The last byte of segment 1023, as a rack-global address. -/
def lastByte : Word := 0x01FFC000001FFFFF
/-- E-port 15 as given. -/
def eported (p : EPort) : State := { placed with eports := [(15, p)] }
/-- An E-port command beat: OP, LEN, TAG and address; FMT 0. -/
def beat (op len tag : Nat) (a : Word) : BitVec 128 :=
  BitVec.ofNat 128 (op * 2 ^ 122 + len * 2 ^ 116 + tag * 2 ^ 95 + a.toNat)

/-! ### Hypotheses are met: ports and pins -/

theorem test_hyp_StepRunsFront : ({ ready with pending := [.warmReset, .blockRst] } : State).pending = .warmReset :: [.blockRst] := rfl

theorem test_hyp_IdleStepIsTick : ready.pending = [] ∧ curfewed.pending = [] ∧ (curfewed.obs.curfew.on = true ∨ curfewed.fc.safe = true) ∧
    (safed.obs.curfew.on = true ∨ safed.fc.safe = true) := by decide

theorem test_hyp_ResetsAndBoot :
    (let s : State := { ready with mgCrd := 1 }
     ported s = true ∧ s.mgQ = [] ∧ 0 < s.mgCrd) ∧
    (let s : State := { State.reset with boot := { stage := .selftest } }
     s.boot.stage.next (decide (s.boot.lastReset = 0)) = some (.mgmtOpen, 2000) ∧ s.pins.vwarn = false ∧
       s.boot.released + us5 2000 ≤ s.clk.up + 5 * 2000000) ∧
    (let s : State := { State.reset with boot := { stage := .mgmtOpen, lastReset := 1 } }
     s.boot.stage.next (decide (s.boot.lastReset = 0)) = some (.ready, 2500) ∧ s.pins.vwarn = false ∧
       s.boot.released + us5 2500 ≤ s.clk.up + 5 * 2500000 ∧ ¬ (s.boot.stage = .selftest ∧ true = false)) := by decide

theorem test_hyp_PartitionAndLinkResets :
    ((15 : PartId) ≠ 0 ∧ bit ready.boot.partBusy 15 = false ∧ ready.admits = true ∧ opened ready = true) ∧
    (ready.running = true ∧ bit ready.boot.partHeld 15 = false ∧ ready.fc.safe = false) := by decide

theorem test_hyp_CreditsCount :
    ((eported { cplCrd := 254 }).eport 15).cplCrd < 255 ∧ ((eported { cplCrd := 255 }).eport 15).cplCrd = 255 ∧
    (ready.modCrd (.m 23) 0 fun _ => 254).crd (.m 23) 0 < 255 ∧ (ready.modCrd (.s 7) 1 fun _ => 254).crd (.s 7) 1 < 255 ∧
    (ready.modCrd (.s 7) 2 fun _ => 254).crd (.s 7) 2 < 255 ∧ (ready.modCrd (.n 3) 0 fun _ => 254).crd (.n 3) 0 < 255 ∧
    (ready.modCrd (.m 0) 0 fun _ => 255).crd (.m 0) 0 = 255 ∧ (ready.modCrd (.s 7) 1 fun _ => 255).crd (.s 7) 1 = 255 ∧
    (ready.modCrd (.m 23) 2 fun _ => 255).crd (.m 23) 2 = 255 ∧ (ready.modCrd (.n 3) 0 fun _ => 255).crd (.n 3) 0 = 255 ∧
    ({ ready with mgCrd := 254 } : State).mgCrd < 255 ∧ ({ ready with mgCrd := 255 } : State).mgCrd = 255 := by decide

theorem test_hyp_EportCommands_load :
    let s := eported { cmdCrd := 1, flight := [(0, { beat := 0, stage := .issued })] }
    let b := beat 0 0 511 lastByte
    beatOp b = 0 ∧ (s.eport 15).cmdCrd ≠ 0 ∧ ((s.eport 15).flight.all fun c => decide (c.1 ≠ beatTag b)) = true ∧ s.fc.safe = false ∧
      s.beatCheck b = stOk ∧
      ¬ ∃ c ∈ (s.eport 15).flight, (c.2.stage = .needWd ∨ c.2.stage = .queued) ∧ c.2.early = none ∧ beatStream c.2.beat = beatStream b ∧
        (beatAddr c.2.beat).toNat / 64 = (beatAddr b).toNat / 64 := by decide

theorem test_hyp_EportCommands_store :
    let s := eported { cmdCrd := 1 }
    (s.eport 15).cmdCrd ≠ 0 ∧ (s.eport 15).wdBuf = [] ∧ s.fc.safe = false ∧
      (∀ op ∈ [1, 2, 3, 4, 5, 6, 7, 8, 9], let b := beat op 3 511 0x01FFC000001FFFFC
        beatOp b = op ∧ ((s.eport 15).flight.all fun c => decide (c.1 ≠ beatTag b)) = true ∧ s.beatCheck b = stOk) := by decide

theorem test_hyp_EportCommands_wd :
    let c : ECmd := { beat := beat 1 63 511 0x01FFC000001FFFC0, stage := .needWd }
    let s := eported { wdCrd := 1, wdWait := [some 511], flight := [(511, c)] }
    (s.eport 15).wdCrd ≠ 0 ∧ (s.eport 15).wdBuf = [] ∧ (s.eport 15).wdWait = some 511 :: [] ∧ (s.eport 15).flight = (511, c) :: [] ∧
      c.stage = .needWd ∧ c.early = none ∧ beatTag c.beat = 511 ∧ (∀ e ∈ ([] : List (Nat × ECmd)), e.2.stage ≠ .queued) := by decide

theorem test_hyp_PortAnswers_completion :
    let c : ECmd := { beat := 0, stage := .answered }
    let s := eported { cplCrd := 1, flight := [(511, c)], cplQ := [(511, 15, [])] }
    (s.eport 15).cplQ = (511, 15, []) :: [] ∧ (s.eport 15).cplCrd ≠ 0 ∧ s.obs.curfew.on = false ∧
      ((s.eport 15).flight.find? fun e => decide (e.1 = 511)) = some (511, c) := by decide

theorem test_hyp_PortAnswers_response :
    let r : Acc := { job := 0, port := .m 23, write := false, addr := 0, len := 64, tag := 511 }
    let w : Acc := { job := 0, port := .s 7, write := true, addr := 0, len := 64, tag := 511 }
    let n : Acc := { job := 0, port := .n 3, write := true, addr := 0, len := 32, tag := 127 }
    let s : State := { ready.giveCredits with cpOut := [r, w, n] }
    s.rxCrd (.m 23) false ≠ 0 ∧ s.rxCrd (.s 7) true ≠ 0 ∧ s.rxCrd (.n 3) false ≠ 0 ∧ (s.cpOut.find? fun b => decide (b.port = .m 23 ∧ b.tag = (511 : BitVec 9).toNat) && (some false == some b.write)) = some r ∧
      (s.cpOut.find? fun b => decide (b.port = .s 7 ∧ b.tag = (511 : BitVec 9).toNat) && (some true == some b.write)) = some w ∧
      (s.cpOut.find? fun b => decide (b.port = .n 3 ∧ b.tag = (127 : BitVec 7).toNat)) = some n ∧ (2 : BitVec 2) ≠ 3 ∧ r.dead = false ∧
      w.dead = false ∧ n.dead = false ∧ s.fc.safe = false := by decide +kernel

theorem test_hyp_PortAnswers_timeout :
    let c : ECmd := { beat := beat 0 0 511 lastByte, stage := .issued }
    let r : Req := { id := 0, who := .eport 15 511, pkt := { op := 0x80 } }
    let a : Acc := { job := 0, port := .n 3, write := true, addr := 0, len := 32, tag := 511 }
    let s : State := { eported { flight := [(511, c)] } with reqs := [r], cpOut := [a] }
    s.running = true ∧ ((s.eport 15).flight.find? fun e => decide (e.1 = (511 : BitVec 9).toNat)) = some ((511 : BitVec 9).toNat, c) ∧
      c.stage ≠ .answered ∧ c.at5 + s.fabricTmo ≤ s.clk.core + 5 * 2000000 ∧
      (s.reqs.find? fun r => decide (r.who = .eport 15 (511 : BitVec 9).toNat) && !r.timedOut) = some r ∧
      (s.cpOut.find? fun b => decide (b.port = .n 3 ∧ b.tag = (511 : BitVec 9).toNat) && (isNPort (.n 3) || b.write == false) && !b.dead) =
        some a ∧ a.at5 + s.carrierTmo ≤ s.clk.core + 5 * 1000000 := by decide

theorem test_hyp_ManagementAccess :
    (opened ready = true ∧ mgAligned 0x3FFFFF8 true = true ∧ mgAligned 0x3FFFFFC false = true) ∧
    (let s : State := { curfewed with obs := { curfew := { on := true, hold := List.replicate 255 (0, true, 0) } } }
     ported s = true ∧ s.obs.curfew.on = true ∧ mgAligned 0x18 true = true ∧ curfewOpen 0x18 true 0 = false ∧
       s.obs.curfew.hold.length < 256) ∧
    mgAligned 0x1C true = false ∧ State.reset.mgmtOpen = false ∧
    ((0x3FFFFF8 : BitVec 26).toNat % 8 = 0 ∧ (0x3FFFFF8 : BitVec 26).toNat ≠ 0x20038 ∧ (0x3FFFFF8 : BitVec 26).toNat ≠ 0x20308 ∧
      (0x3FFFFFC : BitVec 26).toNat % 4 = 0 ∧ (0x3FFFFFC : BitVec 26).toNat / 8 * 8 ≠ 0x20308) := by decide +kernel

theorem test_hyp_PinsAndClocks :
    (ready.pins.vwarn = false ∧ ready.boot.stage = .ready ∧ ready.running = true ∧ ready.pins.hold = false ∧
      State.reset.pins.vwarn = false ∧ State.reset.boot.stage ≠ .ready) ∧
    (held.pins.hold = true ∧ held.boot.stage = .ready ∧ held.running = true ∧ held.pins.holdNotice + ms5 40 ≤ held.clk.up + 5 * 40000000 ∧
      held.clk.up + 5 * 39999999 < held.pins.holdNotice + ms5 40) ∧
    (let s : State := { ready with pins := { hold := true } }
     s.pins.vwarn = false ∧ s.pins.hold = true) ∧
    (let s : State := { ready with pins := { hot := 1 } }
     s.pins.hot ≠ 0 ∧ bit s.pins.hot 19 = false ∧ s.running = true ∧ s.pins.hotNotice + ms5 40 ≤ s.clk.up + 5 * 40000000) ∧
    ready.pins.hot = 0 ∧ ready.fc.safe = false ∧ ready.boot.stage ≠ .fuse ∧ (2000 : BitVec 16).toNat ≤ 2000 ∧
    2000 < (2001 : BitVec 16).toNat := by decide

theorem test_hyp_PaceRecomputed :
    let s : State := { linked { data with train := { enable := true, state := 4, grade := 3 } } with pins := { period := 800 } }
    s.running = true ∧ s.carriesFrames 0 = false ∧ s.carriesFrames 23 = true ∧
      (s.link 23).train.width * 265625 * 2 ^ (s.link 23).train.grade.toNat * 32 * s.pins.period.toNat ≤ 528 * (32 + 0) * 10 ^ 7 := by decide

theorem test_hyp_CrossingResets :
    let s : State := { ready with xings := [(246, { core := { req := true, ack := true } })] }
    (s.xings.get {} (xingKey .tck)).side true = { req := true, ack := true } ∧
      (let t : State := { laned { cdr := true } with xings := [(95, { clk := { req := true, ack := true } })] }
       (t.xings.get {} (xingKey (.laneRx 95))).side false = { req := true, ack := true } ∧ (t.lane 95).cdr = true ∧
         ((laned {}).lane 95).cdr = false ∧ (0 : Nat) ≠ (95 : LaneId).val) := by decide
/-! ### Hypotheses are met: lanes, training, commits, links, keys -/

theorem test_hyp_LaneAlignment_txeq :
    let good := laned { staged := { pre := 27, main := 35, post := 0 } }
    let bad := laned { staged := { pre := 27, main := 34, post := 0 } }
    opened good = true ∧
      ((good.lane 95).staged.pre.toNat + (good.lane 95).staged.main.toNat + (good.lane 95).staged.post.toNat ≤ 63 ∧
        8 + (good.lane 95).staged.pre.toNat + (good.lane 95).staged.post.toNat ≤ (good.lane 95).staged.main.toNat) ∧
      ¬ ((bad.lane 95).staged.pre.toNat + (bad.lane 95).staged.main.toNat + (bad.lane 95).staged.post.toNat ≤ 63 ∧
        8 + (bad.lane 95).staged.pre.toNat + (bad.lane 95).staged.post.toNat ≤ (bad.lane 95).staged.main.toNat) := by decide

theorem test_hyp_LaneAlignment_slip :
    let s := laned { align := { pend := true, queued := 1 } }
    let t := laned { align := { counting := true } }
    opened ready = true ∧ opened s = true ∧ opened t = true ∧ ¬ (ready.laneState 95 = 1 ∨ ready.laneState 95 = 2) ∧ (s.laneState 95 = 1 ∨ s.laneState 95 = 2) ∧ (s.lane 95).align.pend = true ∧
      (s.lane 95).align.queued = 0 + 1 ∧ (t.laneState 95 = 1 ∨ t.laneState 95 = 2) ∧ (t.lane 95).align.pend = false ∧
      (t.lane 95).align.queued = 0 ∧ (t.lane 95).align.counting = true ∧ ((laned { align := { pend := true } }).lane 95).align.queued = 0 := by
  decide

theorem test_hyp_LaneLocks :
    let s := laned { cdr := true, blk := true, active := true, align := { counting := true } }
    let t := laned { cdr := true, blk := true, align := { counting := true }, adapt := false, adaptDone := true }
    (s.lane 95).blk = true ∧ (s.lane 95).align.counting = true ∧ (s.lane 95).active = true ∧ (s.lane 95).cdr = true ∧
      (s.lane 95).prbs.lock = false ∧ (s.lane 95).eye.busy = false ∧ ((s.lane 95).adapt = true ∨ (s.lane 95).adaptDone = false) ∧
      s.laneHears 95 = true ∧ (s.lane 95).align.pend = false ∧ (s.lane 95).align.good.toNat + (s.lane 95).align.bad.toNat + 16 ≤ 1023 ∧
      s.laneCut false 95 = false ∧
      (t.lane 95).blk = true ∧ (t.lane 95).align.counting = true ∧ (t.lane 95).active = false ∧ (t.lane 95).cdr = true ∧
      (t.lane 95).prbs.lock = false ∧ (t.lane 95).eye.busy = false ∧ (t.lane 95).adapt = false ∧ (t.lane 95).adaptDone = true := by decide

/-- Link 23 in DATA at four lanes under F1, after `run` uncorrectable codewords. -/
def coded (run : Nat) : State := linked { data with train := { data.train with lanes := 15 }, fec := { cur := 1, run := run } }
/-- A codeword of zeros but for its last message block and its parity block. -/
def codeword (last parity : BitVec 66) : List (BitVec 66) := List.replicate 31 0 ++ [last, parity]

theorem coded_decodeWord (run : Nat) (a b : BitVec 66) : ((coded run).decodeWord 23 (codeword a b) []).map (·.2) =
    some ((f1Decode 4 0 ((codeword a b).map bitList)).map fun x => laneFixes [0, 1, 2, 3] x.2) := by
  have hk : (coded run).link 23 = { data with train := { data.train with lanes := 15 }, fec := { cur := 1, run := run } } := by
    simp [coded, linked, State.link, Tab.get]
  have hl : laneRanks 15 = [0, 1, 2, 3] := by decide
  have hx : ((coded run).lines.get {} 23).rxBlocks = 0 := rfl
  have hn : (codeword a b).length = 33 := by simp [codeword]
  unfold State.decodeWord
  simp only [hk, hl, hx, hn, and_self, if_true]
  cases f1Decode [0, 1, 2, 3].length 0 ((codeword a b).map bitList) <;> rfl

/-- The syndrome of a codeword of zeros but for the last bit of its message and its parity. -/
theorem codeword_syndrome (a b : BitVec 66) (c : Bool) (p : List Bool)
    (h : f1Message 4 0 ((codeword a b).map bitList) = List.replicate 2111 false ++ [c])
    (k : (((codeword a b).map bitList).getD 32 []).drop 2 = p) : f1Syndrome 4 0 ((codeword a b).map bitList) = f1Rem (c :: p) := by
  rw [f1Syndrome, h, k, List.append_assoc, f1Rem_zeros]; rfl

theorem f1_good : (f1Decode 4 0 ((codeword 0 0).map bitList)).map (·.2) = some [] := by
  rw [f1Decode, codeword_syndrome 0 0 false (List.replicate 64 false) (by decide +kernel) (by decide +kernel)]; decide +kernel
theorem f1_fixed : (f1Decode 4 0 ((codeword 0 (0x1FFFFF <<< 45)).map bitList)).map (·.2) = some (List.replicate 21 0) := by
  rw [f1Decode, codeword_syndrome 0 (0x1FFFFF <<< 45) false (List.replicate 43 false ++ List.replicate 21 true) (by decide +kernel)
    (by decide +kernel)]
  decide +kernel
theorem f1_bad : f1Decode 4 0 ((codeword (1 <<< 65) 4).map bitList) = none := by
  rw [f1Decode, codeword_syndrome (1 <<< 65) 4 true (true :: List.replicate 63 false) (by decide +kernel) (by decide +kernel)]
  decide +kernel

theorem test_hyp_Codewords : ∀ run ∈ [6, 7], (coded run).carriesFrames 23 = true ∧ (coded run).linkCut false 23 = false ∧
    ((coded run).link 23).fec.run = run ∧ ((coded run).decodeWord 23 (codeword 0 0) []).map (·.2) = some (some [0, 0, 0, 0]) ∧
    ((coded run).decodeWord 23 (codeword 0 (0x1FFFFF <<< 45)) []).map (·.2) = some (some [21, 0, 0, 0]) ∧
    ((coded run).decodeWord 23 (codeword (1 <<< 65) 4) []).map (·.2) = some none ∧ ((coded run).decodeWord 23 [] []).isNone = true := by
  have h (f : Option (List (List Bool) × List Nat)) :
      (f.map fun x => laneFixes [0, 1, 2, 3] x.2) = (f.map (·.2)).map (laneFixes [0, 1, 2, 3]) := by cases f <;> rfl
  intro run hr
  rw [coded_decodeWord, coded_decodeWord, coded_decodeWord, h, h, f1_good, f1_fixed, f1_bad]
  rcases List.mem_pair.mp hr with rfl | rfl <;> decide +kernel

theorem test_hyp_Codewords_f2 :
    let s := linked { data with train := { data.train with lanes := 15 }, fec := { cur := 2 } }
    (s.decodeWord 23 [] (List.replicate 544 0)).map (·.2) = some (some [0, 0, 0, 0]) ∧
      ((s.link 23).fec.cur ≠ 1 ∧ (List.replicate 543 (0 : BitVec 10)).length ≠ 544) := by decide +kernel

theorem test_hyp_EyeScansAndPrbs :
    let s := laned { grade := 3, eye := { eye := 2 } }
    let t := laned { eye := { eye := 3 } }
    let u := laned { eye := { busy := true }, cdr := true, prbs := { set := { gen := true, chk := true, pattern := 5 } } }
    let v := laned { prbs := { lock := true } }
    opened s = true ∧ opened t = true ∧ opened u = true ∧ opened v = true ∧ ((s.lane 95).eye.busy = false ∧ (s.lane 95).eye.eye ≠ 3 ∧ ((s.lane 95).grade = 0 → (s.lane 95).eye.eye = 1)) ∧
      ((t.lane 95).eye.busy = false ∧ (t.lane 95).eye.chk = none ∧ ((t.lane 95).eye.eye = 3 ∨ (t.lane 95).grade = 0 ∧ (t.lane 95).eye.eye ≠ 1)) ∧
      ((u.lane 95).eye.busy = true ∧ (u.lane 95).eye.chk = none) ∧
      (s.laneState 95 = 2 ∧ (5 : BitVec 3).toNat < 6 ∧ (s.lane 95).prbs.lock = false ∧ ready.laneState 95 ≠ 2 ∧ (ready.lane 95).prbs.lock = false) ∧
      ((u.lane 95).prbs.set.gen = true ∧ (u.lane 95).prbs.set.chk = true ∧ (u.lane 95).cdr = true ∧ (u.lane 95).prbs.lock = false) ∧
      (v.lane 95).prbs.lock = true := by decide

theorem test_hyp_TrainControl :
    let s := linked { guest := { verdict := .qWrongPeer } }
    opened s = true ∧ opened (linked data) = true ∧ (s.link 23).train.enable = false ∧ s.fc.safe = false ∧ ((linked data).link 23).train.enable = true ∧
      ((s.link 23).guest.verdict = .qUnexpected ∨ (s.link 23).guest.verdict = .qWrongPeer) ∧
      ¬ (((linked data).link 23).guest.verdict = .qUnexpected ∨ ((linked data).link 23).guest.verdict = .qWrongPeer) := by decide

theorem test_hyp_TrainingActs_row :
    let s := linked { train := { enable := true, row := 8 } }
    let t := linked { train := { enable := true, row := 1 } }
    s.admits = true ∧ (s.link 23).train.enable = true ∧ s.satisfied 23 = some 8 ∧ rowAction (s.trainRow 23 8) ≠ 9 ∧ t.satisfied 23 = none ∧
      rowCount (t.trainRow 23 (t.link 23).train.row.toNat) ≠ 0 ∧
      (t.link 23).train.entered + rowTimeout (t.trainRow 23 (t.link 23).train.row.toNat) ≤ t.clk.act + 5 * 20000000 ∧
      (t.passNs 20000000).satisfied 23 = none := by decide

theorem test_hyp_TrainingActs_ends :
    let s := linked { train := { eye := { running := true }, stepTo := some 3 } }
    (s.link 23).train.eye.running = true ∧ (s.ranks 23 fun l => l.active && l.eye.chk.isSome) = [] ∧ (s.link 23).train.stepTo = some 3 ∧
      (s.ranks 23 fun l => l.active && !(decide (l.grade = 3) && l.cdr && l.adaptDone)) = [] := by decide

theorem test_hyp_TrainingActs_block :
    let s := laned { blk := true }
    let w := sealBlock (fields [(16, 8, 0xFF), (8, 2, 3), (0, 8, 0x2D)])
    (s.lane 95).blk = true ∧ s.laneState 95 ≠ 0 ∧ s.carriesFrames (95 / 4) = false ∧ trainValid w = true ∧ (s.lane 95).active = false ∧
      trainValid (w ^^^ 1) = false ∧ trainValid (~~~(~~~w)) = true := by decide +kernel
theorem test_hyp_Commits :
    let s : State := { ready with plan := { valid := true }, win := [(0x110, 0x7FFFFFF)] }
    let t : State := { ready with commit := { busy := true } }
    t.commit.busy = true ∧ t.admits = true ∧ opened s = true ∧ s.commit.busy = false ∧
      ((s.setReg 0x10 (BitVec.ofNat 64 7)).commitCheck 7 ((s.setReg 0x10 (BitVec.ofNat 64 7)).bank 7)).1 = 1 := by decide +kernel
theorem test_hyp_ControlBlocks :
    let s := linked data
    s.running = true ∧ s.carriesFrames 23 = true ∧
      (∀ ty ∈ [0x33, 0x4B, 0x55, 0x66, 0x99], blockValid ty (sealBlock (BitVec.ofNat 64 ty)) = true ∧
        blockValid ty (sealBlock (BitVec.ofNat 64 ty) ^^^ 0x0100000000000000) = false) ∧
      (let w := curfewBlock 0 2047 0xFFFFFFFF
       let z := curfewBlock 0 0 0
       let r := curfewBlock 1 0 0
       s.linkUp 23 = true ∧ blockValid 0x87 w = true ∧ bits w 54 2 = 0 ∧ s.obs.curfew.on = false ∧ s.obs.curfew.serial < w.extractLsb' 11 32 ∧
         blockValid 0x87 z = true ∧ bits z 54 2 = 0 ∧ z.extractLsb' 11 32 ≤ s.obs.curfew.serial ∧
         blockValid 0x87 r = true ∧ bits r 54 2 = 1 ∧ s.obs.curfew.serial ≤ r.extractLsb' 11 32) ∧
      (let f : State := { linked data with fc := { safe := true } }
       f.fc.safe = true ∧ f.linkUp 23 = true ∧ f.linkCut false 23 = false) ∧
      (let c : State := { linked data with obs := { curfew := { on := true, serial := 1 } } }
       c.linkUp 23 = true ∧ c.obs.curfew.on = true ∧ (curfewBlock 1 0 0).extractLsb' 11 32 < c.obs.curfew.serial) := by decide +kernel
theorem test_hyp_LinkAccounting :
    let f : RFrame := { seq := 0, pkts := [], at5 := 0 }
    let s := linked { data with ll := { pools := [(31, { init := true, dedFar := 1, out := 2 })], retry := [f, f], sharedFar := 1 } }
    let q := (s.link 23).ll.pools.get {} 31
    ((2 : BitVec 9) - q.cumRx).toNat ≤ q.out ∧ q.out < ((3 : BitVec 9) - q.cumRx).toNat ∧ 0 < 2 ∧ 2 ≤ (s.link 23).ll.retry.length ∧
      (q.init = true ∧ q.dedFar ≠ 0 ∨ 0 < (s.link 23).ll.sharedFar) ∧
      (let h : Word := fields [(52, 12, 1), (40, 12, 4095)]
       let h' : Word := fields [(52, 12, 0), (40, 12, 4095)]
       bit h 30 = false ∧ h.extractLsb' 40 12 = (s.link 23).ll.acked ∧ h.extractLsb' 52 12 ≠ (s.link 23).ll.rxSeq + 1 ∧
         bit h' 30 = false ∧ h'.extractLsb' 40 12 = (s.link 23).ll.acked ∧ h'.extractLsb' 52 12 = (s.link 23).ll.rxSeq + 1 ∧
         bits h' 12 4 = 0) := by decide

/-- A production part. -/
def made (s : State) : State := { s with fuses := { bench := false, test := false, serial := 0, key := 0, made := 0, caSig := 0 } }

/-- The running CRC over more bytes, from the running value `c`. -/
def crcRun (c : BitVec 64) (b : Bytes) : BitVec 64 := b.foldl (fun c x => crc64Bits 8 (c ^^^ x.zeroExtend 64)) c
/-- A frame's first 248 bytes: a T2 header of control word 0x78 and nothing else. -/
def body : Bytes := leBytes 8 0x78 ++ zeros 240

theorem crcRun_head : crcRun (BitVec.allOnes 64) (leBytes 8 0x78 ++ zeros 40) = 0xff5c52cd0b133c81 := by decide +kernel
theorem crcRun_zeros1 : crcRun 0xff5c52cd0b133c81 (zeros 50) = 0x8a62a3b2dee13682 := by decide +kernel
theorem crcRun_zeros2 : crcRun 0x8a62a3b2dee13682 (zeros 50) = 0x260b9e2e16558f3d := by decide +kernel
theorem crcRun_zeros3 : crcRun 0x260b9e2e16558f3d (zeros 50) = 0xe8e2f1157db2be9 := by decide +kernel
theorem crcRun_zeros4 : crcRun 0xe8e2f1157db2be9 (zeros 50) = 0xa205842017c04019 := by decide +kernel
theorem crc_body : crc64 body = 0x5dfa7bdfe83fbfe6 := by
  have h : body = (leBytes 8 0x78 ++ zeros 40) ++ (zeros 50 ++ (zeros 50 ++ (zeros 50 ++ zeros 50))) := by decide +kernel
  have e (a b : Bytes) (c : BitVec 64) : crcRun c (a ++ b) = crcRun (crcRun c a) b := List.foldl_append
  show ~~~(crcRun (BitVec.allOnes 64) body) = _
  rw [h, e, crcRun_head, e, crcRun_zeros1, e, crcRun_zeros2, e, crcRun_zeros3, crcRun_zeros4]
  decide

theorem test_hyp_FramesReceived :
    let s := made (linked data)
    let good : RxFrame := { bytes := body ++ leBytes 8 0x5dfa7bdfe83fbfe6 }
    let wrong : RxFrame := { bytes := body ++ zeros 8 }
    s.running = true ∧ s.carriesFrames 23 = true ∧ (s.link 23).ll.stopped = false ∧ s.fuses.bench = false ∧
      bits (word64 good.bytes 0) 0 8 = 0x78 ∧ good.full = false ∧ good.ctl = none ∧ good.bad = false ∧
      (s.link 23).sec.keyed = false ∧ bits (word64 wrong.bytes 0) 0 8 = 0x78 := by decide +kernel

theorem test_hyp_FramesReceived_accepted :
    let s := made (linked data)
    (((s.endTs 23).link 23).sec.check s.clk.core (body ++ leBytes 8 0x5dfa7bdfe83fbfe6)).isSome = true := by
  intro s
  have hk : ((s.endTs 23).link 23).sec.keyed = false := by decide +kernel
  have ht : (body ++ leBytes 8 0x5dfa7bdfe83fbfe6).take 248 = body := by decide +kernel
  have hw : word64 (body ++ leBytes 8 0x5dfa7bdfe83fbfe6) 248 = 0x5dfa7bdfe83fbfe6 := by decide +kernel
  simp only [LSec.check, hk, ht, hw, crc_body]
  rfl

theorem test_hyp_FramesReceived_corrupt : crc64 ((body ++ zeros 8).take 248) ≠ word64 (body ++ zeros 8) 248 := by
  have ht : (body ++ zeros 8).take 248 = body := by decide +kernel
  rw [ht, crc_body]
  decide +kernel

theorem test_hyp_LinkTimers :
    let f : RFrame := { seq := 0, pkts := [], at5 := 0 }
    let s := linked { data with ll := { ackDue := true, carry := 2560, retry := f :: [] } }
    s.running = true ∧ s.carriesFrames 23 = true ∧ (s.link 23).ll.ackDue = true ∧ s.pins.hold = false ∧
      (s.link 23).ll.credInitAt + us5 100 ≤ s.clk.act + 5 * 100000 ∧ (s.link 23).ll.carry ≤ 2560 ∧ (s.link 23).ll.retry = f :: [] ∧
      f.at5 + s.rto 23 ≤ s.clk.core + 5 * 2000 ∧ s.injecting 23 = false ∧ (s.link 23).ll.resumeWait = none ∧ (s.link 23).ll.paceDue = false ∧
      (let p := linked { data with ll := { ackDue := true, paceDue := true } }
       p.running = true ∧ p.carriesFrames 23 = true ∧ (p.link 23).ll.ackDue = true ∧ (p.link 23).ll.paceDue = true ∧
         p.linkCut true 23 = false) ∧
      (let r := linked { data with ll := { resumeWait := some 0, retry := [f], runFrom := 0, runCount := 15 } }
       (r.link 23).ll.resumeWait ≠ none ∧ (r.link 23).ll.retry ≠ [] ∧ (r.link 23).ll.runFrom = (r.link 23).ll.acked + 1) ∧
      (ready.schedUs < (ready.passNs 1000).clk.ms / 5000 ∧ (ready.passNs 999).clk.ms / 5000 ≤ ready.schedUs) ∧
      (let t := linked { data with ll := { retry := List.replicate 1024 f } }
       t.injecting 23 = false ∧ (t.link 23).ll.resumeWait = none ∧ (t.link 23).ll.paceDue = false ∧ (t.link 23).ll.nakPend = false ∧
         (t.link 23).ll.pools = [] ∧ (t.link 23).ll.credInit = [] ∧ (t.link 23).ll.replay = none ∧
         1024 ≤ (t.link 23).ll.retry.length) := by decide +kernel

/-- A KEYX packet with 40 bytes of a KIND. -/
def keyx (kind : Nat) (n : Nat) : Pkt :=
  { op := 0x22, len := BitVec.ofNat 8 n, data := leBytes 8 (fields [(60, 4, kind)]).toNat ++ zeros (n - 8) }

theorem test_hyp_HelloAndKeys :
    let box (l : List Pkt) := linked { data with inbox := l.map fun p => { pkt := p } }
    (box [{ op := 0x20 }, { op := 0x21 }]).localPkt 23 (fun q => q.op = 0x20) = some { op := 0x20 } ∧
      (box [{ op := 0x20 }, { op := 0x21 }]).localPkt 23 (fun q => q.op = 0x21) = some { op := 0x21 } ∧ (linked data).running = true ∧
      (((linked data).link 23).train.state = 3 ∨ ((linked data).link 23).train.state = 4) ∧
      ((linked data).link 23).guest.verdict ≠ .qHostile ∧
      (∀ e ∈ [(0, 40), (1, 200), (2, 56)],
        (box [keyx e.1 e.2]).localPkt 23 (fun q => decide (q.op = 0x22) && (decide (kexKind q.data = e.1) ||
          decide (e.1 = 0 ∧ 2 < kexKind q.data))) = some (keyx e.1 e.2) ∧
        kexOk (slice (keyx e.1 e.2).data 0 (keyx e.1 e.2).len.toNat) = true ∧
        kexOk (slice (keyx e.1 8).data 0 (keyx e.1 8).len.toNat) = false) ∧
      ((linked data).link 23).sec.kex.phase = 0 ∧ (linked data).inData 23 = true ∧ (linked {}).inData 23 = false ∧
      (let s := linked { data with guest := { sending := true }, sec := { prev := { key := [0] } } }
       s.admits = true ∧ (s.link 23).guest.sending = true ∧ s.carriesFrames 23 = true ∧
         (s.link 23).guest.due + us5 100 ≤ s.clk.act + 5 * 100000 ∧ (s.link 23).sec.prev.key ≠ [] ∧
         (s.link 23).sec.prevAt + us5 100 ≤ s.clk.core + 5 * 100000) := by decide +kernel
theorem test_hyp_VerdictOrder :
    let e : PlanLink :=
      { farKind := 1, farId := 5, farPort := 127, cls := 4, fec := 0, gradeMax := 0, minWidth := 0, enc := false, lport := 0, farDig := 1 }
    let s : State := made { linked {} with plan := { links := [(23, e)] } }
    let h (kind pclass cls dig : Nat) : Bytes :=
      leBytes 8 (fields [(54, 2, kind), (43, 11, 5), (36, 7, 127), (33, 3, cls), (30, 3, pclass)]).toNat ++ zeros 8 ++ leBytes 48 dig ++ zeros 48
    (helloPclass (h 1 1 4 1) = 1 ∧ s.fuses.bench = false) ∧ ¬ (helloPclass (h 1 0 4 1) = 1 ∧ s.fuses.bench = false) ∧ ready.planLink 23 = none ∧
      s.planLink 23 = some e ∧ e.farKind ≠ 0 ∧
      ¬ (helloKind (h 2 0 4 1) = e.farKind ∧ helloId (h 2 0 4 1) = e.farId ∧ helloPort (h 2 0 4 1) = e.farPort) ∧
      (helloKind (h 1 0 4 0) = e.farKind ∧ helloId (h 1 0 4 0) = e.farId ∧ helloPort (h 1 0 4 0) = e.farPort) ∧
      helloPassport (h 1 0 4 0) ≠ e.farDig ∧ (helloPassport (h 1 0 3 1) = e.farDig ∧ helloClass (h 1 0 3 1) ≠ e.cls) ∧
      (helloPassport (h 1 0 4 1) = e.farDig ∧ helloClass (h 1 0 4 1) = e.cls) ∧
      (let u : State := { ready with plan := { links := [(23, { e with farKind := 0 })] } }
       u.planLink 23 = some { e with farKind := 0 }) := by decide +kernel

/-! ### Hypotheses are met: partitions, security, faults, queues, sync objects -/

/-- A read packet of the last 64 bytes of segment 1023, with a tag. -/
def rdPkt (tag : BitVec 16) : Pkt :=
  { op := 0x80, ptag := tag, len := 16, addr := 0xFFC000001FFFC0, data := leBytes 16 64 }
/-- A board-flat write packet of the last byte of the board window, with a tag. -/
def wrBfPkt (tag : BitVec 16) : Pkt := { op := 0x91, ptag := tag, len := 1, addr := 0x1FFFFFFEFFF, data := [0xFF] }
/-- `placed` with P0 of tag 0xFFFF and P15 of tag 1. -/
def tagged : State := { placed with parts := [(0, { valid := true, bf := true, tag := 0xFFFF }), (15, { valid := true, tag := 1 })] }

theorem test_hyp_PartitionControl :
    let s : State := { tagged with syncs := [(4095, { alloc := true, part := 14 })] }
    opened s = true ∧
      ((s.part 15).valid = true ∧ (s.part 15).tag ≠ 0xFFFE) ∧ ((s.part 0).valid = true ∧ (s.part 0).tag = 0xFFFF ∧ (0 : Nat) ≠ 15) ∧
      ((s.part 0).valid = true ∧ (0 = 0 ∨ s.boundQueues 0 ≠ 0)) ∧ (∃ e ∈ s.syncs, e.2.alloc = true ∧ e.2.part.toNat = 14) ∧
      ((s.part 13).valid = false ∧ ∀ r, r < 16 → r ≠ 13 → (s.part r).valid = true → (s.part r).tag ≠ 0x8000) := by decide

theorem test_hyp_PartitionControl_strangers :
    (∀ r, r < 16 → (tagged.part r).valid = true → (tagged.part r).tag ≠ (0xFFFE : BitVec 16)) ∧ (wrBfPkt 0xFFFE).wellLaid = true ∧
      (wrBfPkt 0xFFFE).isBf = true ∧ (rdPkt 0xFFFE).wellLaid = true ∧ (rdPkt 0xFFFE).isBf = false ∧
      tagged.segValid (keySeg (pageKey (rdPkt 0xFFFE).addr)) = true ∧
      keyPage (pageKey (rdPkt 0xFFFE).addr) < tagged.segPages (keySeg (pageKey (rdPkt 0xFFFE).addr)) := by decide +kernel

theorem test_hyp_ScrubAndSpdm :
    (let s : State := { ready with sec := { scrub := { busy := true } } }
     opened s = true ∧ s.sec.scrub.busy = true ∧ s.running = true ∧ s.sec.scrub.todo = []) ∧
    (let s : State := { ready with win := [(0x30058, 0x4000000000000000), (0x30060, 1)] }
     opened s = true ∧ s.sec.scrub.busy = false ∧ bit (s.reg 0x30058) 62 = true ∧ s.scrubRange.2 ≠ 0) ∧
    (let s : State := { placed with win := [(0x30058, 1023)] }
     opened s = true ∧ bit (s.reg 0x30058) 62 = false ∧ s.segValid (bits (s.reg 0x30058) 0 10) = true ∧
       (s.inn.lodge.any fun e => e.2.busy && decide (keySeg e.2.key = bits (s.reg 0x30058) 0 10)) = false) ∧
    (let s : State := { ready with win := [(0x38000, 4096)] }
     ported s = true ∧ s.sec.spdm.busy = false ∧ s.boot.stage = .ready ∧ 0 < bits (s.reg 0x38000) 0 13 ∧ bits (s.reg 0x38000) 0 13 ≤ 4096) ∧
    (opened ready = true ∧ ready.sec.spdm.busy = false ∧ ¬ (ready.boot.stage = .ready ∧ 0 < bits (ready.reg 0x38000) 0 13 ∧ bits (ready.reg 0x38000) 0 13 ≤ 4096)) ∧
    (let s : State := { ready with sec := { spdm := { queue := [(none, 0, [1])] } } }
     s.running = true ∧ s.sec.spdm.queue = (none, 0, [1]) :: []) := by decide +kernel

theorem test_hyp_FaultReports :
    (let s := made ready
     opened s = true ∧ s.mayInject = false) ∧
    (let s : State := { ready with fuses := { bench := false, test := true, serial := 0, key := 0, made := 0, caSig := 0 }, boot := { stage := .ready, testmode := true } }
     opened s = true ∧ s.mayInject = true) ∧
    (let s : State := { ready with fc := { pulse := some 0 } }
     (ready.strike 0 0).fc.safe = false ∧ (ready.strike 0 0).obs.curfew.on = false ∧ (curfewed.strike 0 0).fc.safe = false ∧
       (curfewed.strike 0 0).obs.curfew.on = true ∧ (safed.strike 63 0).fc.safe = true ∧
       ({ ready with obs := { curfew := { late := [(63, 1)] } } } : State).obs.curfew.late = (63, 1) :: [] ∧
       s.fc.pulse = some 0 ∧ 0 + 5 * max 500 (min 10000 (bits (s.reg 0x10038) 0 14)) ≤ s.clk.up + 5 * 10000 ∧
       s.clk.up + 5 * 499 < 0 + 5 * max 500 (min 10000 (bits (s.reg 0x10038) 0 14))) ∧
    (let p : Pkt := { op := 0x23, dst := 5, ptag := 0xFFFF }
     let q : Pkt := { op := 0x23, dst := 5, ptag := 1 }
     let s (p : Pkt) : State := { tagged with links := [(23, { data with inbox := [{ pkt := p }] })] }
     (s p).running = true ∧ ((s p).inboxOf 23).find? (fun q => decide (q.op.toNat = 0x23 ∧ q.dst = (s p).chip)) = some p ∧ p.ptag = (s p).p0Tag ∧
       ((s q).inboxOf 23).find? (fun r => decide (r.op.toNat = 0x23 ∧ r.dst = (s q).chip)) = some q ∧ q.ptag ≠ (s q).p0Tag) := by decide +kernel

theorem test_hyp_FaultRecorded : srcClass (0 : Fin 64).val ≠ 0 ∧ ready.fc.first.valid = false ∧
    (∃ n : Fin 64, srcClass n.val = 3) ∧ safed.fc.safe = true ∧ ({ ready with fc := { first := { valid := true } } } : State).fc.first.valid = true := by
  decide

theorem test_hyp_FirstCapture :
    let l := [0, 1]
    (∀ n ∈ l, n < 64 ∧ srcClass n ≠ 0) ∧ l.Nodup ∧ l ≠ [] ∧ ready.fc.first.valid = false ∧
      (∃ n ∈ l, ∀ m ∈ l, m ≠ n → srcClass m < srcClass n ∨ srcClass m = srcClass n ∧ n < m) ∧ opened ready = true := by decide

theorem test_hyp_Escalation :
    (srcClass 0 ≠ 0 ∧ srcClass 0 ≠ 3 ∧ bit (ready.reg 0x10058) 0 = false ∧
      bit (({ ready with win := [(0x10058, BitVec.allOnes 64)] } : State).reg 0x10058) 0 = true) ∧
    ((List.range 64).any fun n => decide (srcClass n = 3)) = true ∧ ((List.range 64).any fun n => decide (srcClass n = 0)) = true ∧
    ready.fc.first.valid = false := by decide

/-- Queue 8191 as given, with a quota of 8,192 queues for P0. -/
def queued (d : Queue) : State := { ready with win := [(0x31008, 0x8002002020100000)], queues := [(8191, d)] }
/-- A bound FIFO queue and a bound PROGRAM queue of P0, of one line. -/
def fifo (st : QSt) : Queue := { bind := fields [(63, 1, 1)], ring := 0x10000000000, st := st }
def prog (st : QSt) : Queue := { bind := fields [(63, 1, 1), (52, 1, 1)], ring := 0x10000000000, st := st }

theorem test_hyp_QueueBinding :
    let s := queued { ring := 0x10000000000 }
    let t := queued (fifo .halted)
    opened s = true ∧ (s.queue 8191).st = .unbound ∧
      ((s.queue 8191).withWord 0 0x8000000000000000).valid = true ∧ s.bindErr 8191 ((s.queue 8191).withWord 0 0x8000000000000000) = 0 ∧
      ready.bindErr 8191 ((ready.queue 8191).withWord 0 0x8000000000000000) = 1 ∧
      ((queued (fifo .active)).queue 8191).st ≠ .unbound ∧ (queued (fifo .active)).resting 8191 = false ∧ (2 : Fin 3) ≠ 0 ∧
      (t.queue 8191).st ≠ .unbound ∧ t.resting 8191 = true ∧ t.bindErr 8191 ((t.queue 8191).withWord 0 0x8000000000000000) = 0 ∧
      t.bindErr 8191 ((t.queue 8191).withWord 1 0x10000000000) = 0 ∧ t.bindErr 8191 ((t.queue 8191).withWord 2 0) = 0 := by decide +kernel

theorem test_hyp_QueueControl :
    (∀ st ∈ [QSt.idle, .ready, .active, .halted, .faulted],
      opened (queued (fifo st)) = true ∧ ((queued (fifo st)).queue 8191).bad = false ∧
        ((queued (fifo st)).queue 8191).st = st ∧ ((queued (fifo st)).queue 8191).program = false ∧
        ((queued (prog st)).queue 8191).st = st ∧ ((queued (prog st)).queue 8191).program = true) ∧
      ((queued { fifo .idle with tail := 1 }).queue 8191).cnt ≠ ((queued { fifo .idle with tail := 1 }).queue 8191).tail := by decide

theorem test_hyp_Doorbells :
    let s := queued { fifo .idle with head := 0xFFFFFFFE, tail := 0xFFFFFFFF, cnt := 0xFFFFFFFF }
    let t := queued (prog .idle)
    let u := queued (prog .waiting)
    opened s = true ∧ s.ownsQueue 0 8191 = true ∧ s.ownsQueue 15 8191 = false ∧ (s.queue 8191).program = false ∧
      (s.queue 8191).st ≠ .unbound ∧
      (((2 : BitVec 32) - (s.queue 8191).head).toNat ≤ (s.queue 8191).size ∧
        ((s.queue 8191).tail - (s.queue 8191).head).toNat ≤ ((2 : BitVec 32) - (s.queue 8191).head).toNat) ∧
      ¬ (((3 : BitVec 32) - (s.queue 8191).head).toNat ≤ (s.queue 8191).size) ∧
      t.ownsQueue 0 8191 = true ∧ (t.queue 8191).program = true ∧ (t.queue 8191).st = .idle ∧
      u.ownsQueue 0 8191 = true ∧ (u.queue 8191).program = true ∧ (u.queue 8191).st ≠ .idle ∧ (u.queue 8191).st ≠ .unbound := by decide

/-- SETG g15 with the largest immediate. -/
def setgWord : BitVec 128 := insnWord 0 0 { d := 15, y := BitVec.allOnes 64 }

theorem test_hyp_Stewards :
    (let s : State := { ready with stws := [(63, { cur := some 8191 })] }
     opened s = true ∧ (s.stw 63).cur.isSome = true) ∧
    ((ready.stw 63).cur = none ∧ (ready.stw 63).ctxs = []) ∧
    (queued { fifo .ready with tail := 1 }).pick 0 = .claim 8191 ∧
    ((ask setgWord).pick 63 = .run 8191 setgWord ∧ (insnBody 0 0).isSome = true) ∧
    ((ask (insnWord 15 255 {})).pick 63 = .run 8191 (insnWord 15 255 {}) ∧ (insnBody 15 255).isNone = true) ∧ ready.pick 63 = .none ∧
    (let j : Job := { id := 0, what := .ringLine 63 8191 0, left := 0 }
     let s : State := { ready with jobs := [j] }
     s.running = true ∧ s.jobs = j :: [] ∧ j.left = 0 ∧ j.status = stOk) := by decide +kernel

theorem test_hyp_SyncObjects :
    let s : State := { ready with syncs := [(4095, { alloc := true, part := 1, waiters := [0] })] }
    let f : State := { ready with win := [(0x31008, 0)] }
    opened s = true ∧ f.syncFull 4095 0 = true ∧ (f.sync 4095).alloc = false ∧ (s.sync 4095).alloc = true ∧
      (s.sync 4095).waiters ≠ [] ∧ (s.sync 4095).part ≠ 0 ∧
      ¬ ((true = true ∧ (s.sync 4095).alloc = false ∧ s.syncFull 4095 1 = true) ∨ (true = false ∧ (s.sync 4095).waiters ≠ []) ∨
        ((s.sync 4095).alloc = true ∧ (s.sync 4095).part ≠ 1)) ∧
      s.syncOwned 4095 1 = true ∧ s.syncOwned 4095 0 = false ∧ (ready.sync 4095).bad = false ∧ (ready.sync 4095).waiters = [] ∧
      ready.tables.menu = [] := by decide

/-! ### Hypotheses are met: instructions -/

/-- `placed` as member (0, 0) of group 511, of two rows and two columns: chips 5 and 6, then 7 and 8; its tree parent is chip 6, its
child chip 7. -/
def grouped : State :=
  { placed with tables :=
      { inn := placed.tables.inn, smv := [(0x7FC0, fields [(63, 1, 1), (49, 10, 1), (45, 4, 1), (22, 7, 1)]), (0x10000, 0x0008000700060005)]
        sip := [(0xFF80, fields [(63, 1, 1), (48, 11, 6), (40, 6, 1)]), (0xFFC0, 7)] } }

/-- Steward 63 holds queue 8191 of P0 at an instruction, on the block `grouped`; P0 owns sync object 4095 of value 7. `bind` are
fields of the queue's descriptor. -/
def asked (cls op : Nat) (w : Fields) (regs : List Word := List.replicate 16 0) (bind : List (Nat × Nat × Nat) := []) : State :=
  { ask (insnWord cls op w) 0 regs with
    plan := placed.plan, tables := grouped.tables, win := placed.win ++ [(0x31108, 0x8002000020100000)], syncs := [(4095, { value := 7, alloc := true })]
    queues := [(8191, { bind := fields ((63, 1, 1) :: bind), ring := 0x10000000000, st := .ready, tail := 1 })] }
/-- That instruction is the steward's choice. -/
def runs (cls op : Nat) (w : Fields) (s : State) : Bool := decide (s.pick 63 = .run 8191 (insnWord cls op w))
/-- The block once the steward has begun it. -/
def began (cls op : Nat) (w : Fields) (s : State) : State := s.begin 63 8191 (insnWord cls op w)
/-- g15 as given, the others 0. -/
def g15 (v : Word) : List Word := List.replicate 15 0 ++ [v]

theorem test_hyp_ControlInsns :
    (let w : Fields := { d := 15, y := BitVec.allOnes 64 }
     runs 0 0 w (asked 0 0 w) = true ∧ w.only true false false false 0 0 yAll = true) ∧
    (let w : Fields := { d := 15, a := 15, b := 15, f := 1, y := BitVec.allOnes 64 }
     runs 0 1 w (asked 0 1 w) = true ∧ w.only true true true false 1 0 yAll = true ∧ w.flag 0 = true) ∧
    (let w : Fields := { x := 0x3FFFFF }
     runs 0 2 w (asked 0 2 w) = true ∧ w.only false false false false 0 destMask = true) ∧
    (∀ f ∈ [(0 : BitVec 4), 1],
      let w : Fields := { a := 15, f := f, x := 0x3FFFFF, y := 1 }
      let s := asked 0 3 w (g15 1)
      let t := asked 0 3 w
      runs 0 3 w s = true ∧ runs 0 3 w t = true ∧ w.only false true false false 1 destMask yAll = true ∧
        (began 0 3 w s).gA 8191 w &&& 1 ≠ 0 ∧ (began 0 3 w t).gA 8191 w &&& 1 = 0) ∧
    (let w : Fields := { a := 15, x := 0x3FFFFF }
     runs 0 4 w (asked 0 4 w (g15 2)) = true ∧ runs 0 4 w (asked 0 4 w (g15 1)) = true ∧ w.only false true false false 0 destMask = true ∧
       1 < ((began 0 4 w (asked 0 4 w (g15 2))).gA 8191 w).toNat ∧ ((began 0 4 w (asked 0 4 w (g15 1))).gA 8191 w).toNat ≤ 1) ∧
    (let w : Fields := {}
     runs 0 5 w (asked 0 5 w) = true ∧ runs 0 5 w (asked 0 5 w (g15 0) [(52, 1, 1)]) = true ∧ w.only false false false false 0 0 = true ∧
       (((began 0 5 w (asked 0 5 w)).retire 8191 []).queue 8191).program = false ∧
       (((began 0 5 w (asked 0 5 w (g15 0) [(52, 1, 1)])).retire 8191 []).queue 8191).program = true ∧
       runs 0 6 w (asked 0 6 w) = true ∧ ((began 0 6 w (asked 0 6 w)).ctxOf 8191).map (·.1) = some 63) ∧
    (let d := { fifo .active with tail := 3 }
     (d.size ≤ 4 ∧ (3 < (prog .active).size ∧ (prog .active).program = true) ∧ 3 < d.size ∧ d.program = false ∧
       (0 < (2 + d.size - d.pc) % d.size ∧ (2 + d.size - d.pc) % d.size < (d.tail - d.cnt).toNat) ∧
       ¬ (0 < (3 + d.size - d.pc) % d.size ∧ (3 + d.size - d.pc) % d.size < (d.tail - d.cnt).toNat))) := by decide +kernel

theorem test_hyp_RetireWritesOneRegister :
    let s := asked 0 0 {}
    s.ctxOf 8191 = some (63, 7, { queue := 8191, regs := g15 0 }) ∧ ({ queue := 8191, regs := g15 0 } : Ctx).loading = false ∧ (g15 0).length = 16 ∧
      15 < 16 ∧ ((s.stw 63).ctxs.map (·.1)).Nodup := by decide +kernel

/-- Registers g0, g1, g2 as given, the others 0. -/
def g012 (a b c : Word) : List Word := [a, b, c] ++ List.replicate 13 0

theorem test_hyp_MoveInsns :
    let w : Fields := { a := 1, b := 2 }
    let half : Word := 0x100000
    let base : Word := 0x01FFC00000000000
    let whole : Word := 0x200000
    ((asked 1 0 w).queue 8191).present = none ∧
      (∀ op ∈ [0, 1, 2], runs 1 op w (asked 1 op w) = true ∧ w.only true true true false 0 0 = true ∧
        (began 1 op w (asked 1 op w)).gB 8191 w = 0 ∧
        bits ((began 1 op w (asked 1 op w (g012 0 0 0x10000000000))).gB 8191 w) 40 24 ≠ 0) ∧
      (let s := asked 1 0 w (g012 base (base + half) half)
       let b := began 1 0 w s
       runs 1 0 w s = true ∧ 0 < (b.gB 8191 w).toNat ∧ (b.gB 8191 w).toNat < 2 ^ 40 ∧
         overlaps (b.gD 8191 w) (b.gA 8191 w) (b.gB 8191 w).toNat = false ∧
         b.issueCheck (b.queue 8191).part (b.gD 8191 w) (b.gB 8191 w).toNat 1 = stOk ∧
         b.issueCheck (b.queue 8191).part (b.gA 8191 w) (b.gB 8191 w).toNat 0 = stOk) ∧
      (let s := asked 1 1 w (g012 base 0 whole)
       let b := began 1 1 w s
       runs 1 1 w s = true ∧ b.issueCheck (b.queue 8191).part (b.gD 8191 w) (b.gB 8191 w).toNat 1 = stOk ∧
         b.localCheck (b.queue 8191).part (b.gA 8191 w) (b.gB 8191 w).toNat 0 = stOk) ∧
      (let s := asked 1 2 w (g012 0 base whole)
       let b := began 1 2 w s
       runs 1 2 w s = true ∧ b.localCheck (b.queue 8191).part (b.gD 8191 w) (b.gB 8191 w).toNat 1 = stOk ∧
         b.issueCheck (b.queue 8191).part (b.gA 8191 w) (b.gB 8191 w).toNat 0 = stOk) ∧
      (let v : Fields := { b := 12, x := 32 }
       let s := asked 1 3 v (g012 (base + whole - 32) 0 0)
       let b := began 1 3 v s
       runs 1 3 v s = true ∧ (v.only true false true false 0 0x3F && decide (bits v.x 0 6 ≤ 32 ∧ v.b.toNat + (bits v.x 0 6 + 7) / 8 ≤ 16)) = true ∧
         0 < bits v.x 0 6 ∧ oneLine (b.gD 8191 v).toNat (bits v.x 0 6) = true ∧
         b.issueCheck (b.queue 8191).part (b.gD 8191 v) (bits v.x 0 6) 1 = stOk ∧
         runs 1 3 {} (asked 1 3 {}) = true ∧ bits ({} : Fields).x 0 6 = 0) ∧
      (let v : Fields := { a := 1, b := 2, f := 1 }
       let s := asked 1 4 v (g012 base 0 whole)
       let b := began 1 4 v s
       runs 1 4 v s = true ∧ v.only true true true false 1 0 = true ∧ 0 < (b.gB 8191 v).toNat ∧ rackGlobal (b.gD 8191 v) = true ∧
         b.issueCheck (b.queue 8191).part (b.gD 8191 v) (b.gB 8191 v).toNat 1 = stOk ∧
         (began 1 4 v (asked 1 4 v)).gB 8191 v = 0) := by decide +kernel

theorem test_hyp_MoveInsns_fill :
    let v : Fields := { a := 1, b := 2, f := 1 }
    let sel (d : Word) := bits ((began 1 4 v (asked 1 4 v (g012 d 0 1))).gD 8191 v) 56 8
    sel 0x00FFFFFFFFFFFFFF = 0 ∧ sel 0x0200000000000000 = 2 ∧ sel 0xFF00000000000000 = 255 := by decide +kernel

theorem test_hyp_AtomicInsns :
    ∀ e ∈ [(AtomOp.aadd, 0, 0x183), (.amin, 1, 0x182), (.amax, 2, 0x091), (.aand, 3, 3), (.aor, 4, 0), (.axor, 5, 1), (.aswp, 6, 2),
        (.acas, 7, 3)],
      let w : Fields := { d := 15, a := 1, b := 2, c := if e.1 = .acas then 3 else 0, x := BitVec.ofNat 32 e.2.2 }
      let s := asked 2 e.2.1 w (g012 0 0x01FFC000001FFFF8 0)
      let t := asked 2 e.2.1 w (g012 0 0x01FFC000001FFFFF 0)
      let b := began 2 e.2.1 w s
      let k := 2 ^ bits w.x 0 2
      runs 2 e.2.1 w s = true ∧ runs 2 e.2.1 w t = true ∧
        (w.only true true true (decide (e.1 = .acas)) 0 0x1F3 && atomAccepts e.1 (bits w.x 4 4) (bits w.x 0 2) (bit w.x 8)) = true ∧
        (b.gA 8191 w).toNat % k = 0 ∧ b.issueCheck (b.queue 8191).part (b.gA 8191 w) k 2 = stOk ∧
        (k ≠ 1 → ((began 2 e.2.1 w t).gA 8191 w).toNat % k ≠ 0) := by decide +kernel

theorem test_hyp_SyncInsns :
    (let w : Fields := { a := 15, f := 3, x := 0xFFF, y := BitVec.allOnes 64 }
     let r : Req := { id := 9, who := .insn 8191 0, pkt := { op := 0x81 }, write := true }
     let s := asked 3 0 w
     let b := began 3 0 w s
     let c := began 3 0 w { s with reqs := [r] }
     runs 3 0 w s = true ∧ runs 3 0 w { s with reqs := [r] } = true ∧ runs 3 0 w { s with syncs := [] } = true ∧
       w.only false true false false 3 0xFFF yAll = true ∧ (began 3 0 w { s with syncs := [] }).syncOwned 4095 0 = false ∧
       b.syncOwned (bits w.x 0 12) (b.queue 8191).part = true ∧ (b.sync (bits w.x 0 12)).bad = false ∧ b.written 8191 = true ∧
       c.written 8191 = false ∧ c.quiet 8191 = false ∧ b.quiet 8191 = true) ∧
    (∀ e ∈ [(0, 7, 8), (1, 7, 8), (2, 8, 7)],
      let w (v : Nat) : Fields := { f := BitVec.ofNat 4 e.1, x := 0xFFF, y := BitVec.ofNat 64 v }
      runs 3 1 (w e.2.1) (asked 3 1 (w e.2.1)) = true ∧
        ((w e.2.1).only false true false false 7 0xFFF yAll && decide (bits (w e.2.1).f 0 2 ≠ 3)) = true ∧
        waitHolds e.1 ((asked 3 1 (w e.2.1)).sync 4095).value (BitVec.ofNat 64 e.2.1) = true ∧
        waitHolds e.1 ((asked 3 1 (w e.2.2)).sync 4095).value (BitVec.ofNat 64 e.2.2) = false) ∧
    (let w : Fields := { a := 15, f := 3, x := 0x7FF0FFF, y := 1 }
     runs 3 2 w (asked 3 2 w) = true ∧ w.only false true false false 3 0x7FF0FFF yAll = true) ∧
    (runs 3 3 {} (asked 3 3 {}) = true ∧ ({} : Fields).only false false false false 0 0 = true) := by decide +kernel

/-- The fields of a communication queue of group 511. -/
def comm : List (Nat × Nat × Nat) := [(51, 1, 1), (42, 9, 511)]

theorem test_hyp_CollectiveInsns :
    (∀ op ∈ [0, 1],
      let w : Fields := { a := 0, b := 1, c := 2, x := 0x101FF, y := 0xFFF }
      let s := asked 4 op w (g012 0 0x1000 0x400) comm
      let b := began 4 op w s
      let z := began 4 op w (asked 4 op w (g012 0 0 0) comm)
      runs 4 op w s = true ∧ runs 4 op w (asked 4 op w) = true ∧ (w.only false true true true 0 0x1F1FF 0xFFF && b.fmtValid (bits w.x 12 4)) = true ∧
        ¬ (((began 4 op w (asked 4 op w)).queue 8191).comm = true) ∧ (b.queue 8191).comm = true ∧ (b.queue 8191).group = bits w.x 0 9 ∧
        gValid b.smvTab 511 = true ∧ gPart b.smvTab 511 = (b.queue 8191).part ∧ b.syncOwned (bits w.y 0 12) (b.queue 8191).part = true ∧
        (b.sync (bits w.y 0 12)).bad = false ∧
        ¬ ((b.gA 8191 w).toNat < (b.gB 8191 w).toNat + 4096 ∧ (b.gB 8191 w).toNat < (b.gA 8191 w).toNat + 4096) ∧
        ((b.gC 8191 w).toNat * (b.fmt 0).width + 7) / 8 = 4096 ∧ b.localCheck (b.queue 8191).part (b.gA 8191 w) 4096 0 = stOk ∧
        b.localCheck (b.queue 8191).part (b.gB 8191 w) 4096 1 = stOk ∧ (z.gC 8191 w).toNat = 0) ∧
    (∀ k ∈ [0, 32],
      let w : Fields := { d := 12, a := 12, f := 2, x := BitVec.ofNat 32 (k * 4096 + 2 * 512 + 511) }
      let s := asked 4 2 w (g15 0) comm
      let b := began 4 2 w s
      runs 4 2 w s = true ∧
        (w.only true true false false 3 0x3FFFF && decide (bits w.x 9 2 ≠ 3 ∧ bits w.f 0 2 ≠ 3 ∧ bits w.x 12 6 ≤ 32) &&
          decide (bits w.x 12 6 % (if bits w.x 9 2 = 2 then 8 else 4) = 0) &&
          decide (w.a.toNat + (bits w.x 12 6 + 7) / 8 ≤ 16 ∧ w.d.toNat + (bits w.x 12 6 + 7) / 8 ≤ 16)) = true ∧
        bits w.x 12 6 = k ∧ (b.queue 8191).comm = true ∧ (b.queue 8191).group = 511 ∧ tValid b.sipTab 511 = true) ∧
    (let w : Fields := { x := 0x1FF }
     runs 4 3 w (asked 4 3 w (g15 0) comm) = true ∧ w.only false false false false 0 0x1FF = true) ∧
    (let w : Fields := { d := 15, a := 0, b := 1, c := 2, x := 0x11FF }
     let s := asked 4 4 w (g012 0 0x400 0x3F800000) comm
     let b := began 4 4 w s
     runs 4 4 w s = true ∧ (w.only true true true true 0 0xF1FF && b.fmtValid 1 && narrowFmt 1 (b.fmt 1)) = true ∧ bits w.x 12 4 = 1 ∧
       (b.queue 8191).comm = true ∧ (b.queue 8191).group = bits w.x 0 9 ∧ tValid b.sipTab (bits w.x 0 9) = true ∧
       b.localCheck (b.queue 8191).part (b.gA 8191 w) 2048 0 = stOk ∧ b.localCheck (b.queue 8191).part (b.gA 8191 w) 2048 1 = stOk ∧
       ((b.gB 8191 w).toNat * (b.fmt 1).width + 7) / 8 = 2048 ∧
       ((began 4 4 w (asked 4 4 w (g15 0) comm)).gB 8191 w).toNat = 0) := by decide +kernel

theorem test_hyp_PlacementInsns :
    (∀ e ∈ [(kPin, 0), (kUnpin, 1), (kMigr, 2), (kRepl, 3), (kUnrepl, 4)],
      let w : Fields := { d := 15, a := 1, b := if e.1 = kUnpin then 0 else 2, f := 3, x := 0x0005 * 65536 + 0xFFF }
      let s := asked 5 e.2 w (g012 0 0x01FFC000001FFFFF 2047)
      let b := began 5 e.2 w s
      runs 5 e.2 w s = true ∧ w.only true true (decide (e.1 ≠ kUnpin)) false 3 0x7FF0FFF = true ∧ bits (b.gB 8191 w) 11 53 = 0 ∧
        b.placeCheck 8191 (b.gA 8191 w) = stOk ∧ w.flag 1 = true ∧ bits w.x 16 11 = b.chip.toNat ∧
        b.syncOwned (bits w.x 0 12) (b.queue 8191).part = true ∧ (b.sync (bits w.x 0 12)).bad = false) ∧
    (let w : Fields := { a := 1, b := 2 }
     let s := asked 5 5 w (g012 0 0x01FFC00000000000 1)
     let t := asked 5 5 w
     let u := asked 5 5 w (g012 0 0x01FFC00000200000 (BitVec.allOnes 64))
     runs 5 5 w s = true ∧ runs 5 5 w t = true ∧ runs 5 5 w u = true ∧ w.only false true true false 0 0 = true ∧ (began 5 5 w t).gB 8191 w = 0 ∧
       (began 5 5 w s).gB 8191 w ≠ 0 ∧ (began 5 5 w s).placeCheck 8191 ((began 5 5 w s).gA 8191 w) = stOk ∧
       (began 5 5 w u).placeCheck 8191 ((began 5 5 w u).gA 8191 w) = stBadaddr) ∧
    (bits (0x00FFC00000000000 : Word) 56 8 = 0 ∧ bits lastByte 56 8 ≠ 0 ∧ placed.issueCheck (placed.queue 0).part lastByte 1 0 = stOk ∧
      placed.issueCheck (placed.queue 0).part (lastByte + 1) 1 0 ≠ stOk) ∧
    (let s : State := { placed with queues := [(0, fifo .active), (1, { fifo .active with bind := fields [(63, 1, 1), (59, 4, 1)] })]
                                    parts := [(0, { valid := true }), (1, { valid := true, tag := 1 })]
                                    win := [(0x323F8, 0xF000000000000000)] }
     s.issueCheck (s.queue 1).part lastByte 1 0 = stOk ∧ ¬ ((s.queue 1).part = 0 ∨ s.segOwner (keySeg (pageKey lastByte)) = (s.queue 1).part)) := by
  decide +kernel

theorem test_hyp_TableInsns :
    ∀ n ∈ [1, 9],
      let w : Fields := { a := 1, b := 2, c := 3, x := BitVec.ofNat 32 n }
      let regs (k o : Nat) : List Word := [0, 0x1000, BitVec.ofNat 64 k, BitVec.ofNat 64 o] ++ List.replicate 12 0
      let s := asked 6 0 w (regs 8 (bankExtent n - 8))
      let b := began 6 0 w s
      let t := asked 6 0 w (regs 0 (bankExtent n))
      let u := asked 6 0 w (regs 8 (bankExtent n))
      let z := asked 6 0 w (regs 8 0) [(59, 4, 1)]
      let v : Fields := { x := BitVec.ofNat 32 n }
      runs 6 0 w s = true ∧ runs 6 0 w t = true ∧ runs 6 0 w u = true ∧ runs 6 0 w z = true ∧ 1 ≤ bits w.x 0 8 ∧ bits w.x 0 8 ≤ 9 ∧
        w.only false true true true 0 0xFF = true ∧ (b.queue 8191).part = 0 ∧ ((began 6 0 w z).queue 8191).part ≠ 0 ∧
        ((b.gC 8191 w).toNat + (b.gB 8191 w).toNat ≤ bankExtent (bits w.x 0 8) ∧ (b.gB 8191 w).toNat = 8 ∧
          b.localCheck 0 (b.gA 8191 w) 8 0 = stOk) ∧
        ((began 6 0 w t).gB 8191 w).toNat = 0 ∧
        ¬ (((began 6 0 w u).gC 8191 w).toNat + ((began 6 0 w u).gB 8191 w).toNat ≤ bankExtent (bits w.x 0 8)) ∧
        runs 6 1 v (asked 6 1 v) = true ∧ runs 6 1 v (asked 6 1 v (g15 0) [(59, 4, 1)]) = true ∧
        v.only false false false false 0 0xFF = true := by decide +kernel

theorem test_hyp_LaneInsns :
    (∀ f ∈ [(0 : BitVec 4), 1, 2, 3],
      let w : Fields := { d := 15, f := f, x := 0x0FFF005F }
      runs 7 0 w (asked 7 0 w) = true ∧ (w.only true false false false 3 laneX && decide (bits w.x 0 7 ≤ 95)) = true ∧
        ((began 7 0 w (asked 7 0 w)).queue 8191).part = 0) ∧
    (let w : Fields := { d := 15, x := 95, y := 0x3FFFF }
     runs 7 1 w (asked 7 1 w) = true ∧ (w.only true false false false 0 0x7F 0x3FFFF && decide (bits w.x 0 7 ≤ 95)) = true) ∧
    (let w : Fields := { d := 15, f := 2, x := 0x0FFF005F, y := 0xFFFFFF }
     runs 7 2 w (asked 7 2 w) = true ∧ (w.only true false false false 2 laneX 0xFFFFFF && decide (bits w.x 0 7 ≤ 95)) = true) ∧
    (∀ f ∈ [(1 : BitVec 4), 5],
      let w : Fields := { d := 15, f := f, x := 95, y := 0xFF0003 }
      runs 7 3 w (asked 7 3 w) = true ∧ (w.only true false false false 5 0x7F 0xFF0003 && decide (bits w.x 0 7 ≤ 95)) = true) ∧
    (let w : Fields := { f := 1, x := 23 }
     runs 7 4 w (asked 7 4 w) = true ∧ (w.only false false false false 1 0x1F && decide (bits w.x 0 5 ≤ 23)) = true) ∧
    (∀ f ∈ [(0 : BitVec 4), 1],
      let w : Fields := { d := 15, a := 15, f := f, x := 0x17007FF8 }
      let v : Fields := { d := 15, a := 15, f := f, x := 0xDF001FF8 }
      runs 7 5 w (asked 7 5 w) = true ∧ w.only true true false false 1 0xFF007FFF = true ∧ linksetAddr w = some 0x1BFFF8 ∧
        runs 7 5 v (asked 7 5 v) = true ∧ v.only true true false false 1 0xFF007FFF = true ∧ linksetAddr v = some 0x2BFFF8) ∧
    (∀ op ∈ [0, 1, 2, 3, 4, 5],
      let s := asked 7 op {} (g15 0) [(59, 4, 1)]
      runs 7 op {} s = true ∧ ((began 7 op {} s).queue 8191).part ≠ 0) := by decide +kernel

theorem test_hyp_ObservationInsns :
    let w : Fields := { a := 15, x := 0xFFFFFFFF }
    let s := asked 8 0 w
    let menu : Tables := { menu := [(16352, 0x80000000FFFFFFFF)] }
    let t : State := { s with tables := menu }
    let u := asked 8 0 w (g15 0) [(59, 4, 1)]
    runs 8 0 w s = true ∧ runs 8 0 w t = true ∧ runs 8 0 w u = true ∧ w.only false true false false 0 (2 ^ 32 - 1) = true ∧
      ((began 8 0 w u).queue 8191).part = 1 ∧ ((began 8 0 w u).part 1).tasteOk = false ∧ ((began 8 0 w s).queue 8191).part = 0 ∧
      (began 8 0 w s).menuFind none 0xFFFFFFFF = none ∧ (began 8 0 w t).menuFind none 0xFFFFFFFF = some 511 ∧
      (let r : State := { asked 8 1 w with win := [(0x20010, BitVec.allOnes 64)], obs := { trace := { recording := true } } }
       runs 8 1 w (asked 8 1 w) = true ∧ (began 8 1 w (asked 8 1 w)).obs.trace.recording = false ∧ runs 8 1 w r = true ∧
         (began 8 1 w r).obs.trace.recording = true ∧ (began 8 1 w r).traceSrc 0 = true) := by decide +kernel

theorem test_hyp_UnusedFieldsFault :
    (let w : Fields := { c := 1 }
     runs 0 0 w (asked 0 0 w) = true ∧ w.only true false false false 0 0 yAll = false) ∧
    (let w : Fields := { y := 1 }
     ∀ e ∈ [(0, 2), (0, 5), (1, 0), (2, 7), (3, 3), (4, 3), (5, 5), (6, 1), (8, 0), (8, 1)],
       runs e.1 e.2 w (asked e.1 e.2 w) = true ∧ w.only true true true true 15 (2 ^ 32 - 1) = false) := by decide +kernel

/-! ### Hypotheses are met: packets, timers, groups, observation -/

/-- `tagged` with packets received on link 23. -/
def received (l : List Pkt) (s : State := tagged) : State := { s with links := [(23, { data with inbox := l.map fun p => { pkt := p } })] }
/-- A flow that expects number `e`, of chip 7 on a VC. -/
def flowing (vc e : Nat) (s : State) : State := { s with flowsIn := [(flowKey 7 vc, { e := BitVec.ofNat 12 e, synced := true })] }
/-- An ordered packet of chip 7 with a sequence number. -/
def ordered (op : BitVec 8) (tag : Nat) (p : Pkt) : Pkt := { p with op := op, src := 7, tag := BitVec.ofNat 12 tag, sqm := 1 }
/-- Toll gates 0 and 1 of P0 meter, with `n` bytes in the peak bucket. -/
def gated (n : Nat) (s : State) : State :=
  { s with tables := { s.tables with sched := [(0x60000, 0x8000000000000000), (0x60020, 0x8000000000000000)] }, gates := [(0, { tp := n }), (1, { tp := n })] }

theorem test_hyp_OrderedFlows :
    (∀ op ∈ [(0x80 : BitVec 8), 0x81, 0x88, 0x90, 0x91, 0x9F, 0xE0, 0xE1, 0xF0, 0xF1],
      let p := ordered op 4095 (rdPkt 0xFFFF)
      let chk (e : Nat) (s : State) := ((flowing p.vc e s).consume 23 p).orderCheck 23 p
      (received [p]).admits = true ∧ (flowing p.vc 0 (received [p])).headOf 23 (fun o => o == op.toNat) = some p ∧
        (chk 4095 (received [p])).1 = .pass ∧ (23 < 24 ∧ p.sqm ≠ 3 ∧ (p.vc = 4 ∨ p.vc = 7)) ∧
        ((chk 4095 (gated 65535 (received [p]))).2.toll 23 p).2 = false ∧ ((chk 4095 (gated 0 (received [p]))).2.toll 23 p).2 = true ∧
        (chk 2048 (received [p])).1 = .retry ∧ (chk 2047 (received [p])).1 = .behind ∧
        ((received [p]).orderCheck 23 p).1 = .resync) ∧
    (let p : Pkt := { op := 0xCC }
     (received [p]).headOf 23 (fun o => o == (0xCC : Nat)) = some p ∧ ((received [p]).orderCheck 23 p).1 = .pass ∧
       ¬ (23 < 24 ∧ p.sqm ≠ 3 ∧ (p.vc = 4 ∨ p.vc = 7))) ∧
    (let p := ordered 0x80 0 (rdPkt 1)
     let s : State := { tagged with own := [p] }
     s.headOf 24 (fun o => o == 0x80) = some p) ∧
    ((2047 : BitVec 12) - 0).toNat < 2048 ∧ 2048 ≤ ((2048 : BitVec 12) - 0).toNat ∧ ((rdPkt 1).vc = 4 ∧ (7 : Nat) = 7 ∧ (23 : Nat) ≠ 24) := by
  decide +kernel

theorem test_hyp_RequestChecks :
    ({ op := 0x80 } : Pkt).wellLaid = false ∧
    ((wrBfPkt 0xFFFF).wellLaid = true ∧ (wrBfPkt 0xFFFF).isBf = true ∧ tagged.tagPart 0xFFFE = none ∧ tagged.tagPart (wrBfPkt 0xFFFF).ptag = some 0 ∧
      tagged.tagPart 1 = some 15 ∧ tagged.bfWindow 15 (bits (wrBfPkt 1).addr 0 41) (wrBfPkt 1).span (wrBfPkt 1).right = false ∧
      tagged.bfWindow 0 0xFFFFFFFFFF 1 (wrBfPkt 0xFFFF).right = true) ∧
    ((rdPkt 0xFFFF).wellLaid = true ∧ (rdPkt 0xFFFF).isBf = false ∧ tagged.segValid (keySeg (pageKey (rdPkt 0xFFFF).addr)) = true ∧
      tagged.segPages (keySeg (pageKey (rdPkt 0xFFFF).addr)) = 1 ∧ keyPage (pageKey (rdPkt 0xFFFF).addr) = 0 ∧
      tagged.segRight 0 (keySeg (pageKey (rdPkt 0xFFFF).addr)) (rdPkt 0xFFFF).right = true ∧
      tagged.segRight 15 (keySeg (pageKey (rdPkt 0xFFFF).addr)) (rdPkt 0xFFFF).right = false ∧ (rdPkt 0xFFFF).writes = false ∧
      ready.segValid 1023 = false) := by decide +kernel

theorem test_hyp_SignalsAndCompletions :
    let p : Pkt := { op := 0x82, ptag := 0xFFFF, src := 7, len := 16, data := leBytes 8 0x1FFF ++ leBytes 8 1 }
    let bad : Pkt := { p with len := 8 }
    let stranger : Pkt := { p with ptag := 2 }
    let s : State := { received [p] with syncs := [(4095, { alloc := true })] }
    s.admits = true ∧ s.headOf 23 (fun o => o == 0x82) = some p ∧ ((s.consume 23 p).orderCheck 23 p).1 = .pass ∧
      (((s.consume 23 p).orderCheck 23 p).2.toll 23 p).2 = false ∧ p.wellLaid = true ∧ bits (word64 p.data 0) 0 12 = 4095 ∧
      ((((s.consume 23 p).orderCheck 23 p).2.toll 23 p).1.tagPart p.ptag) = some 0 ∧
      ((((s.consume 23 p).orderCheck 23 p).2.toll 23 p).1.syncOwned 4095 0) = true ∧
      (((((received [p]).consume 23 p).orderCheck 23 p).2.toll 23 p).1.syncOwned 4095 0) = false ∧
      (received [bad]).headOf 23 (fun o => o == 0x82) = some bad ∧ bad.wellLaid = false ∧
      (received [stranger]).headOf 23 (fun o => o == 0x82) = some stranger ∧ tagged.tagPart stranger.ptag = none ∧
      (received [{ op := 0x60 }]).headOf 23 (fun o => o == 0x60) = some { op := 0x60 } ∧
      (received [{ op := 0x61 }]).headOf 23 (fun o => o == 0x61) = some { op := 0x61 } := by decide +kernel

theorem test_hyp_RequestTimers :
    (let e : Onward := { pkt := { op := 0x80 }, lodging := 7, arrival := 23, sent := true }
     let s : State := { ready with onward := [(511, e)] }
     s.running = true ∧ (s.onward.find? fun x => x.1 = (511 : Fin 512).val) = some ((511 : Fin 512).val, e) ∧ e.sent = true ∧
       e.at5 + s.fabricTmo ≤ s.clk.core + 5 * 2000000) ∧
    (let r : Req := { id := 0, who := .insn 8191 0, pkt := { op := 0x80 }, stage := .backoff 5, firstAt := some 0 }
     let s : State := { ready with reqs := [r] }
     s.running = true ∧ s.req 0 = some r ∧ 5 ≤ s.clk.core + 5 * 1 ∧ r.stage ≠ .landing ∧ r.timedOut = false ∧
       0 + s.fabricTmo ≤ s.clk.core + 5 * 2000000) ∧
    (ready.admits = true ∧ ready.inn.epoch < (ready.clk.act + 5 * 1000000) / ms5 1 ∧ ready.running = true) ∧
    (let l : Placement := { id := 0, key := 0, word := 0, retryAt := some 5 }
     let s : State := { ready with inn := { placements := [l] } }
     s.admits = true ∧ (s.inn.placements.find? fun l => l.id = 0) = some l ∧ l.retryAt = some 5 ∧ 5 ≤ s.clk.core + 5 * 1) := by
  decide +kernel

theorem test_hyp_PacketRows :
    (∀ op ∈ [(0xC0 : BitVec 8), 0xC1, 0xC2, 0xC3, 0xC4, 0xC5, 0xC6, 0xC8],
      let p : Pkt := { op := op, ptag := 0xFFFF }
      (received [p]).admits = true ∧ (received [p]).headOf 23 (fun o => o == op.toNat) = some p ∧ (received [p]).openHeld 23 = false) ∧
    (let p : Pkt := { op := 0xC2, ptag := 0xFFFF }
     ({ received [p] with commit := { busy := true, code := 5, image := [(0x40, fields [(40, 20, 1)])] } } : State).openHeld 23 = true) ∧
    (∀ e ∈ [((0xA0 : BitVec 8), 6, 0x2000000, 0, 0), (0xA1, 7, 0, 0, 0), (0xA2, 7, 0, 0x200000000, 0), (0xA3, 7, 0, 0, 1)],
      let p : Pkt := { op := e.1, ptag := 0xFFFF, src := BitVec.ofNat 11 e.2.1, tag := BitVec.ofNat 12 e.2.2.2.2
                       addr := BitVec.ofNat 56 (511 * 2 ^ 47 + e.2.2.1), data := leBytes 8 e.2.2.2.1 }
      let w : Pkt := { p with src := 9 }
      let s : State := { received [p] { grouped with parts := tagged.parts } with groups := [(511, { slots := [{ num := 0, idx := 0 }] })] }
      let t : State := { s with links := [(23, { data with inbox := [{ pkt := w }] })] }
      let op := e.1.toNat
      let rack := if op = 0xA1 then true else if op = 0xA2 then bit (word64 p.data 0) 33 else if op = 0xA3 then bit p.tag 0 else false
      s.admits = true ∧ s.headOf 23 (fun o => decide (o = op ∨ o + 0x60 = op)) = some p ∧
        ((s.consume 23 p).clRefuse p rack op).isNone = true ∧
        t.headOf 23 (fun o => decide (o = op ∨ o + 0x60 = op)) = some w ∧
        ((t.consume 23 w).clRefuse w rack op).isSome = true) ∧
    (let p : Pkt := { op := 0x40 }
     (received [p]).headOf 23 (fun o => decide (o = 0xA0 ∨ o + 0x60 = 0xA0)) = some p) ∧
    (∀ op ∈ [(1 : BitVec 8), 2, 3, 4, 5, 6],
      let p : Pkt := { op := op, ptag := 0xFFFF, src := 7, dst := 5, addr := BitVec.ofNat 56 (511 * 2 ^ 47) }
      let w : Pkt := { p with dst := 4 }
      let s := received [p] { grouped with parts := tagged.parts }
      let t := received [w] { grouped with parts := tagged.parts }
      let relay : Tab Word := [(0xFF80, fields [(63, 1, 1), (61, 1, 1), (48, 11, 6), (40, 6, 1)]), (0xFF88, 0xFFFF), (0xFFC0, 7)]
      let q : Pkt := { p with tag := 0x700 }
      let r : State := { received [q] { grouped with parts := tagged.parts } with tables := { grouped.tables with sip := relay } }
      s.running = true ∧ s.headOf 23 (fun o => decide (o = op.toNat)) = some p ∧ ((s.consume 23 p).sipRefuse p).isNone = true ∧
        tRelay (s.consume 23 p).sipTab (sipGroup p) = false ∧
        r.headOf 23 (fun o => decide (o = op.toNat)) = some q ∧ ((r.consume 23 q).sipRefuse q).isNone = true ∧
        tRelay (r.consume 23 q).sipTab (sipGroup q) = true ∧ q.tag.extractLsb' 8 4 ≠ (r.consume 23 q).sipGen (sipGroup q) ∧
        t.headOf 23 (fun o => decide (o = op.toNat)) = some w ∧ ((t.consume 23 w).sipRefuse w).isSome = true) := by decide +kernel

theorem test_hyp_GroupsAndMilestone :
    (let s (g : Grp) : State := { ready with groups := [(511, g)] }
     opened ready = true ∧ ((s { st := .running }).grp 511).st = .running ∧
       ((s { st := .parking }).running = true ∧ ((s { st := .parking }).grp 511).st = .parking ∧ (s { st := .parking }).groupQuiet 511 = true ∧
         (s { st := .parking, out := [(0, [{ op := 0xA0, addr := BitVec.ofNat 56 (511 * 2 ^ 47) }])] }).groupQuiet 511 = false) ∧
       ((s { st := .parked }).grp 511).st = .parked ∧ (ready.grp 511).st ≠ .parked ∧ ((s { limit := some 10 }).grp 511).limit = some 10 ∧
       10 ≤ (s {}).clk.core + 5 * 2 ∧ (s {}).clk.core + 5 * 1 < 10) ∧
    (let s (root : Bool) : State := { ready with win := [(0x20108, 511 * 65536)], tables := { sip := [(0xFF80, fields [(63, 1, 1), (62, 1, b2n root)])] } }
     ready.msRefused = true ∧ (s true).msRefused = false ∧ tRoot (s true).sipTab (s true).msGroup = true ∧ (s false).msRefused = false ∧
       tRoot (s false).sipTab (s false).msGroup = false) ∧
    (let s (a : Bool) : State := { ready with obs := { ms := { busy := true, asking := a } } }
     (s true).running = true ∧ (s true).obs.ms.busy = true ∧ (s true).obs.ms.asking = true ∧ (s true).obs.ms.waitAt ≤ (s true).clk.core + 5 * 1 ∧
       (s false).obs.ms.busy = true ∧ (s false).obs.ms.asking = false ∧ (s false).obs.ms.waitAt ≤ (s false).clk.core + 5 * 1) := by
  decide +kernel

theorem test_hyp_CountersAndTrace :
    (opened ready = true ∧ (∀ k, ready.trigger k = ({} : Trig)) ∧ ({} : Trig).en = false ∧
      bit ready.traceCtl 63 = false ∧ bit ready.traceCtl 60 = false) ∧
    (let s : State := { ready with obs := { trace := { recording := true, fifo := [{ type_ := 1 }] } } }
     s.running = true ∧ s.obs.trace.fifo = { type_ := 1 } :: [] ∧ s.obs.trace.recording = true ∧ s.spillEn = false ∧ s.obs.curfew.on = false) := by
  refine ⟨⟨by decide, fun k => rfl, by decide, by decide, by decide⟩, by decide⟩

theorem test_hyp_TriggersAndWindows :
    let s : State := { ready with win := [(0x20048, 0x8000000000000001)] }
    opened s = true ∧ s.running = true ∧ bit (s.reg 0x20048) 63 = true ∧
      s.obs.exportAt + ms5 (max 1 (bits (s.reg 0x20048) 0 16)) ≤ (s.passNs 1000000).clk.ms := by decide +kernel

theorem test_hyp_CurfewAndTriggers :
    let s : State := { ready with obs := { trig := [(7, { curfew := true })] } }
    (s.trigger 7).curfew = true ∧ curfewed.obs.curfew.on = true ∧ s.obs.curfew.on = false ∧ s.fc.safe = false ∧ safed.fc.safe = true ∧
      safed.obs.curfew.on = false := by decide

theorem test_hyp_CurfewEntriesAndEnds :
    (opened ready = true) ∧
    (let s : State := { ready with win := [(0x20218, 0x8000000000000001)], clk := { ms := 5 } }
     bit (s.reg 0x20218) 63 = true ∧ bits (s.reg 0x20218) 0 63 ≤ (s.passNs 1).now.toNat ∧ s.obs.curfew.on = false) ∧
    (let p (t : BitVec 16) : Pkt := { op := 0x24, dst := 5, ptag := t }
     (received [p 0xFFFF]).running = true ∧
       ((received [p 0xFFFF]).inboxOf 23).find? (fun q => decide (q.op.toNat = 0x24 ∧ q.dst = (received [p 0xFFFF]).chip)) = some (p 0xFFFF) ∧
       (p 0xFFFF).ptag = (received [p 0xFFFF]).p0Tag ∧
       ((received [p 1]).inboxOf 23).find? (fun q => decide (q.op.toNat = 0x24 ∧ q.dst = (received [p 1]).chip)) = some (p 1) ∧
       (p 1).ptag ≠ (received [p 1]).p0Tag) ∧
    (ported curfewed = true ∧ curfewed.obs.curfew.on = true ∧ curfewed.obs.curfew.hold = [] ∧
      ({ curfewed with fc := { safe := true } } : State).fc.safe = true) ∧
    (let s := linked { data with ll := { resumeWait := some 5 } }
     s.running = true ∧ (s.link 23).ll.resumeWait = some 5 ∧ 5 ≤ s.clk.up + 5 * 1) := by decide +kernel

theorem test_hyp_ScanAndBench :
    (opened ready = true ∧ ready.fc.safe = false ∧ ported curfewed = true ∧ curfewed.obs.curfew.on = true ∧
      safed.fc.safe = true ∧ (made ready).fuses.bench = false) ∧
    (let s : State := { linked data with fuses := { bench := true, test := false, serial := 0, key := 0, made := 0, caSig := 0 }
                                         win := [(0x24000, fields [(51, 5, 23)]), (0x24008, 0xFFFF0000)] }
     opened s = true ∧ s.fuses.bench = true ∧ s.obs.bench.busy = false ∧ bits (s.reg 0x24000) 51 5 < 24 ∧
       s.carriesFrames (bits (s.reg 0x24000) 51 5) = true) ∧
    (let s : State := { ready with fuses := { bench := true, test := false, serial := 0, key := 0, made := 0, caSig := 0 }, obs := { bench := { busy := true } } }
     s.fuses.bench = true ∧ s.obs.bench.busy = true) := by decide +kernel

theorem test_hyp_TenancyKept :
    let s : State := { tagged with pending := [.secPartCtlWrite 15 false false false 0] }
    Tenancy s ∧ ∃ t, step s = .next t := by
  refine ⟨⟨by decide, fun p r hp hr => ?_⟩, _, rfl⟩
  have h : ∀ p r : Fin 16, p.val ≠ r.val → (tagged.part p).valid = true → (tagged.part r).valid = true →
      (tagged.part p).tag ≠ (tagged.part r).tag := by decide
  exact h ⟨p, hp⟩ ⟨r, hr⟩

theorem test_hyp_PacketsReadBack :
    let l : List Pkt := [{ op := 0x60 }, { op := 0xE1, len := 193, data := List.replicate 193 0xFF }]
    (∀ p ∈ l, p.len.toNat ≤ 224 ∧ p.data.length = p.len.toNat) ∧ (l.map Pkt.units).sum = 15 ∧
      (∀ p ∈ [({ op := 0xE1, len := 224, data := zeros 224 } : Pkt)], p.len.toNat ≤ 224 ∧ p.data.length = p.len.toNat) := by decide +kernel

/-! ### Hypotheses are met: the clauses for what is busy, absent, refused or withheld -/

theorem test_hyp_Port : (opened ready = true) ∧
    (ported curfewed = true ∧ curfewed.obs.curfew.on = true) ∧ (ported safed = true) ∧
    (({ ready with mgCmd := 0 } : State).mgCmd = 0) ∧ (State.reset.mgmtOpen = false ∧ State.reset.mgCmd ≠ 0) := by decide

theorem test_hyp_ResetsAndBoot_waits :
    (let s : State := { ready with mgCrd := 1, mgQ := [(0, 0)] }
     ported s = true ∧ s.mgCrd ≤ s.mgQ.length) ∧
    (let s : State := { State.reset with boot := { stage := .selftest } }
     s.boot.stage = .selftest ∧ (BootStage.mgmtOpen ≠ .ready)) ∧
    (∀ b t, ready.boot.stage.next (decide (ready.boot.lastReset = 0)) = some (b, t) →
      ready.pins.vwarn = true ∨ ready.clk.up + 5 * 0 < ready.boot.released + us5 t) ∧
    (let s : State := { State.reset with boot := { stage := .selftest }, pins := { vwarn := true } }
     (s.boot.stage.next (decide (s.boot.lastReset = 0))).isSome = true ∧ s.pins.vwarn = true) := by
  refine ⟨by decide, by decide, fun b t h => ?_, by decide⟩
  simp [ready, BootStage.next] at h

theorem test_hyp_PartitionAndLinkResets_held :
    (15 : PartId) ≠ 0 ∧ bit held.boot.partBusy 15 = false ∧ held.admits = false ∧ opened held = true ∧ safed.fc.safe = true ∧
      bit ({ ready with boot := { stage := .ready, partBusy := 0x8000 } } : State).boot.partBusy 15 = true := by decide

theorem test_hyp_CreditsCount_reset :
    let s : State := { ready with xings := [(192, { core := { req := true, ack := true } }), (244, { clk := { req := true, ack := true } })] }
    s.portReset (channelXing (.eCpl 0)) = true ∧ s.portReset (channelXing .mgRsp) = true ∧ s.portReset (channelXing (.eCpl 15)) = false ∧
      ready.portReset mgXing = false ∧ ready.portReset (cportXing (.m 23)) = false ∧ ready.portReset (cportXing (.s 7)) = false ∧
      ready.portReset (cportXing (.n 3)) = false := by decide

theorem test_hyp_EportCommands_queued :
    let b := beat 0 0 511 lastByte
    let s := eported { cmdCrd := 1, flight := [(0, { beat := beat 1 0 0 lastByte, stage := .needWd })] }
    let t := eported { cmdCrd := 1 }
    beatOp b = 0 ∧ (s.eport 15).cmdCrd ≠ 0 ∧ (∃ c ∈ (s.eport 15).flight, (c.2.stage = .needWd ∨ c.2.stage = .queued) ∧ c.2.early = none ∧ beatStream c.2.beat = beatStream b ∧
      (beatAddr c.2.beat).toNat / 64 = (beatAddr b).toNat / 64) ∧
    (¬ ∃ c ∈ (t.eport 15).flight, (c.2.stage = .needWd ∨ c.2.stage = .queued) ∧ c.2.early = none ∧ beatStream c.2.beat = beatStream b ∧
      (beatAddr c.2.beat).toNat / 64 = (beatAddr b).toNat / 64) ∧
    ((s.eport 15).flight.all fun c => decide (c.1 ≠ beatTag b)) = true ∧ s.fc.safe = false ∧ s.beatCheck b = stOk := by decide

theorem test_hyp_PortAnswers_credits :
    let s : State := { ready with cpRx := [] }
    let t := (ready.giveCredits)
    (∀ w, s.rxCrd (.m 23) w = 0 ∧ s.rxCrd (.n 3) w = 0) ∧ t.rxCrd (.m 23) false ≠ 0 ∧ t.rxCrd (.s 7) true ≠ 0 ∧ t.rxCrd (.n 3) false ≠ 0 ∧
      (let u : State := { curfewed with fc := { safe := true } }
       u.obs.curfew.on = false ∨ u.fc.safe = true) := by decide +kernel

theorem test_hyp_PaceRecomputed_steps :
    let l (p : BitVec 6) (n : Nat) (f : BitVec 6) : Link :=
      { data with train := { enable := true, state := 4, grade := 3, lanes := 15 }, ll := { paceLocal := p, fall := n, fallTo := f } }
    let s : State := { linked (l 0 0 0) with pins := { period := 780 } }
    let j := 9
    (s.link 23).train.width * 265625 * 2 ^ (s.link 23).train.grade.toNat * 32 * s.pins.period.toNat ≤ 528 * (32 + j) * 10 ^ 7 ∧
      (∀ i, i < j → 528 * (32 + i) * 10 ^ 7 <
        (s.link 23).train.width * 265625 * 2 ^ (s.link 23).train.grade.toNat * 32 * s.pins.period.toNat) ∧
      (l 8 0 0).ll.paceLocal < (9 : BitVec 6) ∧ (9 : BitVec 6) = (l 9 0 0).ll.paceLocal ∧
      ((9 : BitVec 6) < (l 63 0 0).ll.paceLocal ∧ ((l 63 0 0).ll.fall = 0 ∨ (l 63 0 0).ll.fallTo ≠ 9)) ∧
      ((9 : BitVec 6) < (l 63 8 9).ll.paceLocal ∧ 0 < (l 63 8 9).ll.fall ∧ (l 63 8 9).ll.fall < 9 ∧ (l 63 8 9).ll.fallTo = 9) ∧
      ((9 : BitVec 6) < (l 63 9 9).ll.paceLocal ∧ 9 ≤ (l 63 9 9).ll.fall ∧ (l 63 9 9).ll.fallTo = 9) := by decide +kernel

theorem test_hyp_CrossingResets_sides :
    let s : State := { ready with xings := [(246, { core := { req := true, ack := true }, clk := { req := true, ack := true } })] }
    (s.xings.get {} (xingKey .tck)).side false = { req := true, ack := true } ∧
      (ready.xings.get {} (xingKey (.hclk 52))).side true = {} := by decide

theorem test_hyp_LaneAlignment_more :
    let s := laned { align := { pend := true, queued := 1 } }
    let t : State := { linked {} with lanes := [(95, { align := { pend := true, queued := 1 } })] }
    (s.laneState 95 = 1 ∨ s.laneState 95 = 2) ∧ (s.lane 95).align.pend = true ∧ (s.lane 95).align.queued = 0 + 1 ∧
      ¬ (t.laneState 95 = 1 ∨ t.laneState 95 = 2) ∧ (t.lane 95).align.pend = true ∧ (t.lane 95).align.queued = 0 + 1 ∧
      ((laned {}).lane 95).align.pend = false ∧ ((laned {}).lane 95).align.counting = false := by decide

theorem test_hyp_LaneLocks_more :
    (((laned {}).lane 95).blk = false ∧ ((laned {}).lane 95).cdr = false ∧ ((laned { grading := true, adapt := false }).lane 95).grading = true ∧
      ((laned { adapt := false }).lane 95).adapt = false ∧ ((laned { adapt := false }).lane 95).grading = false) := by decide

theorem test_hyp_EyeScansAndPrbs_more :
    let w : PrbsSet := { gen := true, pattern := 5 }
    let s := laned {}
    ((s.laneState 95 = 2 ∨ (w.gen || w.chk) = false) ∧ w.pattern.toNat < 6) ∧
      (((w.gen || w.chk) = true ∧ ready.laneState 95 ≠ 2) ∨ 6 ≤ w.pattern.toNat) ∧
      (6 : Nat) ≤ ({ pattern := 6 } : PrbsSet).pattern.toNat ∧ (s.lane 95).prbs.set.gen = false ∧ (s.lane 95).eye.busy = false := by decide

/-- Link 23's entry of a plan, of a CLASS. -/
def entry (cls : BitVec 3) : PlanLink :=
  { farKind := 1, farId := 7, farPort := 0, cls := cls, fec := 0, gradeMax := 3, minWidth := 0, enc := false, lport := 0, farDig := 0 }

theorem test_hyp_TrainControl_more :
    let s : State := { linked {} with plan := { valid := true, links := [(23, entry 0)] } }
    let t : State := { linked {} with plan := { valid := true, links := [(23, entry 1)] } }
    s.barred 23 = true ∧ (s.link 23).train.enable = false ∧ t.barred 23 = false ∧ t.fc.safe = false ∧
      (let u : State := { linked data with fc := { safe := true } }
       opened u = true ∧ opened s = true ∧ opened t = true ∧ (u.link 23).train.enable = true ∧ u.fc.safe = true ∧
         ({ t with fc := { safe := true } } : State).barred 23 = false) := by decide

/-- A link on a row 200 of its own, of condition TRUE and action 9 (UP), with the far end's class as given. -/
def upLink (failed : Bool) : Link :=
  { train := { enable := true, row := 200, state := 1
               tbl := (8 * 200, fields [(56, 8, 30), (44, 4, 1), (32, 6, 9)]) ::
                 if failed then [(8 * 201, fields [(44, 4, 7)])] else (List.range 256).map fun r => (8 * r, if r = 200 then fields [(32, 6, 9)] else 0) } }
def upState (failed : Bool) (fec : BitVec 2) : State :=
  linked { upLink failed with train := { (upLink failed).train with farFec := fec } }

theorem test_hyp_TrainingActs_up :
    (let s := upState true 0
     s.admits = true ∧ (s.link 23).train.enable = true ∧ s.satisfied 23 = some 200 ∧ rowAction (s.trainRow 23 200) = 9 ∧
       (s.link 23).train.farFec = (s.link 23).fec.req) ∧
    (let s := upState true 3
     s.satisfied 23 = some 200 ∧ (s.link 23).train.farFec ≠ (s.link 23).fec.req ∧ (s.failedRow 23).isSome = true) ∧
    (let s := upState false 3
     s.satisfied 23 = some 200 ∧ rowAction (s.trainRow 23 200) = 9 ∧ (s.link 23).train.farFec ≠ (s.link 23).fec.req ∧ s.failedRow 23 = none) ∧
    (let s := linked { upLink true with train := { (upLink true).train with tbl := [(8 * 200, fields [(56, 8, 30), (44, 4, 1), (32, 6, 9), (4, 10, 1)])] } }
     let w := s.trainRow 23 (s.link 23).train.row.toNat
     rowCount w ≠ 0 ∧ (s.link 23).train.entered + rowTimeout w ≤ s.clk.act + 5 * 20000000 ∧ (s.passNs 20000000).satisfied 23 = some 200) := by
  decide +kernel

theorem test_hyp_TrainingActs_lanes :
    let w := sealBlock (fields [(16, 8, 0xFF), (8, 2, 3), (0, 8, 0x2D)])
    let s := laned { blk := true, active := true }
    let d := laned { blk := true }
    ((laned {}).lane 95).blk = false ∧ ({ d with links := [] } : State).laneState 95 = 0 ∧ trainValid w = true ∧ (s.lane 95).active = true ∧
      (((s.lane 95).takeTrain (95 % 4) w).takeEq (decide (s.laneState 95 = 1)) w).train.stepCnt = 0 ∧
      d.sendsTrain 95 = true ∧ ({ d with links := [] } : State).sendsTrain 95 = false ∧ trainValid (~~~w) = false ∧
      (let t := linked { train := { enable := true, row := 1, state := 1 } }
       t.clk.act + 5 * 0 < (t.link 23).train.entered + rowTimeout (t.trainRow 23 (t.link 23).train.row.toNat)) := by decide +kernel

theorem test_hyp_ControlBlocks_hears :
    let s := linked { data with train := { enable := true, state := 4, lanes := 15 } }
    let t : State := { s with xings := [(92, { core := { req := true, ack := true } }), (191, { clk := { req := true, ack := true } })] }
    s.linkHears 23 = true ∧ s.linkCut false 23 = false ∧ s.linkCut true 23 = false ∧ t.linkCut false 23 = true ∧ t.linkCut true 23 = true ∧
      s.linkUp 23 = true ∧ (∀ ty ∈ [0x87], blockValid ty (curfewBlock 0 0 0 ^^^ 0x0100000000000000) = false) := by decide +kernel

theorem test_hyp_FramesReceived_more :
    let s := linked data
    let fr : RxFrame := { bytes := body ++ zeros 8, full := true }
    let ctl : RxFrame := { bytes := body ++ zeros 8, ctl := some 0 }
    let bad : RxFrame := { bytes := body ++ zeros 8, bad := true }
    let due := linked { data with ll := { nakSent := true, rxSeq := 4095 } }
    let odd : RxFrame := { bytes := zeros 256 }
    s.linkHears 23 = true ∧ (s.link 23).ll.stopped = false ∧ fr.full = true ∧ (ctl.full = false ∧ ctl.ctl = some 0) ∧
      (bad.full = false ∧ bad.ctl = none ∧ bad.bad = true) ∧ bits (word64 bad.bytes 0) 0 8 = 0x78 ∧
      bits (word64 odd.bytes 0) 0 8 ≠ 0x78 ∧ (s.link 23).ll.nakSent = false ∧ (due.link 23).ll.nakSent = true ∧
      (word64 bad.bytes 0).extractLsb' 52 12 = (due.link 23).ll.rxSeq + 1 ∧
      (word64 (leBytes 8 (2 ^ 52 + 0x78)) 0).extractLsb' 52 12 ≠ (due.link 23).ll.rxSeq + 1 := by decide +kernel

theorem test_hyp_LinkTimers_more :
    let s : State := { linked data with obs := { curfew := { on := true } } }
    let t : State := { linked data with obs := { bench := { busy := true, link := 23 } } }
    s.linkCut true 23 = false ∧ s.running = false ∧ s.linkUp 23 = true ∧
      (t.running = true ∧ t.carriesFrames 23 = true ∧ t.injecting 23 = true ∧ t.pins.hold = false ∧ t.linkCut true 23 = false) ∧
      (linked data).linkCut true 23 = false := by decide

theorem leBytes_length (n v : Nat) : (leBytes n v).length = n := by
  induction n generalizing v with
  | zero => rfl
  | succ n ih => simp [leBytes, ih]

theorem sha_rounds_length (ks win : List Word) (r : ShaRegs) (h : r.top.length = 4 ∧ r.bot.length = 4) :
    (ShaRegs.rounds ks win r).top.length = 4 ∧ (ShaRegs.rounds ks win r).bot.length = 4 := by
  induction ks generalizing win r with
  | nil => exact h
  | cons k ks ih => exact ih _ _ (by simp [ShaRegs.clock, h.1, h.2])

theorem sha_top_length (ks : List Word) (f : Nat → Bytes) (l : List Nat) (r : ShaRegs) (h : r.top.length = 4 ∧ r.bot.length = 4) :
    (l.foldl (fun r i => r.absorb ks (f i)) r).top.length = 4 ∧ (l.foldl (fun r i => r.absorb ks (f i)) r).bot.length = 4 := by
  induction l generalizing r with
  | nil => exact h
  | cons i l ih =>
    have q := sha_rounds_length ks ((List.range 16).map fun j => BitVec.ofNat 64 (beNat (slice (f i) (8 * j) 8))) r h
    exact ih _ (by simp [ShaRegs.absorb, h.1, h.2, q.1, q.2])

theorem shaWords_length (r : ShaRegs) (h : r.top.length = 4 ∧ r.bot.length = 4) :
    ((r.top ++ r.bot.take 2).flatMap fun w => beBytes 8 w.toNat).length = 48 := by
  simp [List.length_flatMap, beBytes, leBytes_length, h.1, h.2]

theorem sha384_length (m : Bytes) : (sha384 m).length = 48 :=
  shaWords_length _ (sha_top_length _ _ _ _ (by decide +kernel))

/-- Link 23 in the last phase of an exchange of number 9, with a CONFIRM that carries `mac`. -/
def confirmPkt (mac : Bytes) : Pkt := { op := 0x22, len := 56, data := leBytes 8 (fields [(60, 4, 2), (32, 16, 9)]).toNat ++ mac }
def confirming (mac : Bytes) : State :=
  linked { data with sec := { kex := { phase := 3, sid := 9 } }, inbox := [{ pkt := confirmPkt mac }] }

/-- The MAC such a CONFIRM must carry. -/
def rightMac (d : Bool) : Bytes := hmac (hkdfExpand [] (label "KL96 confirm" ++ [BitVec.ofNat 8 (b2n d)]) 48) (sha384 ([] ++ []))

theorem confirmMac_consumed (mac : Bytes) (d : Bool) : ((confirming mac).consume 23 (confirmPkt mac)).confirmMac 23 d = rightMac d := by
  have hf : ((confirming mac).link 23).inbox.find? (fun r => r.pkt = confirmPkt mac) = some { pkt := confirmPkt mac } := by
    show List.find? _ [({ pkt := confirmPkt mac } : RxPkt)] = _
    simp
  simp only [State.consume, hf]
  unfold State.confirmMac
  have e : ∀ b : Bool, loHi b ([] : Bytes) [] = [] ++ [] := by intro b; cases b <;> rfl
  have hk : ((((confirming mac).modLink 23 fun l => { l with inbox := l.inbox.erase { pkt := confirmPkt mac } }).freeUnits 23
      (confirmPkt mac).pool (confirmPkt mac).units 0).link 23).sec.kex = { phase := 3, sid := 9 } := by rfl
  simp [hk, e, rightMac]

theorem farPassport_consumed (mac : Bytes) : ((confirming mac).consume 23 (confirmPkt mac)).farPassport 23 = zeros 48 := by
  have hf : ((confirming mac).link 23).inbox.find? (fun r => r.pkt = confirmPkt mac) = some { pkt := confirmPkt mac } := by
    show List.find? _ [({ pkt := confirmPkt mac } : RxPkt)] = _
    simp
  simp only [State.consume, hf]
  rfl

theorem isLo_consumed (mac : Bytes) : ((confirming mac).consume 23 (confirmPkt mac)).isLo 23 = (confirming []).isLo 23 := by
  have h : ((confirming mac).consume 23 (confirmPkt mac)).fuses = (confirming []).fuses := by
    have hf : ((confirming mac).link 23).inbox.find? (fun r => r.pkt = confirmPkt mac) = some { pkt := confirmPkt mac } := by
      show List.find? _ [({ pkt := confirmPkt mac } : RxPkt)] = _
      simp
    simp only [State.consume, hf]
    rfl
  unfold State.isLo State.myPassport State.passport
  rw [h, farPassport_consumed]
  rfl

theorem slice_all (b : Bytes) (n : Nat) (h : b.length = n) : slice b 0 n = b := by
  subst h
  simp [slice, zeros]
theorem slice_left (a b : Bytes) (n : Nat) (h : a.length = n) : slice (a ++ b) 0 n = a := by
  simp [slice, ← h, zeros]
theorem slice_right (a b : Bytes) (n m : Nat) (h : a.length = n) (k : b.length = m) : slice (a ++ b) n m = b := by
  simp [slice, ← h, ← k, zeros]

theorem test_hyp_HelloAndKeys_confirm : ∃ (s : State) (p : Pkt), s.running = true ∧ (s.link 23).train.state = 4 ∧
    (s.link 23).guest.verdict ≠ .qHostile ∧ s.localPkt 23 (fun q => decide (q.op = 0x22) &&
      (decide (kexKind q.data = 2) || decide ((2 : Nat) = 0 ∧ 2 < kexKind q.data))) = some p ∧
    (let d := slice p.data 0 p.len.toNat
     kexOk d = true ∧ kexSid d = (s.link 23).sec.kex.sid ∧ (s.link 23).sec.kex.phase = 3 ∧
       slice d 8 48 = (s.consume 23 p).confirmMac 23 ((s.consume 23 p).isLo 23)) := by
  generalize hm : rightMac ((confirming []).isLo 23) = mac
  have hl : mac.length = 48 := by rw [← hm]; exact sha384_length _
  have hd : slice (confirmPkt mac).data 0 (confirmPkt mac).len.toNat = (confirmPkt mac).data :=
    slice_all _ _ (by show (_ ++ mac).length = 56; simp [leBytes_length, hl])
  have hw : word64 (confirmPkt mac).data 0 = fields [(60, 4, 2), (32, 16, 9)] := by
    have : slice (confirmPkt mac).data 0 8 = leBytes 8 (fields [(60, 4, 2), (32, 16, 9)]).toNat := slice_left _ _ _ (leBytes_length _ _)
    simp only [word64, this]
    decide +kernel
  have hk : kexKind (confirmPkt mac).data = 2 := by simp only [kexKind, hw]; decide
  have hlen : (confirmPkt mac).data.length = 56 := by show (_ ++ mac).length = 56; simp [leBytes_length, hl]
  refine ⟨confirming mac, confirmPkt mac, rfl, rfl, fun h => Verdict.noConfusion h, ?_, ?_, ?_, rfl, ?_⟩
  · show List.find? _ [confirmPkt mac] = _
    simp [hk]; rfl
  · rw [hd]
    simp only [kexOk, hw, hk, hlen]
    decide
  · rw [hd]
    simp only [kexSid, hw]
    show _ = (9 : BitVec 16)
    decide
  · rw [hd, confirmMac_consumed, isLo_consumed, hm]
    exact slice_right _ _ _ _ (leBytes_length _ _) hl

theorem test_hyp_MoveInsns_later :
    let s := queued { fifo .active with insns := [{ seq := 0, pc := 0, cnt := 0, word := 0, len := 0x300000, off := 0x200000 }] }
    ∃ i, (s.queue 8191).present = some i ∧ i.off ≠ 0 := ⟨_, rfl, by decide⟩

theorem test_hyp_AtomicInsns_more :
    (let i : Insn := { seq := 0, pc := 0, cnt := 0, word := insnWord 2 0 {}, len := 1, off := 1 }
     let s : State := queued { fifo .active with tail := 1, insns := [i] }
     let r : Req := { id := 0, who := .insn 8191 0, pkt := { op := 0x88 } }
     let t := s.settleHead 8191
     let u := ({ s with reqs := [r] } : State).settleHead 8191
     (t.queue 8191).st = .active ∧ (t.queue 8191).present = some i ∧ parks i.word = true ∧ i.off ≠ 0 ∧ t.unsent 8191 0 = false ∧
       (u.queue 8191).st = .active ∧ (u.queue 8191).present = some i ∧ u.unsent 8191 0 = true) ∧
    (let w : Fields := { a := 1, b := 2 }
     let s := asked 2 4 w (g012 0 0x01FFC00000200000 0)
     let b := began 2 4 w s
     runs 2 4 w s = true ∧ (b.gA 8191 w).toNat % 1 = 0 ∧ b.issueCheck (b.queue 8191).part (b.gA 8191 w) 1 2 ≠ stOk) := by decide +kernel

theorem test_hyp_SyncInsns_more :
    (let i : Insn := { seq := 0, pc := 0, cnt := 0, word := insnWord 3 2 {} }
     let s : State := queued { fifo .waiting with tail := 1, park := .sending, insns := [i] }
     let t := s.settleHead 8191
     (t.queue 8191).st = .waiting ∧ (t.queue 8191).park = .sending ∧ (t.queue 8191).present = some i ∧ t.unsent 8191 i.seq = false) ∧
    (let w : Fields := { a := 15, f := 3, x := 0x7FF0FFF, y := 1 }
     let r : Req := { id := 9, who := .insn 8191 0, pkt := { op := 0x81 }, write := true }
     let c := began 3 2 w { asked 3 2 w with reqs := [r] }
     runs 3 2 w { asked 3 2 w with reqs := [r] } = true ∧ c.written 8191 = false ∧ (began 3 2 w (asked 3 2 w)).written 8191 = true) ∧
    (let w : Fields := { f := 2, x := 0xFFF, y := 1 }
     (began 3 1 w (asked 3 1 w)).syncOwned 4095 0 = true ∧ (began 3 1 w { asked 3 1 w with syncs := [] }).syncOwned 4095 0 = false) := by
  decide +kernel

theorem test_hyp_CollectiveInsns_group :
    ∀ e ∈ [(2, ({ x := 0x4001 } : Fields)), (3, { x := 1 }), (4, { x := 0x1001 })],
      runs 4 e.1 e.2 (asked 4 e.1 e.2) = true ∧ ((began 4 e.1 e.2 (asked 4 e.1 e.2)).queue 8191).comm = false := by decide +kernel

theorem test_hyp_CollectiveInsns_long :
    let w : Fields := { a := 0, b := 1, c := 2, x := 0x101FF, y := 0xFFF }
    let b := began 4 0 w (asked 4 0 w (g012 0 0x1000 0xFFFFFFFFFF) comm)
    (b.gC 8191 w).toNat < 2 ^ 40 ∧ (b.queue 8191).comm = true := by decide +kernel

theorem test_hyp_PlacementInsns_owner :
    let w : Fields := { d := 15, a := 1, b := 2, f := 3, x := 0x0005 * 65536 + 0xFFF }
    let v : Fields := { d := 15, a := 1, b := 2, f := 3, x := 0x0006 * 65536 + 0xFFF }
    let regs := g012 0 0x01FFC000001FFFFF 2047
    let s : State := { asked 5 0 w regs with syncs := [] }
    runs 5 0 w s = true ∧ (began 5 0 w s).placeCheck 8191 ((began 5 0 w s).gA 8191 w) = stOk ∧ bits w.x 16 11 = (began 5 0 w s).chip.toNat ∧
      (began 5 0 w s).syncOwned 4095 0 = false ∧ runs 5 0 v (asked 5 0 v regs) = true ∧
      bits v.x 16 11 ≠ (began 5 0 v (asked 5 0 v regs)).chip.toNat := by decide +kernel

theorem test_hyp_TableInsns_more :
    let w : Fields := { a := 1, b := 2, c := 3, x := 9 }
    let regs (a k o : Nat) : List Word := [0, BitVec.ofNat 64 a, BitVec.ofNat 64 k, BitVec.ofNat 64 o] ++ List.replicate 12 0
    let s := asked 6 0 w (regs 0x1000 (2 ^ 40) 0)
    let t := asked 6 0 w (regs (2 ^ 60) 8 0)
    let u := asked 6 0 w (regs 0x1000 4 0)
    runs 6 0 w s = true ∧ 2 ^ 40 ≤ ((began 6 0 w s).gB 8191 w).toNat ∧ runs 6 0 w t = true ∧
      (began 6 0 w t).localCheck 0 ((began 6 0 w t).gA 8191 w) 8 0 ≠ stOk ∧ runs 6 0 w u = true ∧ ((began 6 0 w u).gB 8191 w).toNat % 8 ≠ 0 := by
  decide +kernel

theorem test_hyp_LaneInsns_notify :
    ∀ e ∈ [(0, ({ d := 15, f := 2, x := 0x0FFF005F } : Fields)), (2, { d := 15, f := 2, x := 0x0FFF005F })],
      let s := asked 7 e.1 e.2
      let t : State := { s with syncs := [] }
      runs 7 e.1 e.2 s = true ∧ (began 7 e.1 e.2 s).syncOwned (bits e.2.x 16 12) 0 = true ∧ ((began 7 e.1 e.2 s).sync 4095).bad = false ∧
        runs 7 e.1 e.2 t = true ∧ (began 7 e.1 e.2 t).syncOwned (bits e.2.x 16 12) 0 = false ∧ e.2.flag 1 = true := by decide +kernel

theorem test_hyp_ObservationInsns_off :
    let w : Fields := { a := 15, x := 0xFFFFFFFF }
    let r : State := { asked 8 1 w with win := [(0x20010, 0x8000000000000000)], obs := { trace := { recording := true } } }
    runs 8 1 w r = true ∧ (began 8 1 w r).obs.trace.recording = true ∧ (began 8 1 w r).traceSrc 0 = false := by decide +kernel

theorem test_hyp_RequestChecks_span :
    let q : Pkt := { rdPkt 0xFFFF with addr := 0xFFC000001FFFFC, data := leBytes 16 64 }
    (q.isBf = false ∧ tagged.segPages (keySeg (pageKey q.addr)) * mib2 < bits q.addr 0 46 + q.span) ∧
      (bits (rdPkt 1).addr 0 46 + (rdPkt 1).span ≤ tagged.segPages (keySeg (pageKey (rdPkt 1).addr)) * mib2) ∧
      (let p : Pkt := { wrBfPkt 0xFFFF with addr := 0xFFFFFFFFFF }
       p.wellLaid = true ∧ p.isBf = true ∧ tagged.bfWindow 0 (bits p.addr 0 41) p.span p.right = true) ∧
      (rdPkt 0xFFFF).wellLaid = true ∧ tagged.tagPart (rdPkt 1).ptag = some 15 ∧ tagged.tagPart (rdPkt 2).ptag = none := by decide +kernel

theorem test_hyp_RequestTimers_epoch :
    let s : State := { ready with clk := { ms := 5 * 999999 } }
    s.admits = true ∧ s.inn.epoch < (s.passNs 1).msIndex ∧ (s.passNs 0).msIndex ≤ s.inn.epoch := by decide

theorem test_hyp_Curfew_ports :
    (ported curfewed = true) ∧ (ported ready = true ∧ ready.fc.safe = false ∧ ready.obs.curfew.on = false) ∧
      ({ curfewed with fc := { safe := true } } : State).obs.curfew.hold = [] := by decide

theorem test_hyp_PartitionAndLinkResets_done :
    let s : State := { ready with boot := { stage := .ready, partBusy := 0x8000 } }
    s.running = true ∧ bit s.boot.partBusy 15 = true ∧ bit s.boot.partHeld 15 = false ∧ bit s.boot.partBusy 14 = false := by decide

theorem test_hyp_PortAnswers_safe :
    let r : Acc := { job := 0, port := .m 23, write := false, addr := 0, len := 64, tag := 511 }
    let s : State := { ready.giveCredits with cpOut := [r], fc := { safe := true } }
    (s.cpOut.find? fun b => decide (b.port = .m 23 ∧ b.tag = (511 : BitVec 9).toNat) && (some false == some b.write)) = some r ∧
      s.rxCrd (.m 23) false ≠ 0 ∧ r.dead = false ∧ s.fc.safe = true := by decide +kernel

/-- No PACE_K is enough for G4 and x4 at 2,000 ps. -/
theorem test_hyp_PaceRecomputed_none :
    let s : State := { linked { train := { enable := true, state := 4, grade := 3, lanes := 15 } } with pins := { period := 2000 } }
    s.running = true ∧ ∀ i, i < 63 → 528 * (32 + i) * 10 ^ 7 <
      (s.link 23).train.width * 265625 * 2 ^ (s.link 23).train.grade.toNat * 32 * s.pins.period.toNat := by decide +kernel

theorem test_hyp_TrainingActs_frames :
    let s := { linked data with lanes := [(95, { blk := true, active := true })] }
    let c : State := { s with xings := [(95, { clk := { req := true, ack := true } })] }
    let w := sealBlock (fields [(0, 8, 0x2D)])
    (s.lane 95).blk = true ∧ s.laneState 95 ≠ 0 ∧ s.laneCut false 95 = false ∧ s.carriesFrames (95 / 4) = true ∧ trainValid w = true ∧
      (s.lane 95).active = true ∧ bits w 32 6 = 0 ∧ trainValid (w ^^^ 1) = false ∧ c.laneCut false 95 = true := by decide +kernel

theorem test_hyp_ControlBlocks_curfew :
    let s : State := { linked data with obs := { curfew := { on := true, serial := 1 } } }
    s.linkUp 23 = true ∧ s.linkCut false 23 = false ∧ s.obs.curfew.on = true ∧
      (∀ n ∈ [1, 0xFFFFFFFF], let r := curfewBlock 1 0 (BitVec.ofNat 32 n)
        blockValid 0x87 r = true ∧ bits r 54 2 = 1 ∧ s.obs.curfew.serial ≤ r.extractLsb' 11 32) ∧
      (let e := curfewBlock 0 0 2
       blockValid 0x87 e = true ∧ bits e 54 2 = 0) := by decide +kernel

theorem test_hyp_FramesReceived_stopped :
    let s := linked { data with ll := { stopped := true } }
    s.linkHears 23 = true ∧ (s.link 23).ll.stopped = true ∧ bits (word64 (body ++ zeros 8) 0) 0 8 = 0x78 ∧
      bits (word64 (zeros 256) 0) 0 8 ≠ 0x78 := by decide +kernel

theorem test_hyp_LinkTimers_boundary :
    let s := linked data
    let w := linked { data with ll := { resumeWait := some 1 } }
    let b (raw : Bool) : State := { s with obs := { bench := { busy := true, link := 23, rawSeq := raw } } }
    let full : State := { linked { data with ll := { retry := List.replicate 1024 { seq := 0, pkts := [], at5 := 0 } } } with
      obs := { bench := { busy := true, link := 23 } } }
    (s.running = true ∧ s.carriesFrames 23 = true ∧ s.linkSends 23 = true ∧ (s.link 23).ll.resumed s.clk.up = true ∧
      (s.linkResumed 23).injects 23 = false) ∧
    ((b false).linkSends 23 = true ∧ ((b false).link 23).ll.resumed (b false).clk.up = true ∧ ((b false).linkResumed 23).injects 23 = true ∧
      ((b true).linkResumed 23).injects 23 = true ∧ (full.linkResumed 23).injects 23 = false) ∧
    (w.linkSends 23 = true ∧ (w.link 23).ll.resumed w.clk.up = false) ∧
    (({ s with boot := { stage := .mgmtOpen } } : State).linkSends 23 = false ∧
      (linked {}).running = true ∧ (linked {}).carriesFrames 23 = false) ∧
    (let c : State := { s with obs := { curfew := { on := true } } }
     c.linkSends 23 = true ∧ c.running = false ∧ c.carriesFrames 23 = true) ∧
    (let f : State := { linked { train := { state := 2 } } with fc := { safe := true } }
     f.linkSends 23 = true ∧ f.running = false ∧ f.fc.safe = true ∧ f.linkUp 23 = true) ∧
    (let n : State := { linked { train := { state := 2 } } with obs := { curfew := { on := true } } }
     n.linkSends 23 = true ∧ n.running = false ∧ ¬ (n.fc.safe = true ∧ n.linkUp 23 = true ∨ n.carriesFrames 23 = true)) := by
  decide +kernel

theorem test_hyp_ScrubAndSpdm_empty :
    let s : State := { ready with win := [(0x30058, 0x4000000000000000), (0x30060, 0)] }
    opened s = true ∧ s.sec.scrub.busy = false ∧ bit (s.reg 0x30058) 62 = true ∧ s.scrubRange.2 = 0 := by decide +kernel

theorem test_hyp_FaultRecorded_commit :
    let s : State := { ready with commit := { busy := true } }
    s.commit.busy = true ∧ s.fc.safe = false ∧ s.fc.first.valid = false ∧
      (∃ n : Fin 64, srcClass n.val = 3 ∧ n.val ≠ srcConfig ∧ srcConfig ∉ [n.val]) := by decide

theorem test_hyp_QueueBinding_bad :
    let s := queued { fifo .halted with bad := true }
    opened s = true ∧ (s.queue 8191).bad = true ∧ (s.queue 8191).st ≠ .unbound ∧ s.resting 8191 = true ∧
      s.bindErr 8191 ((s.queue 8191).withWord 1 0x10000000000) = 0 := by decide +kernel

theorem test_hyp_QueueControl_waiting :
    let s := queued { fifo .waiting with park := .sync 4095 2 0 }
    let t := queued { fifo .waiting with park := .answer }
    let u := queued { fifo .halted with tail := 1 }
    opened s = true ∧ (s.queue 8191).bad = false ∧ (s.queue 8191).st = .waiting ∧ (s.queue 8191).park = .sync 4095 2 0 ∧
      (t.queue 8191).st = .waiting ∧ (t.queue 8191).park = .answer ∧ (u.queue 8191).st = .halted ∧
      (u.queue 8191).cnt ≠ (u.queue 8191).tail := by decide

theorem test_hyp_Stewards_contexts :
    let s : State := { ready with stws := [(63, { ctxs := [(7, { queue := 8191, regs := [] })] })], queues := [(8191, fifo .ready)] }
    opened s = true ∧ (s.stw 63).cur = none ∧ (s.stw 63).ctxs.map (fun c => c.2.queue) = [8191] ∧ (s.queue 8191).pool ≠ (15 : BitVec 4).toNat := by
  decide

theorem test_hyp_CountersAndTrace_views :
    let s : State := { ready with obs := { cnt := [(511, 4097)] } }
    s.obs.viewAt < (s.passNs 1000000).msIndex ∧ (s.passNs 999999).msIndex ≤ s.obs.viewAt ∧
      (∃ e ∈ s.obs.cnt, 4096 ≤ e.2.toNat) := by decide +kernel

theorem test_hyp_TriggersAndWindows_power :
    ready.obs.powerAt < (ready.passNs 10000000).msIndex / 10 ∧ (ready.passNs 9999999).msIndex / 10 ≤ ready.obs.powerAt := by decide +kernel

theorem test_hyp_CurfewAndTriggers_record :
    let s : State := { ready with obs := { trig := [(7, { en := true })]
                                           trace := { recording := true, fifo := List.replicate 62 { type_ := 1 } } } }
    s.obs.curfew.on = false ∧ s.obs.trace.recording = true ∧ s.obs.trace.fifo.length < 63 := by decide

theorem test_hyp_ScanAndBench_refused :
    let s (n : Nat) : State := { linked {} with fuses := { bench := true, test := false, serial := 0, key := 0, made := 0, caSig := 0 }
                                                win := [(0x24000, fields [(51, 5, n)])] }
    opened (s 24) = true ∧ (s 24).fuses.bench = true ∧ 24 ≤ bits ((s 24).reg 0x24000) 51 5 ∧
      (s 23).carriesFrames (bits ((s 23).reg 0x24000) 51 5) = false := by decide

/-! ### Ill-formed commands are refused -/

theorem test_wf_wdBeat : Instr.wf (.eportWdBeat 15 (zeros 63)) = false ∧ Instr.wf (.eportWdBeat 15 (zeros 64)) = true := by decide
theorem test_wf_readLength : Instr.wf (.carrierReadData (.s 7) 511 0 (zeros 64)) = false ∧ Instr.wf (.carrierReadData (.s 7) 511 0 (zeros 128)) = true := by
  decide
theorem test_wf_readPort : Instr.wf (.carrierReadData (.n 3) 0 0 (zeros 32)) = false := by decide
theorem test_wf_writeAckPort : Instr.wf (.carrierWriteAck (.n 3) 0 0) = false ∧ Instr.wf (.carrierWriteAck (.m 23) 511 0) = true := by decide
theorem test_wf_nResponse : Instr.wf (.nPortResponse 3 127 0 (zeros 64)) = false ∧ Instr.wf (.nPortResponse 3 127 0 (zeros 32)) = true := by decide
theorem test_wf_timeoutTag : Instr.wf (.carrierPortTimeout (.n 3) false 128 0) = false ∧
    Instr.wf (.carrierPortTimeout (.n 3) false 127 0) = true := by decide
theorem test_wf_frame : Instr.wf (.frame 23 { bytes := zeros 255 }) = false ∧ Instr.wf (.frame 23 { bytes := zeros 256 }) = true := by decide +kernel
theorem test_wf_codeword : Instr.wf (.fecCodewordRx 23 (List.replicate 33 0) [0]) = false ∧
    Instr.wf (.fecCodewordRx 23 (List.replicate 32 0) []) = false ∧ Instr.wf (.fecCodewordRx 23 [] (List.replicate 543 0)) = false ∧
    Instr.wf (.fecCodewordRx 23 (List.replicate 33 0) []) = true ∧ Instr.wf (.fecCodewordRx 23 [] (List.replicate 544 0)) = true := by decide +kernel
theorem test_wf_sources : Instr.wf (.faultDetect []) = false ∧ Instr.wf (.faultDetect [(63, 0)]) = true := by decide

/-! ### No row of the table gives bits -/

theorem test_noWord : decodeTableWord 0 0 = none ∧ (State.reset.withFetchWord 0 0) = State.reset := ⟨rfl, rfl⟩

/-! ### Results the spec works out -/

/-- R90: 0b00, 0b01, 0b11 and 0b10 are levels 0 to 3, and a 1 under NRZ is high. -/
theorem test_levels : levels 1 [false, false, false, true, true, true, true, false] = [.pam 0, .pam 1, .pam 2, .pam 3] ∧
    levels 0 [true, false] = [.nrz true, .nrz false] := by decide
/-- R92, R93: the second block sent goes to the active lane of rank 1, 66 bits, its sync header 0b10 least significant bit first. -/
theorem test_striped :
    let s := (linked { data with train := { data.train with lanes := 13 } }).emit (.idle 23 2)
    let wire (j : Nat) := ((s.lines.get {} 23).lane j).wire
    (wire 0).length = 66 ∧ (wire 2).length = 66 ∧ wire 1 = [] ∧ wire 3 = [] ∧ (wire 2).take 2 = [.nrz false, .nrz true] := by decide +kernel

/-- Table 14.2 under SAT (the reset formats): the sum and its OVF. -/
theorem test_formats_sat :
    (∀ e ∈ [(1, 0x3F80, 0x3B80, 0x3F80, false), (1, 0x7F7F, 0x7F7F, 0x7F7F, true), (2, 0x6800, 0x3C00, 0x6800, false),
        (2, 0x7BFF, 0x4C00, 0x7BFF, true), (3, 0x38, 0x18, 0x38, false), (3, 0x7E, 0x58, 0x7E, false), (3, 0x7E, 0x60, 0x7E, true),
        (4, 0x3D, 0x30, 0x3E, false), (4, 0x7B, 0x6C, 0x7B, true), (5, 4, 1, 4, false), (5, 7, 2, 7, true)],
      (ready.fmt e.1).add e.2.1 e.2.2.1 = { code := e.2.2.2.1, ovf := e.2.2.2.2 }) := by decide +kernel

/-- Table 14.2 under NONSAT. -/
theorem test_formats_nonsat :
    (∀ e ∈ [(1, 0x7F7F, 0x7F7F, 0x7F80), (2, 0x7BFF, 0x4C00, 0x7C00), (3, 0x7E, 0x58, 0x7E), (3, 0x7E, 0x60, 0x7F), (4, 0x7B, 0x6C, 0x7C),
        (5, 7, 2, 7)],
      (({ ready.fmt e.1 with nonsat := true } : Fmt).add e.2.1 e.2.2.1).code = e.2.2.2) := by decide +kernel

/-- Chapter 3: PERIOD_PS 780 at G4 and x4 gives PACE_K 9. -/
theorem test_pace : paceFor 4 3 780 = 9 := by decide +kernel

/-- Chapter 10: page 1,000 of segment 0x02A among 64 members is at index 43. -/
theorem test_hash : hashIdx 64 0x2A 1000 = 43 := by decide

/-- Chapter 12: the word of `WAIT SYNC[37] >= 4`, and its byte order in the ring. -/
theorem test_waitWord : insnWord 3 1 { x := 37, y := 4 } = 0x30100000000000250000000000000004 ∧
    (leBytes 16 (insnWord 3 1 { x := 37, y := 4 }).toNat)[15]? = some 0x30 ∧ (leBytes 16 (insnWord 3 1 { x := 37, y := 4 }).toNat)[0]? = some 4 := by
  decide +kernel

/-- Chapter 11: a ring of 1,024 entries near the wrap of its counts takes 0x30 and 0x100 and rejects 0xFFFFFFE0. -/
theorem test_doorbell :
    let d : Queue := { fifo .ready with ring := 256 * 2 ^ 40, head := 0xFFFFFF00, tail := 0xFFFFFFF0, cnt := 0xFFFFFF00 }
    (((queued d).ring 8191 0x30).queue 8191).tail = 0x30 ∧ (((queued d).ring 8191 0x30).queue 8191).dbRej = false ∧
      (((queued d).ring 8191 0x100).queue 8191).tail = 0x100 ∧ (((queued d).ring 8191 0xFFFFFFE0).queue 8191).dbRej = true ∧
      (((queued d).ring 8191 0xFFFFFFE0).queue 8191).tail = 0xFFFFFFF0 := by decide +kernel

/-- Chapter 13: the slots of a group of R = 4, K = 16 and S = 2 MiB. -/
theorem test_slots :
    let t : SmvTab := fun o => if o = 64 * 17 then fields [(63, 1, 1), (49, 10, 3), (45, 4, 15), (22, 7, 8)] else 0
    gPb t 17 = 135168 ∧ gSlotB t 17 = 2039808 ∧ gSlotR t 17 = 282624 := by decide +kernel

/-- Chapter 14: SCALE over an E4M3 tensor of scale 3.0 whose largest code is 0x76, and one of scale 1.0 whose largest is 0x7E. -/
theorem test_commonScale :
    let f := ready.fmt 3
    scaleProduct f 3 0 0x76 = some 0x44280000 ∧ scaleProduct f 1 0 0x7E = some 0x43E00000 ∧ commonScale f 0x44280000 0 = 0x3FC00000 ∧
      requant f false 3 0 3 (-1) 0x76 = { code := 0x7E } ∧ requant f false 1 0 3 (-1) 0x7E = { code := 0x79 } := by decide +kernel

/-- Chapter 8: minimums of 80,000 B/us on a link that keeps 72,450 of its capacity give SCALE 53,415. -/
theorem test_scale : min 65536 (65536 * (9 * 72450 / 10) / 80000) = 53415 ∧ 40000 * 53415 / 65536 = 32601 := by decide

/-- The check value of CRC-64 with this polynomial, reflected, of the nine digits 1 to 9 (CRC-64/XZ). -/
theorem test_crc : crc64 [0x31, 0x32, 0x33, 0x34, 0x35, 0x36, 0x37, 0x38, 0x39] = 0x995DC9BBDF1939FA := by decide +kernel

/-! ### Hypotheses are met: refused commands, waits and resets of crossings, and what packets do -/

theorem test_hyp_ResetsAndBoot_due :
    let s (c : Nat) (d : Option Nat) : State := { ready with boot := { stage := .ready, due := d }, mgCrd := c, mgQ := [(0, 0), (1, 0)] }
    ported (s 3 none) = true ∧ (s 3 none).boot.due = none ∧ (s 3 none).mgQ.length < (s 3 none).mgCrd ∧
      ported (s 1 none) = true ∧ (s 1 none).boot.due = none ∧ (s 1 none).mgCrd ≤ (s 1 none).mgQ.length ∧
      ported (s 1 (some 2)) = true ∧ (s 1 (some 2)).boot.due = some 2 ∧ (s 1 (some 2)).mgCrd < 2 ∧
      (s 1 (some 2)).mgCrd ≤ (s 1 (some 2)).mgQ.length := by decide

theorem test_hyp_EportCommands_refused :
    let b : BitVec 128 := beat 0x0A 0 511 lastByte
    let s := eported { cmdCrd := 1 }
    beatOk b = false ∧ beatOp b = 0x0A ∧ (s.eport 15).cmdCrd ≠ 0 ∧ ((s.eport 15).flight.all fun c => decide (c.1 ≠ beatTag b)) = true ∧
      s.fc.safe = false ∧ s.beatCheck b = stMalformed := by decide +kernel

theorem test_hyp_EportCommands_loadRefused :
    let b : BitVec 128 := beat 0 0 511 0x01FFC00000200000
    let s := eported { cmdCrd := 1 }
    beatOk b = true ∧ beatOp b = 0 ∧ (s.eport 15).cmdCrd ≠ 0 ∧ ((s.eport 15).flight.all fun c => decide (c.1 ≠ beatTag b)) = true ∧
      s.fc.safe = false ∧ s.beatCheck b = stBadaddr := by decide +kernel

theorem test_hyp_EportCommands_storeRefused :
    let s := eported { cmdCrd := 1 }
    ∀ op ∈ [1, 2, 3, 4, 5, 6, 7, 8, 9], let b := beat op 3 511 0x01FFC00000200000
      beatOp b = op ∧ (s.eport 15).cmdCrd ≠ 0 ∧ (s.eport 15).wdBuf = [] ∧
        ((s.eport 15).flight.all fun c => decide (c.1 ≠ beatTag b)) = true ∧ s.fc.safe = false ∧ s.beatCheck b = stBadaddr := by
  decide +kernel

theorem test_hyp_EportCommands_refusedWd :
    let c : ECmd := { beat := beat 1 63 511 0x01FFC000001FFFC1, stage := .needWd, early := some 1 }
    let s := eported { wdCrd := 1, wdWait := [some 511], flight := [(511, c)] }
    (s.eport 15).wdCrd ≠ 0 ∧ (s.eport 15).wdBuf = [] ∧ (s.eport 15).wdWait = some 511 :: [] ∧ (s.eport 15).flight = (511, c) :: [] ∧
      c.stage = .needWd ∧ c.early = some 1 ∧ (∀ e ∈ ([] : List (Nat × ECmd)), e.2.stage ≠ .queued) := by decide

theorem test_hyp_ManagementAccess_settle :
    (0x1FFFF8 : BitVec 26).toNat < 0x200000 ∧
      ¬ (0x22000 ≤ (0x1FFFF8 : BitVec 26).toNat ∧ (0x1FFFF8 : BitVec 26).toNat < 0x23000) ∧ opened ready = true := by decide

theorem test_hyp_LaneAlignment_window :
    let l : Lane := { cdr := true, align := { counting := true, good := 1000, bad := 23 } }
    let s := laned l
    s.laneHears 95 = true ∧ (laned {}).laneHears 95 = false ∧ (s.lane 95).align.counting = true ∧ (s.lane 95).align.pend = false ∧
      (s.lane 95).align.good.toNat + (s.lane 95).align.bad.toNat ≤ 1023 := by decide

theorem test_hyp_Codewords_cut :
    let x : Xing := { core := { req := true, ack := true } }
    let s := linked { data with fec := { cur := 3 } }
    s.linkCut false 23 = false ∧ (linked data).link 23 = data ∧ ((linked data).link 23).fec.cur = 0 ∧ (linked { fec := { cur := 3 } }).carriesFrames 23 = false ∧
      ({ s with xings := [(92, x), (93, x), (94, x), (95, x)] } : State).linkCut false 23 = true := by decide

theorem test_hyp_Commits_waits :
    let img (a : Nat) : Img := [(a, 1)]
    let b (c : BitVec 8) (a : Nat) : State :=
      { grouped with commit := { busy := true, code := c, image := img a }, groups := [(511, { arr := [(0, { op := 1, ctl := 0, seq := 0, data := [] })] })] }
    ready.commit.busy = false ∧ ({ held with commit := { busy := true } } : State).admits = false ∧
      ({ ready with commit := { busy := true } } : State).commitWaits = false ∧
      (b 6 0x7FC0).sipBusy 511 = true ∧ gChanges (b 6 0x7FC0).smvTab (imgWord 6 (b 6 0x7FC0).commit.image) 511 = true ∧
      sipChanges (b 8 0xFF80).sipTab (imgWord 8 (b 8 0xFF80).commit.image) 511 = true ∧ (b 8 0xFF80).commit.busy = true ∧
      (b 8 0xFF80).sipBusy 511 = true := by decide +kernel

theorem test_hyp_LinkTimers_empty :
    let s := linked data
    s.running = true ∧ s.carriesFrames 23 = true ∧ s.injects 23 = false ∧ s.linkSends 23 = true ∧ (s.link 23).ll.resumeWait = none ∧
      (s.link 23).ll.paceDue = false ∧ (s.link 23).ll.nakPend = false ∧ (s.link 23).ll.reportPool = none ∧
      (s.link 23).ll.credInit = [] ∧ (s.link 23).ll.replay = none ∧ (s.link 23).outq = [] := by decide

theorem test_hyp_QueueBinding_fails :
    let t := queued (fifo .halted)
    (∀ word ∈ [(0, (0x8000000000000001 : Word)), (1, 0), (2, 0)],
      (t.queue 8191).st ≠ .unbound ∧ t.resting 8191 = true ∧ opened t = true) ∧
      ((t.queue 8191).withWord 0 0x8000000000000000).valid = true ∧
      ({ t with win := [(0x31008, 0)] } : State).bindErr 8191 ((t.queue 8191).withWord 0 0x8000000000000000) ≠ 0 ∧
      ({ t with win := [(0x31008, 0)] } : State).bindErr 8191 ((t.queue 8191).withWord 2 0) ≠ 0 ∧
      (ready.queue 8191).st = .unbound ∧ ((ready.queue 8191).withWord 0 0x7FFFFFFFFFFFFFFF).valid = false := by decide +kernel

theorem test_hyp_Doorbells_unbound : opened ready = true ∧ (ready.queue 8191).st = .unbound := by decide

theorem test_hyp_MoveInsns_overlap :
    ∀ e ∈ [((0x01FFC00000000000 : Word), 0x01FFC00000000000), (0x01FFC0000000003F, 0x01FFC0000000003F),
        (0x01FFBFFFFFFFFFC1, 0x01FFBFFFFFFFFFC1)],
      let w : Fields := { a := 1, b := 2 }
      let s := asked 1 0 w (g012 e.1 0x01FFC00000000000 64)
      let b := began 1 0 w s
      runs 1 0 w s = true ∧ w.only true true true false 0 0 = true ∧ (b.gB 8191 w).toNat = 64 ∧ (b.gD 8191 w).toNat = e.2 ∧
        (b.gA 8191 w).toNat = 0x01FFC00000000000 ∧ bits (b.gD 8191 w) 56 8 = 1 ∧ bits (b.gA 8191 w) 56 8 = 1 := by decide +kernel

theorem test_hyp_GroupsAndMilestone_idle :
    opened ready = true ∧ (ready.grp 511).st ≠ .running ∧ (ready.grp 511).st ≠ .parked := by decide

theorem test_hyp_CountersAndTrace_spill :
    let s (v z : Word) : State := { ready with win := [(0x20010, v), (0x20028, z)] }
    let e : Word := 0x1000000000000000
    let on : Word := 0x8000000000000000
    opened (s e 0) = true ∧ bit (s e 0).traceCtl 60 = true ∧ bits ((s e 0).reg 0x20028) 0 29 = 0 ∧
      bit (s on 0).traceCtl 63 = true ∧ bit (s on 0).traceCtl 60 = false ∧
      bit (s (on + e) 1).traceCtl 63 = true ∧ bits ((s (on + e) 1).reg 0x20028) 0 29 ≠ 0 ∧
      bit (s e 1).traceCtl 63 = false ∧ bits ((s e 1).reg 0x20028) 0 29 ≠ 0 := by decide

theorem test_hyp_ScanAndBench_cut :
    let x : Xing := { clk := { req := true, ack := true } }
    let s : State := { ready with xings := [(xingKey .tck, x)] }
    (s.xings.get {} (xingKey .tck)).inReset = true ∧ (curfewed.xings.get {} (xingKey .tck)).inReset = false ∧
      curfewed.obs.curfew.on = true ∧ curfewed.obs.tap.sect ≠ 0x30 ∧ ready.obs.scan.sect ≠ 0x30 := by decide

theorem test_hyp_PacketRows_placement :
    let s : State := { placed with
      tables := { inn := [(0x40, fields [(40, 20, 1)]), (0x48, fields [(32, 12, 1)])] ++ placed.tables.inn }
      win := [(0x31008, 1)] ++ placed.win }
    ∀ e ∈ [((1, 0), kReplica, false), ((3, 1), kGuest, true)],
      let w : Word := fields [(60, 4, e.1.1), (49, 11, 5), (48, 1, e.1.2)]
      let p : Pkt := { op := 0x61, src := 5, len := 16, addr := 0xFFC00000000000, data := leBytes 16 w.toNat }
      let k := pageKey p.addr
      let u : State := { s with inn := { lodge := [(8 * lodgeSet k + 7, { kind := e.2.1, key := k, busy := true, spad := e.2.2 })] } }
      word64 p.data 0 = w ∧ s.plCheck p true = stOk ∧ s.comesHome k w = false ∧ s.overQuota k = false ∧ plEntry w = e.2.1 ∧
        s.canMake (plEntry w) k = vGranted ∧ s.freeFrame (plSpad w) = some 0 ∧ s.pins.hot = 0 ∧ s.ownMove k = none ∧
        s.lodgeIdx (plEntry w) k = none ∧ u.lodgeIdx (plEntry w) k = some (8 * lodgeSet k + 7) ∧
        (u.lodgeAt (8 * lodgeSet k + 7)).busy = true ∧ u.plCheck p true = stOk ∧ u.comesHome k w = false ∧ u.ownMove k = none := by
  decide +kernel

theorem test_hyp_PacketRows_dropped :
    isReplKind kRepl = true ∧ isReplKind 0 = false ∧ (0 : Nat) ≠ kUnrepl ∧ (4 : BitVec 11) ≠ placed.chip ∧
      placed.comesHome (pageKey (0xFFC00000000000 : BitVec 56)) (fields [(60, 4, 3), (49, 11, 5), (48, 1, 1)]) = false := by decide +kernel

theorem test_hyp_PacketRows_collective :
    let p : Pkt := { op := 0xA0, src := 6, addr := BitVec.ofNat 56 (511 * 2 ^ 47) }
    let s : State := { grouped with groups := [(511, { insns := [{ queue := 8191, seq := 0, agt := true, fmt := 0, sgn := false, src := 0, dst := 4096, count := 1024, obj := 4095, priv := false }], slots := [{ num := 0, idx := 0 }] })] }
    ∃ w, s.work_ (clGroup p) (clChunk p) = some w ∧ (w.k.brd.get {} (clSub p)).done = none := by
  refine ⟨_, rfl, ?_⟩
  decide +kernel

theorem test_hyp_PacketRows_sip :
    let p : Pkt := { op := 1, src := 7, dst := 5, addr := BitVec.ofNat 56 (511 * 2 ^ 47) }
    sipDown p = false ∧ grouped.childIdx (sipGroup p) p.src.toNat = some 0 ∧ tRelay grouped.sipTab (sipGroup p) = false ∧
      (grouped.grp (sipGroup p)).sipOp = none := by decide +kernel

end Sys2Proof.Tests
end

section
/-! SUPPORT. Writes and reads of the management window, outcome by outcome (R49, R50, R454, R465), and the obligation about them. -/

namespace Sys2Proof.Machine
open Sys2Proof.Safety

/-! ### The rows of the dispatch -/

theorem exec_mgmtWrite (addr : BitVec 26) (size8 : Bool) (data : BitVec 64) (s : State) :
    exec (.mgmtWrite addr size8 data) s = .next (s.mgmtWrite addr.toNat size8 data) := rfl

theorem exec_rcFieldRead {s : State} (h : Port s) (addr : BitVec 26) (size8 : Bool) :
    exec (.rcFieldRead addr size8) s = .next (s.mgmtRead addr.toNat size8) := by
  obtain ⟨hopen, hcredit⟩ := h
  change execRcFieldRead addr size8 s = _
  unfold execRcFieldRead
  rw [State.mgBeat_credit hcredit, if_pos hopen]

/-! ### Writes (R49, R50, R454) -/

theorem State.mgmtWrite_no_credit {s : State} (h : s.mgCmd = 0) (addr : Nat) (size8 : Bool) (v : Word) :
    s.mgmtWrite addr size8 v = (s.portProto mgXing).kick := by
  unfold State.mgmtWrite
  exact State.mgBeat_none h _

theorem State.mgmtWrite_booting {s : State} (h : s.mgmtOpen = false) (hc : s.mgCmd ≠ 0) (addr : Nat) (size8 : Bool) (v : Word) :
    s.mgmtWrite addr size8 v = s.mgReply 0 mgBooting := by
  unfold State.mgmtWrite
  rw [State.mgBeat_credit hc, State.mgWrite_booting h hc]
  simp [h]

theorem State.mgmtWrite_misaligned {s : State} (h : Port s) {addr : Nat} {size8 : Bool} (ha : mgAligned addr size8 = false) (v : Word) :
    s.mgmtWrite addr size8 v = s.mgReply 0 mgMalformed := by
  unfold State.mgmtWrite
  rw [State.mgBeat_credit h.2]
  simp [h.1, ha]

/-- An aligned write goes on to the gate all management writes share. -/
theorem State.mgmtWrite_aligned {s : State} (h : Port s) {addr : Nat} {size8 : Bool} (ha : mgAligned addr size8 = true) (v : Word) :
    s.mgmtWrite addr size8 v = s.mgWrite addr size8 v fun s => s.mgmtAct addr size8 v := by
  unfold State.mgmtWrite
  rw [State.mgBeat_credit h.2]
  simp [ha]

/-- RESUME acts in curfew alone (R457). -/
theorem State.mgmtAct_no_curfew {s : State} (h : s.obs.curfew.on = false) (addr : Nat) (size8 : Bool) (v : Word) :
    s.mgmtAct addr size8 v = s.writeAt addr size8 v := by
  simp [State.mgmtAct, h]

theorem State.holdWrite_room {s : State} (h : s.obs.curfew.hold.length < 256) (addr : BitVec 26) (size8 : Bool) (v : Word) :
    s.holdWrite addr size8 v =
      { s with obs := { s.obs with curfew := { s.obs.curfew with hold := s.obs.curfew.hold ++ [(addr, size8, v)] } } } := by
  simp [State.holdWrite, h]

theorem mgmtWrite_answers_open {s : State} (h : Open s) {addr : BitVec 26} {size8 : Bool} (ha : mgAligned addr.toNat size8 = true)
    (data : BitVec 64) : Answers (.mgmtWrite addr size8 data) s (s.writeAt addr.toNat size8 data) := by
  unfold Answers Does
  rw [exec_mgmtWrite, State.mgmtWrite_aligned h.1 ha, State.mgWrite_open h, State.mgmtAct_no_curfew h.2]

theorem mgmtWrite_answers_held {s : State} (h : Port s) (hc : s.obs.curfew.on = true) {addr : BitVec 26} {size8 : Bool}
    {data : BitVec 64} (ha : mgAligned addr.toNat size8 = true) (ho : curfewOpen addr.toNat size8 data = false)
    (hroom : s.obs.curfew.hold.length < 256) :
    Answers (.mgmtWrite addr size8 data) s
      { s with obs := { s.obs with curfew := { s.obs.curfew with hold := s.obs.curfew.hold ++ [(addr, size8, data)] } } } := by
  unfold Answers Does
  rw [exec_mgmtWrite, State.mgmtWrite_aligned h ha, State.mgWrite_held h hc ho, BitVec.ofNat_toNat, BitVec.setWidth_eq,
    State.holdWrite_room hroom]

/-- The low half of OBS_TRACE_CTL is all reserved (R439). -/
theorem State.writeAt_traceCtl_low (s : State) (v : Word) : s.writeAt 0x20010 false v = s := by
  simp [State.writeAt, State.writeHalf]

/-! ### Reads (R10, R454, R465) -/

theorem State.mgmtRead_word {s : State} {addr : Nat} (ha : addr % 8 = 0) (htrace : addr ≠ 0x20038) (hscan : addr ≠ 0x20308) :
    s.mgmtRead addr true =
      (let u := s.settle addr
       (if u.obs.curfew.on then u else u.clearRc addr).mgReply (u.peek addr) mgOk) := by
  have hword : addr / 8 * 8 = addr := Nat.div_mul_cancel (Nat.dvd_of_mod_eq_zero ha)
  simp [State.mgmtRead, mgAligned, ha, hword, htrace, hscan]

theorem State.mgmtRead_half {s : State} {addr : Nat} (ha : addr % 4 = 0) (hscan : addr / 8 * 8 ≠ 0x20308) :
    s.mgmtRead addr false =
      (let u := s.settle (addr / 8 * 8)
       u.mgReply (halfOf addr (u.peek (addr / 8 * 8))) mgOk) := by
  simp [State.mgmtRead, mgAligned, ha, hscan]

/-- Below the windows of the lanes, and away from the counters, no count is brought up to the present. -/
theorem State.settle_eq_self (s : State) {a : Nat} (hlane : a < 0x200000) (hcnt : ¬ (0x22000 ≤ a ∧ a < 0x23000)) : s.settle a = s := by
  unfold State.settle
  rw [if_neg (fun h => Nat.not_lt.mpr h.1 hlane), if_neg hcnt]

/-- Settles O8: each clause is one outcome of the write or of the read. -/
theorem managementAccess : Obligations.ManagementAccess := by
  unfold Obligations.ManagementAccess
  refine ⟨fun addr size8 data s => ⟨?performed, ?held, ?malformed, ?noCredit, ?booting⟩,
    fun addr s hport => ⟨?word, ?half, ?settle⟩, ?traceCtl⟩
  case performed => exact fun h ha => mgmtWrite_answers_open h ha data
  case held => exact fun h hc ha ho hroom => mgmtWrite_answers_held h hc ha ho hroom
  case malformed =>
    intro h ha
    rw [exec_mgmtWrite, State.mgmtWrite_misaligned h ha]
  case noCredit =>
    intro h
    unfold Does
    rw [exec_mgmtWrite, State.mgmtWrite_no_credit h]
  case booting =>
    intro h hc
    rw [exec_mgmtWrite, State.mgmtWrite_booting h hc]
  case word =>
    intro ha htrace hscan
    rw [exec_rcFieldRead hport, State.mgmtRead_word ha htrace hscan]
  case half =>
    intro ha hscan
    rw [exec_rcFieldRead hport, State.mgmtRead_half ha hscan]
    rfl
  case settle => exact s.settle_eq_self
  case traceCtl =>
    intro data s h
    have := mgmtWrite_answers_open h (addr := 0x20010) (size8 := false) rfl data
    rwa [show (0x20010 : BitVec 26).toNat = 0x20010 from rfl, State.writeAt_traceCtl_low] at this

end Sys2Proof.Machine
end

section
/-! SUPPORT. What lasts through every command but a cold reset (R16, R57): a property of the waiting commands, the fuses and the
partitions that a warm reset and a write of SEC_PART_CTL leave standing; and the two obligations about a step. -/

namespace Sys2Proof.Machine

/-! ### Operations that keep the queue, the fuses and the partitions -/

@[simp] theorem State.reactLate_kept (s : State) : s.reactLate.kept = s.kept := by
  unfold State.reactLate
  exact (forEach_kept _ _ _ fun _ _ => State.respondTo_kept _ _ _).trans rfl

@[simp] theorem State.ctlRow_kept (s : State) (k : Nat) (act : State → State) (hact : ∀ r, (act r).kept = r.kept) :
    (s.ctlRow k act).kept = s.kept := by
  unfold State.ctlRow
  exact kept_if (by simp [hact]) rfl

/-- A write outside the security registers changes no partition. -/
theorem State.writeReg_kept (s : State) {a : Nat} (v : Word) (ha : a < 0x30000 ∨ 0x40000 ≤ a) : (s.writeReg a v).kept = s.kept := by
  have hsec {t u : State} (ht : t.kept = s.kept) (hu : u.kept = s.kept) :
      (if a < 0x30000 then t else if a < 0x40000 then s.writeSec (a - 0x30000) v else u).kept = s.kept := by
    rcases ha with hlow | hhigh
    · rwa [if_pos hlow]
    · rwa [if_neg (by omega), if_neg (by omega)]
  unfold State.writeReg
  refine kept_if (State.writeGbl_kept _ _ _) (kept_if (State.writeFc_kept _ _ _) (hsec (State.writeObs_kept _ _ _) ?_))
  repeat' with_reducible refine kept_if ?_ ?_
  all_goals simp

theorem State.writeReg_sec (s : State) {a : Nat} (v : Word) (hlow : 0x30000 ≤ a) (hhigh : a < 0x40000) :
    s.writeReg a v = s.writeSec (a - 0x30000) v := by
  unfold State.writeReg
  rw [if_neg (by omega), if_neg (by omega), if_neg (by omega), if_pos hhigh]

/-- LINKSET reaches the registers of links and lanes alone (R316). -/
theorem linksetAddr_high {w : Fields} {a : Nat} (h : linksetAddr w = some a) : 0x100000 ≤ a := by
  unfold linksetAddr at h
  grind

@[simp] theorem insnLinkset_kept (q : Nat) (w : Fields) (s : State) : (insnLinkset q w s).kept = s.kept := by
  have hwrite (r : State) (v : Word) : (r.writeReg ((linksetAddr w).getD 0) v).kept = r.kept := by
    refine State.writeReg_kept r v ?_
    cases h : linksetAddr w with
    | none => simp
    | some a => exact .inr ((by decide : 0x40000 ≤ 0x100000).trans (linksetAddr_high h))
  unfold insnLinkset
  refine State.p0Only_kept _ _ _ fun r => State.legal_kept _ _ _ _ fun r => kept_if ?_ ?_
  · rw [State.finish_kept, hwrite]
  · simp

/-- No instruction of the opcode map touches any of the three. -/
theorem insnBody_kept {cls op : Nat} {f : Nat → Fields → State → State} (h : insnBody cls op = some f) (q : Nat) (w : Fields) (s : State) :
    (f q w s).kept = s.kept := by
  unfold insnBody at h
  split at h
  case h_46 => cases h
  all_goals
    cases h
    simp

@[simp] theorem State.stewardChoose_kept (s : State) (n : Nat) : (s.stewardChoose n).kept = s.kept := by
  unfold State.stewardChoose
  split
  · rfl
  · exact State.claim_kept _ _ _
  · dsimp only
    split
    next h => exact (insnBody_kept h _ _ _).trans (State.begin_kept _ _ _ _)
    · rw [State.execFault_kept, State.begin_kept]

/-- The row of an instruction is the body the opcode map gives its class and opcode, run if the steward has chosen it. -/
theorem State.insnRow_body_kept {cls op : Nat} {f : Nat → Fields → State → State} (h : insnBody cls op = some f) (s : State) (n : Nat)
    (w : Fields) : (s.insnRow n (insnWord cls op w) fun q r => f q w r).kick.kept = s.kept :=
  (State.kick_kept _).trans (State.insnRow_kept _ _ _ _ fun q r => insnBody_kept h q w r)

/-! ### What every command leaves standing -/

/-- A property that looks at the waiting commands, the fuses and the partitions alone, and that the two operations which change
a partition leave standing: a warm reset (R57) and a write of SEC_PART_CTL (R383). -/
structure Lasting (P : State → Prop) : Prop where
  of_kept : ∀ {s t : State}, P s → t.kept = s.kept → P t
  warmReset : ∀ {s : State} (cause : BitVec 2), P s → P (s.warmReset cause)
  writePart : ∀ {s : State} (p : Nat) (v : Word), P s → P (s.writePart p v)

/-- The loop form of an invariant: what each turn keeps, the loop keeps. -/
theorem forEach_preserves {α : Type} {P : State → Prop} {f : α → State → State} (hf : ∀ a r, P r → P (f a r)) (l : List α) {s : State}
    (hs : P s) : P (forEach l f s) := by
  induction l generalizing s with
  | nil => exact hs
  | cons a l ih => exact ih (hf a s hs)

section
variable {P : State → Prop} (hP : Lasting P) {s : State}
include hP

/-! ### The management port: a response may let a BLOCK_RST that is due begin (R59) -/

theorem Lasting.mgPump (hs : P s) : P s.mgPump := by
  unfold State.mgPump
  dsimp only
  split
  · exact hP.of_kept hs rfl
  · split
    · exact hP.warmReset 2 (hP.of_kept hs rfl)
    · exact hP.of_kept hs rfl

theorem Lasting.mgReply (data : Word) (st : BitVec 2) (hs : P s) : P (s.mgReply data st) :=
  hP.mgPump (hP.of_kept hs ((State.crossEvents_kept _ _ _ _).trans (State.emit_kept _ _)))

theorem Lasting.mgBeat {k : State → State} (hs : P s) (hk : P (k s)) : P (s.mgBeat k) := by
  unfold State.mgBeat
  split
  · exact hP.of_kept hs ((State.kick_kept _).trans (State.portProto_kept _ _))
  · exact hk

theorem Lasting.mgWrite (addr : Nat) (size8 : Bool) (data : Word) {act : State → State} (hs : P s) (hact : P (act s)) :
    P (s.mgWrite addr size8 data act) := by
  unfold State.mgWrite
  refine hP.mgBeat hs ?_
  split
  · exact hP.mgReply _ _ hs
  · refine hP.of_kept (hP.mgReply _ _ ?_) (State.kick_kept _)
    split
    · exact hP.of_kept hs (State.holdWrite_kept _ _ _ _)
    · exact hact

theorem Lasting.mgWrite_kept (addr : Nat) (size8 : Bool) (data : Word) {act : State → State} (hs : P s)
    (hact : (act s).kept = s.kept) : P (s.mgWrite addr size8 data act) :=
  hP.mgWrite addr size8 data hs (hP.of_kept hs hact)

/-! ### The effect of a management write (R49, R383, R457) -/

theorem Lasting.writeSec (o : Nat) (v : Word) (hs : P s) : P (s.writeSec o v) := by
  unfold State.writeSec
  split
  case h_5 =>
    dsimp only
    split_ifs
    case pos => exact hs
    · exact hP.of_kept hs (State.setReg_kept _ _ _)
    · exact hP.of_kept hs (State.setReg_kept _ _ _)
    · exact hP.of_kept hs (State.plain_kept _ _ _ _)
    · exact hP.writePart _ _ hs
    · exact hP.of_kept hs (State.writeQuota_kept _ _ _)
    · exact hP.of_kept hs (State.plain_kept _ _ _ _)
    · exact hs
    · exact hs
  all_goals exact hP.of_kept hs (by simp)

theorem Lasting.writeReg (a : Nat) (v : Word) (hs : P s) : P (s.writeReg a v) := by
  by_cases hout : a < 0x30000 ∨ 0x40000 ≤ a
  · exact hP.of_kept hs (s.writeReg_kept v hout)
  · rw [s.writeReg_sec v (by omega) (by omega)]
    exact hP.writeSec _ _ hs

theorem Lasting.writeHalf (addr : Nat) (v : Word) (hs : P s) : P (s.writeHalf addr v) := by
  unfold State.writeHalf
  refine iteInduction (fun _ => hs) fun _ => ?_
  refine iteInduction (fun _ => ?_) fun _ => hP.writeReg _ _ hs
  exact hP.of_kept (hP.writeReg _ _ hs) (State.modCommit_kept _ _)

theorem Lasting.writeAt (addr : Nat) (size8 : Bool) (v : Word) (hs : P s) : P (s.writeAt addr size8 v) := by
  unfold State.writeAt
  split
  · exact hP.writeReg _ _ hs
  · exact hP.writeHalf _ _ hs

theorem Lasting.applyHeld (h : BitVec 26 × Bool × Word) (hs : P s) : P (s.applyHeld h) := by
  unfold State.applyHeld
  refine iteInduction (fun _ => ?_) fun _ => hP.writeAt _ _ _ hs
  exact hP.of_kept (hP.writeAt _ _ _ hs) (State.modMs_kept _ _)

/-- A resume performs the writes held through curfew; what follows keeps all three. -/
theorem Lasting.resume (hs : P s) : P s.resume := by
  unfold State.resume
  refine iteInduction (fun _ => hs) fun _ => ?_
  have hheld := forEach_preserves (fun h _ => hP.applyHeld h) s.obs.curfew.hold (hP.of_kept hs (State.modObs_kept s
    fun o => { o with curfew := { o.curfew with on := false, hold := [] } }))
  refine hP.of_kept hheld (kept_if rfl (kept_if (State.modPins_kept _ _) ?_))
  rw [State.fireLevels_kept, State.reactLate_kept, State.dropNotes_kept, State.restart_kept, State.curfewRec_kept]
  refine (forEach_kept _ _ _ fun _ _ => State.modLL_kept _ _ _).trans ?_
  rw [State.onLinks_kept, State.modPins_kept]

theorem Lasting.mgmtAct (addr : Nat) (size8 : Bool) (v : Word) (hs : P s) : P (s.mgmtAct addr size8 v) := by
  unfold State.mgmtAct
  split
  · exact hP.resume hs
  · exact hP.writeAt _ _ _ hs

theorem Lasting.mgmtWrite (addr : Nat) (size8 : Bool) (v : Word) (hs : P s) : P (s.mgmtWrite addr size8 v) := by
  unfold State.mgmtWrite
  refine hP.mgBeat hs ?_
  split
  · exact hP.mgReply _ _ hs
  · exact hP.mgWrite _ _ _ hs (hP.mgmtAct _ _ _ hs)

/-! ### Reads of the window, BLOCK_RST and the credit of the responses -/

theorem Lasting.readTrace (hs : P s) : P s.readTrace :=
  hP.mgReply _ _ (hP.of_kept hs (State.setReg_kept _ _ _))

theorem Lasting.readScan (hs : P s) : P s.readScan := by
  unfold State.readScan
  split
  · exact hP.mgReply _ _ hs
  · exact hP.mgReply _ _ (hP.of_kept hs ((State.modObs_kept _ _).trans (State.scanSettle_kept _ _)))

theorem Lasting.mgmtRead (addr : Nat) (size8 : Bool) (hs : P s) : P (s.mgmtRead addr size8) := by
  unfold State.mgmtRead
  refine iteInduction (fun _ => hP.mgReply _ _ hs) fun _ => iteInduction (fun _ => ?word) fun _ => ?half
  case word =>
    refine iteInduction (fun _ => hP.readTrace hs) fun _ => iteInduction (fun _ => hP.readScan hs) fun _ => ?_
    exact hP.mgReply _ _ (hP.of_kept hs (kept_if (State.settle_kept _ _) ((State.clearRc_kept _ _).trans (State.settle_kept _ _))))
  case half =>
    refine iteInduction (fun _ => ?_) fun _ => ?_
    · exact hP.mgReply _ _ (hP.of_kept hs (State.scanSettle_kept _ _))
    · exact hP.mgReply _ _ (hP.of_kept hs (State.settle_kept _ _))

/-- A read command: BOOTING before MGMT_OPEN (R50), otherwise the read. -/
theorem Lasting.mgBeat_open {read : State → State} (hs : P s) (hread : P (read s)) :
    P (s.mgBeat fun s => if s.mgmtOpen then read s else s.mgReply 0 mgBooting) :=
  hP.mgBeat hs (iteInduction (fun _ => hread) fun _ => hP.mgReply _ _ hs)

theorem Lasting.blockRst (hs : P s) : P s.blockRst := by
  unfold State.blockRst
  refine hP.mgBeat hs ?_
  split
  · exact hP.mgReply _ _ hs
  · exact hP.mgReply _ _ (hP.of_kept hs (State.oweReset_kept _))

theorem Lasting.takeCredited (ch : Channel) (hs : P s) : P (s.takeCredited ch) := by
  unfold State.takeCredited
  cases ch
  case mgRsp =>
    refine iteInduction (fun _ => hs) fun _ => iteInduction (fun _ => ?_) fun _ => ?_
    · exact hP.of_kept hs (State.portProto_kept _ _)
    · exact hP.mgPump (hP.of_kept hs (State.crossEvents_kept _ _ _ _))
  case eCpl => exact hP.of_kept hs (State.credited_kept _ _ _ _ fun _ => State.modEPort_kept _ _ _)
  all_goals exact hP.of_kept hs (State.credited_kept _ _ _ _ fun _ => State.modCrd_kept _ _ _ _)

/-! ### CURFEW blocks, which may resume the block (R457), and frames, into which one may break (R158) -/

theorem Lasting.takeResume (k : Nat) (w : Word) (hs : P s) : P (s.takeResume k w) := by
  unfold State.takeResume
  refine iteInduction (fun _ => ?_) fun _ => iteInduction (fun _ => hs) fun _ => ?_
  · exact hP.of_kept hs (State.linkResumed_kept _ _)
  · exact hP.of_kept (hP.resume (hP.of_kept hs (State.modObs_kept _ _))) (State.linkResumed_kept _ _)

theorem Lasting.takeCurfewBlock (k : Nat) (w : Word) (hs : P s) : P (s.takeCurfewBlock k w) := by
  unfold State.takeCurfewBlock State.control
  split_ifs
  · exact hP.of_kept hs (State.takeEntry_kept _ _ _)
  · exact hP.takeResume k w hs
  · exact hP.of_kept hs (State.ctlMalf_kept _ _)

theorem Lasting.curfewRow (k kind : Nat) (w : Word) (hs : P s) : P (s.curfewRow k kind w) := by
  unfold State.curfewRow
  split
  · exact hs
  · exact hP.of_kept (hP.takeCurfewBlock k w (hP.of_kept hs (State.endTs_kept _ _))) (State.kick_kept _)

theorem Lasting.strayControl (k : Nat) (w : Word) (hs : P s) : P (s.strayControl k w) := by
  unfold State.strayControl
  split
  case h_8 => exact hP.takeCurfewBlock k w hs
  all_goals exact hP.of_kept hs (by simp)

theorem Lasting.frameRx (k : Nat) (fr : RxFrame) (hs : P s) : P (s.frameRx k fr) := by
  have hcap := hP.of_kept hs ((State.endTs_kept _ k).trans (State.captureFrame_kept s k (slice fr.bytes 0 256)))
  unfold State.frameRx
  refine iteInduction (fun _ => hs) fun _ => iteInduction (fun _ => ?outside) fun _ =>
    iteInduction (fun _ => hcap) fun _ => iteInduction (fun _ => ?full) fun _ => ?inside
  case outside => exact hP.of_kept hs (kept_if (State.endTs_kept _ _) ((State.ctlMalf_kept _ _).trans (State.endTs_kept _ _)))
  case full => exact hP.of_kept hcap ((State.discardFrame_kept _ _).trans (State.modCnt_kept _ _ _))
  case inside =>
    split
    · exact hP.strayControl _ _ (hP.of_kept hcap ((State.discardFrame_kept _ _).trans (State.modCnt_kept _ _ _)))
    · exact hP.of_kept hcap (kept_if (State.discardFrame_kept _ _) (State.checkFrame_kept _ _ _))

/-! ### The dispatch -/

/-- Every command but a cold reset ends in a next state, where what lasts still holds. -/
theorem Lasting.exec {c : Instr} (hc : ∀ tm, c ≠ .coldReset tm) (hs : P s) : ∃ t, exec c s = .next t ∧ P t := by
  cases c
  case coldReset tm => exact absurd rfl (hc tm)
  case warmReset => exact ⟨_, rfl, hP.warmReset 1 hs⟩
  case blockRst => exact ⟨_, rfl, hP.blockRst hs⟩
  case channelCredit => exact ⟨_, rfl, hP.of_kept (hP.takeCredited _ hs) (State.kick_kept _)⟩
  case frame => exact ⟨_, rfl, hP.of_kept (hP.frameRx _ _ hs) (State.kick_kept _)⟩
  case curfewEntryBlock | curfewResumeBlock => exact ⟨_, rfl, hP.curfewRow _ _ _ hs⟩
  case rcFieldRead => exact ⟨_, rfl, hP.mgBeat_open hs (hP.mgmtRead _ _ hs)⟩
  case traceDataRead => exact ⟨_, rfl, hP.mgBeat_open hs (hP.readTrace hs)⟩
  case scanDataRead => exact ⟨_, rfl, hP.mgBeat_open hs (hP.readScan hs)⟩
  case mgmtWrite => exact ⟨_, rfl, hP.mgmtWrite _ _ _ hs⟩
  case secPartCtlWrite => exact ⟨_, rfl, hP.mgWrite _ _ _ hs (hP.writePart _ _ hs)⟩
  case curfewResume => exact ⟨_, rfl, hP.mgWrite _ _ _ hs (hP.resume hs)⟩
  -- The other rows that are writes of one register.
  case partRst | linkRst | txeqApply | slip | clear | eyeScanStart | prbsEnable | injOne | enable | linkDisable | retrain | admitGuest
      | test | eqReqSend | tcommitTrainingTable | tcommitInstalledPlan | tcommitRoutingTable | tcommitSchedulingTable
      | tcommitInnkeeperTable | tcommitSamovarTable | tcommitFormatTable | tcommitSipTree | tcommitTastingMenu | queueBind
      | queueUnbind | start | restart | queueClear | skip | queueHalt | doorbell | stwCtlWrite | syncCtlWrite | syncValWrite
      | prtSyncAdd | park | resume | abort | msGo | rekey | advance | scrubGo | spdmGo | fcStatusClear | fcFirstClear | errDriveWrite
      | faultInject | counterSelectWrite | counterPreset | traceEnable | fire | enter | scanStart | seek | benchInject =>
    exact ⟨_, rfl, hP.mgWrite_kept _ _ _ hs (by simp)⟩
  -- The 45 instructions.
  case setg | addg | jmp | bnz | loop | halt | yield | copy | put | get | puti | fill | aadd | amin | amax | aand | aor | axor | aswp
      | acas | sig | wait | rsig | fence | rsc | agt | sipred | sipbar | scale | pin | unpin | migr | repl | unrepl | hint | tload
      | tcommit | slipInstr | eqset | eyescan | prbs | train | linkset | taste | mark =>
    exact ⟨_, rfl, hP.of_kept hs (State.insnRow_body_kept rfl _ _ _)⟩
  case clReady =>
    exact ⟨_, rfl, hP.of_kept hs ((State.kick_kept _).trans (State.clRow_kept _ _ _ _ _ fun p r => State.clReadyRx_kept r p))⟩
  -- Every other row makes no response at the management port, and its operation keeps all three.
  all_goals exact ⟨_, rfl, hP.of_kept hs (by simp)⟩

end

theorem lasting_queue_and_fuses (l : List Instr) (u : Fuses) : Lasting fun s => s.pending = l ∧ s.fuses = u where
  of_kept := by
    rintro s t ⟨hl, hu⟩ h
    obtain ⟨hpending, hfuses, -⟩ : t.pending = s.pending ∧ t.fuses = s.fuses ∧ t.parts = s.parts := by
      simpa only [kept_def, Prod.mk.injEq] using h
    exact ⟨hpending.trans hl, hfuses.trans hu⟩
  warmReset := fun _ hs => hs
  writePart := fun _ _ hs => hs

/-! ### The step -/

theorem step_of_front {s : State} {c : Instr} {l : List Instr} (h : s.pending = c :: l) : step s = exec c (s.rest l) := by
  unfold step
  rw [h]

/-- Settles O1: the queue's rest stands in the state the command runs on. -/
theorem stepRunsFront : Obligations.StepRunsFront := by
  unfold Obligations.StepRunsFront
  exact fun _ _ _ h => ⟨step_of_front h, rfl, fun _ => rfl⟩

/-- Settles O57: the queue and the fuses last through every command but a cold reset, which keeps the one and reads the other
again (R57). -/
theorem commandsEnd : Obligations.CommandsEnd := by
  unfold Obligations.CommandsEnd
  intro c s
  by_cases hc : ∃ tm, c = .coldReset tm
  case pos =>
    obtain ⟨tm, rfl⟩ := hc
    exact ⟨s.coldReset tm, rfl, rfl, fun h => absurd rfl (h tm), fun _ => rfl⟩
  case neg =>
    obtain ⟨t, ht, hpending, hfuses⟩ := (lasting_queue_and_fuses s.pending s.fuses).exec (not_exists.mp hc) ⟨rfl, rfl⟩
    exact ⟨t, ht, hpending, fun _ => hfuses, fun h => absurd h hc⟩

end Sys2Proof.Machine
end

section
/-! SUPPORT. Credits of the channels the block sends on (R29, R33), partition and link resets (R59 to R61), and cold, warm and
block resets with the boot (R57 to R62): one lemma per outcome, and the obligations about them. -/

namespace Sys2Proof.Machine
open Sys2Proof.Safety

/-! ### The effect of a command -/

/-- The state after a command, and after what it sets free, from the command's own effect. -/
theorem does_of_eq {c : Instr} {s t u : State} (hexec : exec c s = .next t.kick) (h : t = u) : Does c s u := by
  subst h
  exact hexec

/-! ### Events of a crossing -/

/-- Events that cross change the crossings alone. -/
theorem State.crossEvents_eq (s : State) (x : Nat) (ch : EvCh) (n : Nat) : ∃ c, s.crossEvents x ch n = { s with xings := c } := by
  unfold State.crossEvents State.crossKey
  dsimp only
  split
  · exact ⟨s.xings, rfl⟩
  · exact ⟨_, rfl⟩

/-! ### Credits (R29, R33) -/

theorem exec_channelCredit (ch : Channel) (s : State) : exec (.channelCredit ch) s = .next (s.takeCredited ch).kick := rfl

theorem State.credited_reset {s : State} {ch : Channel} (h : s.portReset (channelXing ch) = true) (n : Nat) (f : State → State) :
    s.credited ch n f = s := by
  simp [State.credited, h]

theorem State.credited_full {s : State} {ch : Channel} (h : s.portReset (channelXing ch) = false) {n : Nat} (hn : 255 ≤ n)
    (f : State → State) : s.credited ch n f = s.portProto (channelXing ch) := by
  simp [State.credited, h, hn]

theorem State.credited_room {s : State} {ch : Channel} (h : s.portReset (channelXing ch) = false) {n : Nat} (hn : n < 255)
    (f : State → State) : s.credited ch n f = f (s.crossEvents (channelXing ch) (channelEvents ch) 1) := by
  simp [State.credited, h, hn]

/-- Credits of a channel that the block holds. -/
def State.chanCrd (s : State) : Channel → Nat
  | .eCpl n => (s.eport n).cplCrd
  | .rcmd p => s.crd p 0
  | .wcmd p => s.crd p 1
  | .wd p => s.crd p 2
  | .ncmd n => s.crd (.n n) 0
  | .mgRsp => s.mgCrd

/-- One credit of a channel more, at the management port with what it lets leave. -/
def State.oneMore (s : State) : Channel → State
  | .eCpl n => s.modEPort n fun p => { p with cplCrd := p.cplCrd + 1 }
  | .rcmd p => s.modCrd p 0 (· + 1)
  | .wcmd p => s.modCrd p 1 (· + 1)
  | .wd p => s.modCrd p 2 (· + 1)
  | .ncmd n => s.modCrd (.n n) 0 (· + 1)
  | .mgRsp => State.mgPump { s with mgCrd := s.mgCrd + 1 }

/-- Every channel counts its credits alike. -/
theorem State.takeCredited_eq (s : State) (ch : Channel) : s.takeCredited ch = s.credited ch (s.chanCrd ch) fun t => t.oneMore ch := by
  cases ch <;> rfl

theorem State.takeCredited_reset {s : State} {ch : Channel} (h : s.portReset (channelXing ch) = true) : s.takeCredited ch = s := by
  rw [State.takeCredited_eq, State.credited_reset h]

theorem State.takeCredited_full {s : State} {ch : Channel} (h : s.portReset (channelXing ch) = false) (hn : 255 ≤ s.chanCrd ch) :
    s.takeCredited ch = s.portProto (channelXing ch) := by
  rw [State.takeCredited_eq, State.credited_full h hn]

theorem channelCredit_counts {s : State} {ch : Channel} (h : s.portReset (channelXing ch) = false) (hn : s.chanCrd ch < 255) :
    Does (.channelCredit ch) s ((s.crossEvents (channelXing ch) (channelEvents ch) 1).oneMore ch) := by
  unfold Does
  rw [exec_channelCredit, State.takeCredited_eq, State.credited_room h hn]

/-- Settles O5: every channel counts alike, and the clauses name its counter. -/
theorem creditsCount : Obligations.CreditsCount := by
  unfold Obligations.CreditsCount
  refine ⟨fun n s => channelCredit_counts (ch := .eCpl n), fun p s h => ⟨?rcmd, ?wcmd, ?wd⟩,
    fun n s => channelCredit_counts (ch := .ncmd n), fun s h hn => ?mgRsp, fun ch s => ⟨fun h => ?reset, fun h hn => ?full⟩⟩
  case rcmd => exact channelCredit_counts (ch := .rcmd p) h
  case wcmd => exact channelCredit_counts (ch := .wcmd p) h
  case wd => exact channelCredit_counts (ch := .wd p) h
  case mgRsp =>
    have hcount := channelCredit_counts (ch := .mgRsp) h hn
    obtain ⟨c, hc⟩ := s.crossEvents_eq mgXing .rsp 1
    rw [hc]
    rwa [show s.crossEvents (channelXing .mgRsp) (channelEvents .mgRsp) 1 = _ from hc] at hcount
  case reset =>
    unfold Does
    rw [exec_channelCredit, State.takeCredited_reset h]
  case full =>
    unfold Does
    rw [exec_channelCredit, State.takeCredited_full h (by cases ch <;> exact hn)]
    rfl

/-! ### Partition and link resets (R59 to R61) -/

theorem partRst_answers {s : State} (h : Open s) (mask : BitVec 16) : Answers (.partRst mask) s (s.partResets mask) := by
  unfold Answers Does
  exact congrArg _ (State.mgWrite_open h _ _ _ _)

theorem linkRst_answers {s : State} (h : Open s) (mask : BitVec 24) : Answers (.linkRst mask) s (s.linkResets mask) := by
  unfold Answers Does
  exact congrArg _ (State.mgWrite_open h _ _ _ _)

theorem State.partResets_single (s : State) (p : PartId) : s.partResets (BitVec.ofNat 16 (2 ^ p.val)) = s.startPart p := by
  have hmask : ((List.range 16).filter fun i => bit (BitVec.ofNat 16 (2 ^ p.val)) i) = [p.val] := by revert p; decide
  unfold State.partResets
  rw [hmask]
  rfl

theorem State.linkResets_single {s : State} (h : s.fc.safe = false) (k : LinkId) :
    s.linkResets (BitVec.ofNat 24 (2 ^ k.val)) = s.linkReset k := by
  have hmask : ((List.range 24).filter fun i => bit (BitVec.ofNat 24 (2 ^ k.val)) i) = [k.val] := by revert k; decide
  unfold State.linkResets
  rw [hmask, h]
  rfl

theorem State.linkResets_safe {s : State} (h : s.fc.safe = true) (mask : BitVec 24) : s.linkResets mask = s := by
  simp [State.linkResets, h]

theorem State.startPart_none {s : State} {p : Nat} (h : p = 0 ∨ bit s.boot.partBusy p = true) : s.startPart p = s := by
  unfold State.startPart
  exact if_pos h

theorem State.startPart_resets {s : State} {p : Nat} (hp : p ≠ 0) (hbusy : bit s.boot.partBusy p = false) (h : s.admits = true) :
    s.startPart p =
      State.partReset { s with boot := { s.boot with partBusy := s.boot.partBusy ||| BitVec.ofNat 16 (2 ^ p) } } p := by
  unfold State.startPart
  rw [if_neg (by simp [hp, hbusy])]
  exact if_pos h

theorem State.startPart_holds {s : State} {p : Nat} (hp : p ≠ 0) (hbusy : bit s.boot.partBusy p = false) (h : s.admits = false) :
    s.startPart p =
      { s with boot := { s.boot with partBusy := s.boot.partBusy ||| BitVec.ofNat 16 (2 ^ p)
                                     partHeld := s.boot.partHeld ||| BitVec.ofNat 16 (2 ^ p) } } := by
  unfold State.startPart
  rw [if_neg (by simp [hp, hbusy])]
  exact if_neg (fun ht => Bool.false_ne_true (h.symm.trans ht))

theorem partId_ne_zero {p : PartId} (hp : p ≠ 0) : p.val ≠ 0 := fun h => hp (Fin.ext h)

/-- Settles O4: a mask of one bit resets one partition or one link, and each clause is one outcome of it. -/
theorem partitionAndLinkResets : Obligations.PartitionAndLinkResets := by
  unfold Obligations.PartitionAndLinkResets
  refine ⟨fun p s hp hbusy hadm h => ?resets, fun p s hp hbusy hadm h => ?holds, fun p s hp h => ?leaves,
    fun p s hrun hbusy hheld => ?done, fun p s hbusy => ?idle, fun k s hsafe h => ?link, fun mask s hsafe h => ?safe⟩
  case resets =>
    have hstart := partRst_answers h (BitVec.ofNat 16 (2 ^ p.val))
    rwa [s.partResets_single, State.startPart_resets (partId_ne_zero hp) hbusy hadm] at hstart
  case holds =>
    have hstart := partRst_answers h (BitVec.ofNat 16 (2 ^ p.val))
    rwa [s.partResets_single, State.startPart_holds (partId_ne_zero hp) hbusy hadm] at hstart
  case leaves =>
    have hstart := partRst_answers h (BitVec.ofNat 16 (2 ^ p.val))
    rwa [s.partResets_single, State.startPart_none (hp.imp_left (congrArg Fin.val))] at hstart
  case done =>
    change Host.Outcome.next (s.partDone p) = _
    simp [State.partDone, State.clearFlags, hrun, hbusy, hheld]
  case idle =>
    change Host.Outcome.next (s.partDone p) = _
    simp [State.partDone, hbusy]
  case link =>
    have hreset := linkRst_answers h (BitVec.ofNat 24 (2 ^ k.val))
    rwa [State.linkResets_single hsafe] at hreset
  case safe =>
    have hreset := linkRst_answers h mask
    rwa [State.linkResets_safe hsafe] at hreset

/-! ### BLOCK_RST (R59) -/

theorem exec_blockRst (s : State) : exec .blockRst s = .next s.blockRst := rfl

theorem State.blockRst_port {s : State} (h : Port s) : s.blockRst = s.oweReset.mgReply 0 mgOk := by
  unfold State.blockRst
  rw [State.mgBeat_credit h.2]
  simp [h.1]

theorem State.blockRst_booting {s : State} (h : s.mgmtOpen = false) (hc : s.mgCmd ≠ 0) : s.blockRst = s.mgReply 0 mgBooting := by
  unfold State.blockRst
  rw [State.mgBeat_credit hc]
  simp [h]

/-- A response returns its command's credit and joins the responses that wait; then they leave as far as credits go. -/
theorem State.mgReply_eq (s : State) (data : Word) (st : BitVec 2) : ∃ (t : State) (c : Tab Xing) (z : Tab Line),
    s.mgReply data st = t.mgPump ∧
      t = { s with sent := s.sent ++ [.mgCredit 1], xings := c, lines := z, mgQ := s.mgQ ++ [(data, st)] } := by
  obtain ⟨c, hc⟩ := (s.emit (.mgCredit 1)).crossEvents_eq mgXing .cmd 1
  refine ⟨_, c, lineSend s.links s.lanes s.lines (.mgCredit 1), rfl, ?_⟩
  rw [hc]
  rfl

/-- The credits let out every response the reset waits for. -/
theorem State.mgPump_resets {s : State} {k : Nat} (hdue : s.boot.due = some k) (hcrd : k ≤ s.mgCrd) (hq : k ≤ s.mgQ.length) :
    s.mgPump = State.warmReset { s with
      sent := s.sent ++ (s.mgQ.take k).map fun r => Emit.mgRsp r.1 r.2, mgQ := s.mgQ.drop k, mgCrd := s.mgCrd - k } 2 := by
  have hn : min (min s.mgCrd s.mgQ.length) k = k := by omega
  simp [State.mgPump, hdue, hn]

/-- The credits run out before the response the reset waits for. -/
theorem State.mgPump_waits {s : State} {k : Nat} (hdue : s.boot.due = some k) (hcrd : s.mgCrd < k) (hq : s.mgCrd ≤ s.mgQ.length) :
    s.mgPump = { s with
      sent := s.sent ++ (s.mgQ.take s.mgCrd).map fun r => Emit.mgRsp r.1 r.2, mgQ := s.mgQ.drop s.mgCrd, mgCrd := 0
      boot := { s.boot with due := some (k - s.mgCrd) } } := by
  have hn : min (min s.mgCrd s.mgQ.length) k = s.mgCrd := by omega
  simp [State.mgPump, hdue, hn, hcrd]

/-- A BLOCK_RST whose response the credits let out with the older ones resets at once. -/
theorem State.blockRst_resets {s : State} (h : Port s) (hdue : s.boot.due = none) (hcrd : s.mgQ.length < s.mgCrd) :
    s.blockRst = State.warmReset { s with
      sent := s.sent ++ .mgCredit 1 :: (s.mgQ.map fun r => .mgRsp r.1 r.2) ++ [.mgRsp 0 mgOk] } 2 := by
  obtain ⟨t, c, z, hreply, ht⟩ := s.oweReset.mgReply_eq 0 mgOk
  have howed : t.boot.due = some (s.mgQ.length + 1) := by simp [ht, State.oweReset, hdue]
  have hlen : t.mgQ.length = s.mgQ.length + 1 := by simp [ht, State.oweReset]
  have hall : t.mgQ.take (s.mgQ.length + 1) = s.mgQ ++ [(0, mgOk)] := by
    rw [List.take_of_length_le hlen.le, ht]
    rfl
  rw [State.blockRst_port h, hreply, State.mgPump_resets howed (by rw [ht]; exact hcrd) hlen.ge, hall, ht]
  simp [State.warmReset, State.oweReset]

/-- A BLOCK_RST whose response the credits do not let out waits for the responses before it and its own, `k` in all. -/
theorem State.blockRst_waits {s : State} (h : Port s) {k : Nat} (hdue : s.boot.due.getD (s.mgQ.length + 1) = k) (hk : s.mgCrd < k)
    (hq : s.mgCrd ≤ s.mgQ.length) : ∃ o c z, s.blockRst = { s with
      sent := o, xings := c, lines := z, mgQ := s.mgQ.drop s.mgCrd ++ [(0, mgOk)], mgCrd := 0
      boot := { s.boot with due := some (k - s.mgCrd) } } := by
  obtain ⟨t, c, z, hreply, ht⟩ := s.oweReset.mgReply_eq 0 mgOk
  have howed : t.boot.due = some k := by simp [ht, State.oweReset, hdue]
  have hcrd : t.mgCrd = s.mgCrd := by rw [ht]; rfl
  have hlen : t.mgCrd ≤ t.mgQ.length := by simp [ht, State.oweReset, Nat.le_succ_of_le hq]
  have hrest : t.mgQ.drop s.mgCrd = s.mgQ.drop s.mgCrd ++ [(0, mgOk)] := by simp [ht, State.oweReset, List.drop_append_of_le_length hq]
  rw [State.blockRst_port h, hreply, State.mgPump_waits howed (by rwa [hcrd]) hlen, hcrd, hrest, ht]
  exact ⟨_, c, z, rfl⟩

/-! ### The boot (R58, R63) -/

section
variable {s : State} {b : BootStage} {t : Nat}

theorem State.bootNext_waits {ok : Bool} (h : ∀ b t, s.boot.stage.next (decide (s.boot.lastReset = 0)) = some (b, t) →
    s.pins.vwarn = true ∨ s.clk.up < s.boot.released + us5 t) : s.bootNext ok = s := by
  unfold State.bootNext
  split
  · rfl
  next b t hnext => exact if_pos (h b t hnext)

variable (hnext : s.boot.stage.next (decide (s.boot.lastReset = 0)) = some (b, t)) (hwarn : s.pins.vwarn = false)
  (htime : s.boot.released + us5 t ≤ s.clk.up)
include hnext hwarn htime

theorem State.bootNext_fails (h : s.boot.stage = .selftest) :
    s.bootNext false = State.raise { s with boot := { s.boot with stage := .selftestFail } } srcSelftest := by
  unfold State.bootNext
  simp only [hnext]
  rw [if_neg (by simp [hwarn, htime]), if_pos (by simp [h])]

theorem State.bootNext_goes_on {ok : Bool} (h : ¬ (s.boot.stage = .selftest ∧ ok = false)) :
    s.bootNext ok =
      if b = .ready then State.giveCredits { s with boot := { s.boot with stage := b } }
      else { s with boot := { s.boot with stage := b } } := by
  unfold State.bootNext
  simp only [hnext]
  rw [if_neg (by simp [hwarn, htime]), if_neg h]

end

/-- Settles O3: each clause is one outcome of a reset or of the boot timer. -/
theorem resetsAndBoot : Obligations.ResetsAndBoot := by
  unfold Obligations.ResetsAndBoot
  refine ⟨fun tm s => rfl, fun s => rfl, fun s h => ⟨fun hdue hcrd => ?atOnce, fun hdue hcrd => ?owed, fun k hdue hk hcrd => ?due⟩,
    fun s h hc => ?booting, fun ok dt s b t hnext hwarn htime => ⟨?fails, fun h hb => ?next, fun h hb => ?ready⟩,
    fun ok dt s h => ?waits⟩
  case atOnce =>
    rw [exec_blockRst, State.blockRst_resets h hdue hcrd]
    rfl
  case owed =>
    obtain ⟨o, c, z, hwait⟩ := State.blockRst_waits h (k := s.mgQ.length + 1) (by rw [hdue]; rfl) (Nat.lt_succ_of_le hcrd) hcrd
    exact ⟨_, congrArg Host.Outcome.next hwait, rfl, rfl, rfl, rfl, rfl⟩
  case due =>
    obtain ⟨o, c, z, hwait⟩ := State.blockRst_waits h (k := k) (by rw [hdue]; rfl) hk hcrd
    exact ⟨_, congrArg Host.Outcome.next hwait, rfl, rfl⟩
  case booting => rw [exec_blockRst, State.blockRst_booting h hc]
  case fails =>
    rintro ⟨hstage, rfl⟩
    exact does_of_eq rfl (State.bootNext_fails (s := s.passNs dt) hnext hwarn htime hstage)
  case next =>
    exact does_of_eq rfl ((State.bootNext_goes_on (s := s.passNs dt) hnext hwarn htime h).trans (if_neg hb))
  case ready =>
    exact does_of_eq rfl ((State.bootNext_goes_on (s := s.passNs dt) hnext hwarn htime h).trans (if_pos hb))
  case waits => exact does_of_eq rfl (State.bootNext_waits (s := s.passNs dt) h)

end Sys2Proof.Machine
end

section
/-! SUPPORT. What the ports answer and are answered: completions, responses of the carrier, and the timeouts of both (R40 to R48),
and the obligation about them. -/

namespace Sys2Proof.Machine
open Sys2Proof.Safety

/-! ### Completions (R39, R40) -/

/-- The oldest completion leaves: its beat is driven, and the port has the rest. -/
theorem State.driveCpl_oldest {s : State} {n tag : Nat} {st : BitVec 4} {data : Bytes} {l : List (Nat × BitVec 4 × Bytes)} {c : ECmd}
    (hq : (s.eport n).cplQ = (tag, st, data) :: l) (hcrd : (s.eport n).cplCrd ≠ 0) (hgo : s.obs.curfew.on = false ∨ s.fc.safe = true)
    (hcmd : ((s.eport n).flight.find? fun e => decide (e.1 = tag)) = some (tag, c)) :
    s.driveCpl n =
      (s.setEPort n { s.eport n with cplQ := l, cplCrd := (s.eport n).cplCrd - 1
                                     flight := (s.eport n).flight.filter fun e => decide (e.1 ≠ tag)
                                     wdWait := (s.eport n).wdWait.map fun t => if t = some tag then none else t }).emit
        (.eCpl n (BitVec.ofNat 32 (tag <<< 23 + st.toNat <<< 19)) (cplBeat c.beat st data)) := by
  have hstop : ¬ ((s.eport n).cplCrd = 0 ∨ (s.obs.curfew.on && !s.fc.safe) = true) := by
    rcases hgo with h | h <;> simp [hcrd, h]
  unfold State.driveCpl
  simp only [hq]
  rw [if_neg hstop, hcmd]
  rfl

/-! ### Responses (R33, R43, R44, R423) -/

/-- The credit of a beat goes and comes back: the command list and the fault collector stay. -/
@[simp] theorem State.returnCredit_cpOut (s : State) (p : CPort) (wack : Bool) : (s.returnCredit p wack).cpOut = s.cpOut := by
  unfold State.returnCredit State.giveRx
  obtain ⟨c, hc⟩ := State.crossEvents_eq _ _ _ _
  rw [hc]
  rfl

@[simp] theorem State.returnCredit_fc (s : State) (p : CPort) (wack : Bool) : (s.returnCredit p wack).fc = s.fc := by
  unfold State.returnCredit State.giveRx
  obtain ⟨c, hc⟩ := State.crossEvents_eq _ _ _ _
  rw [hc]
  rfl

section
variable {s : State} {port : CPort} {write : Option Bool} {tag : Nat} {a : Acc}

theorem State.respond_no_credit (h : s.rxCrd port (write == some true) = 0) (st : BitVec 2) (data : Bytes) :
    s.respond port write tag st data = s.portProto (cportXing port) := by
  unfold State.respond
  exact if_pos h

variable (hcmd : (s.cpOut.find? fun b => decide (b.port = port ∧ b.tag = tag) && (write.isNone || write == some b.write)) = some a)
  (hcrd : s.rxCrd port (write == some true) ≠ 0) (hdead : a.dead = false)
include hcmd hcrd hdead

/-- The answer of a command that still waits for it. -/
theorem State.respond_command {st : BitVec 2} (hst : st ≠ 3) (data : Bytes) :
    s.respond port write tag st data =
      (let u := s.returnCredit port (write == some true)
       if s.fc.safe then State.noteStatus { u with cpOut := u.cpOut.erase a } a st else u.answer a st data) := by
  unfold State.respond
  dsimp only
  rw [if_neg hcrd, State.returnCredit_cpOut, State.returnCredit_fc]
  simp only [hcmd]
  rw [if_neg hst, if_neg (by simp [hdead])]

theorem State.respond_answers {st : BitVec 2} (hst : st ≠ 3) (hsafe : s.fc.safe = false) (data : Bytes) :
    s.respond port write tag st data = (s.returnCredit port (write == some true)).answer a st data :=
  (State.respond_command hcmd hcrd hdead hst data).trans (if_neg (by simp [hsafe]))

theorem State.respond_safe {st : BitVec 2} (hst : st ≠ 3) (hsafe : s.fc.safe = true) (data : Bytes) :
    s.respond port write tag st data =
      (let u := s.returnCredit port (write == some true)
       State.noteStatus { u with cpOut := u.cpOut.erase a } a st) :=
  (State.respond_command hcmd hcrd hdead hst data).trans (if_pos hsafe)

end

/-- Nothing repairs in the safe state: POISON is recorded at once. -/
theorem State.repairs_safe {s : State} (h : s.fc.safe = true) (a : Acc) : s.repairs a = false := by simp [State.repairs, h]

theorem State.noteStatus_ok (s : State) (a : Acc) : s.noteStatus a 0 = s := by simp [State.noteStatus]

theorem State.noteStatus_poison {s : State} (h : s.fc.safe = true) (a : Acc) :
    s.noteStatus a 1 = s.raise (if a.smv && !a.write then srcStagePoison else srcCpPoison) := by
  simp [State.noteStatus, State.repairs_safe h]

theorem State.noteStatus_decerr (s : State) (a : Acc) : s.noteStatus a 2 = s.raise srcCpDecerr := by simp [State.noteStatus]

/-! ### Timeouts (R47, R48) -/

@[simp] theorem State.passNs_fabricTmo (s : State) (dt : Nat) : (s.passNs dt).fabricTmo = s.fabricTmo := rfl
@[simp] theorem State.passNs_carrierTmo (s : State) (dt : Nat) : (s.passNs dt).carrierTmo = s.carrierTmo := rfl

/-- Outside curfew the count of the port timers runs. -/
theorem State.passNs_core {s : State} (h : s.obs.curfew.on = false) (dt : Nat) : (s.passNs dt).clk.core = s.clk.core + 5 * dt := by
  simp [State.passNs, State.pass, h]

theorem State.running_curfew {s : State} (h : s.running = true) : s.obs.curfew.on = false := by
  simp only [State.running, Bool.and_eq_true, Bool.not_eq_true'] at h
  exact h.1

theorem State.eportExpire_timeOut {s : State} {n tag : Nat} {c : ECmd} {r : Req} (hrun : s.running = true)
    (hcmd : ((s.eport n).flight.find? fun e => decide (e.1 = tag)) = some (tag, c)) (hstage : c.stage ≠ .answered)
    (htime : c.at5 + s.fabricTmo ≤ s.clk.core) (hreq : (s.reqs.find? fun r => decide (r.who = .eport n tag) && !r.timedOut) = some r) :
    s.eportExpire n tag = s.timeOutReq r := by
  unfold State.eportExpire
  simp [hcmd, hrun, hstage, htime, hreq]

theorem State.carrierExpire_expire {s : State} {port : CPort} {write : Bool} {tag : Nat} {a : Acc} (hcurfew : s.obs.curfew.on = false)
    (hcmd : (s.cpOut.find? fun b => decide (b.port = port ∧ b.tag = tag) && (isNPort port || b.write == write) && !b.dead) = some a)
    (htime : a.at5 + s.carrierTmo ≤ s.clk.core) : s.carrierExpire port write tag = s.expire a := by
  unfold State.carrierExpire
  simp only [hcmd]
  exact if_pos (by simp [hcurfew, htime])

/-! ### The obligation -/

/-- Settles O7: each clause is one outcome of a completion, of a response or of a timer. -/
theorem portAnswers : Obligations.PortAnswers := by
  unfold Obligations.PortAnswers
  refine ⟨fun port s tag st data l c hq hcrd hgo hcmd => ?completion,
    ⟨fun port tag st data s a hcmd hcrd hst hdead hsafe => ?readData, fun port tag st s a hcmd hcrd hst hdead hsafe => ?writeAck,
      fun port tag st data s a hcmd hcrd hst hdead hsafe => ?nPort,
      fun port n tag tagN st data s => ⟨fun h => ?noRd, fun h => ?noWack, fun h => ?noRsp, fun a hcmd hcrd hdead hsafe => ?safe⟩⟩,
    fun port tag dt s c r hrun hcmd hstage htime hreq => ?fabric, fun port write tag dt s a hcurfew hcmd htime => ?carrier⟩
  case completion =>
    refine ⟨_, does_of_eq rfl (State.driveCpl_oldest hq hcrd hgo hcmd), rfl, ?_, fun m hm => ?_, rfl, rfl, rfl⟩
    · simp
    · simpa using s.eport_setEPort_ne _ hm
  case readData => exact does_of_eq rfl (State.respond_answers (write := some false) (by simpa using hcmd) hcrd hdead hst hsafe data)
  case writeAck => exact does_of_eq rfl (State.respond_answers (write := some true) (by simpa using hcmd) hcrd hdead hst hsafe [])
  case nPort => exact does_of_eq rfl (State.respond_answers (write := none) (by simpa using hcmd) hcrd hdead hst hsafe data)
  case noRd => exact does_of_eq rfl (State.respond_no_credit (write := some false) h st data)
  case noWack => exact does_of_eq rfl (State.respond_no_credit (write := some true) h st [])
  case noRsp => exact does_of_eq rfl (State.respond_no_credit (write := none) h st data)
  case safe =>
    intro u v
    have hresp {st : BitVec 2} (hst : st ≠ 3) : s.respond port (some false) tag.toNat st data = v.noteStatus a st :=
      State.respond_safe (by simpa using hcmd) hcrd hdead hst hsafe data
    have hsafe : v.fc.safe = true := (congrArg Fc.safe (s.returnCredit_fc port false)).trans hsafe
    refine ⟨?ok, ?poison, ?decerr⟩
    case ok =>
      rintro rfl
      exact does_of_eq rfl ((hresp (by decide)).trans (v.noteStatus_ok a))
    case poison =>
      rintro rfl
      exact does_of_eq rfl ((hresp (by decide)).trans (State.noteStatus_poison hsafe a))
    case decerr =>
      rintro rfl
      exact does_of_eq rfl ((hresp (by decide)).trans (v.noteStatus_decerr a))
  case fabric =>
    refine does_of_eq rfl (State.eportExpire_timeOut (s := s.passNs dt) hrun hcmd hstage ?_ hreq)
    rwa [s.passNs_fabricTmo, State.passNs_core (State.running_curfew hrun)]
  case carrier =>
    refine does_of_eq rfl (State.carrierExpire_expire (s := s.passNs dt) hcurfew hcmd ?_)
    rwa [s.passNs_carrierTmo, State.passNs_core hcurfew]

end Sys2Proof.Machine
end

section
/-! SUPPORT. E-port commands (R33 to R37, R213, R230): how a port takes a command and its WD beat, and what becomes of it, outcome
by outcome; and the obligation about them. -/

namespace Sys2Proof.Machine
open Sys2Proof.Safety

/-! ### What happens at one E-port -/

/-- `t` is `s` but for E-port `n`, which is `p`, the crossings, observation, the pins, and what is driven. -/
def AtPort (n : Nat) (p : EPort) (s t : State) : Prop :=
  ∃ x o l w z, t = { s.setEPort n p with xings := x, obs := o, sent := l, pins := w, lines := z }

section
variable {n : Nat} {p : EPort} {s t : State}

theorem AtPort.of_setEPort (n : Nat) (p : EPort) (s : State) : AtPort n p s (s.setEPort n p) :=
  ⟨s.xings, s.obs, s.sent, s.pins, s.lines, rfl⟩

theorem AtPort.eport (h : AtPort n p s t) : t.eport n = p := by
  obtain ⟨x, o, l, w, z, rfl⟩ := h
  exact s.eport_setEPort n p

theorem AtPort.eport_ne (h : AtPort n p s t) {m : Nat} (hm : m ≠ n) : t.eport m = s.eport m := by
  obtain ⟨x, o, l, w, z, rfl⟩ := h
  exact s.eport_setEPort_ne p hm

/-- The rest of the block stays. -/
theorem AtPort.frame (h : AtPort n p s t) : t.reqs = s.reqs ∧ t.jobs = s.jobs ∧ t.cpq = s.cpq ∧ t.links = s.links ∧
    t.queues = s.queues ∧ t.parts = s.parts ∧ t.nextId = s.nextId ∧ t.fc = s.fc := by
  obtain ⟨x, o, l, w, z, rfl⟩ := h
  exact ⟨rfl, rfl, rfl, rfl, rfl, rfl, rfl, rfl⟩

theorem AtPort.modEPort (h : AtPort n p s t) (f : EPort → EPort) : AtPort n (f p) s (t.modEPort n f) := by
  have hp := h.eport
  obtain ⟨x, o, l, w, z, rfl⟩ := h
  refine ⟨x, o, l, w, z, ?_⟩
  unfold State.modEPort
  rw [hp]
  simp [State.setEPort]

theorem AtPort.watched {u : State} (h : AtPort n p s t) (hw : Watched t u) : AtPort n p s u := by
  obtain ⟨x, o, l, w, z, rfl⟩ := h
  obtain ⟨o', l', w', z', rfl⟩ := hw
  exact ⟨x, o', l', w', z', rfl⟩

/-- An E-port to which one credit of CMD or WD is due (R30, R85). -/
def EPort.owe (p : EPort) (withheld wd : Bool) : EPort :=
  if withheld then (if wd then { p with wdOwed := p.wdOwed + 1 } else { p with cmdOwed := p.cmdOwed + 1 })
  else if wd then { p with wdCrd := p.wdCrd + (p.wdOwed + 1), wdOwed := 0 }
  else { p with cmdCrd := p.cmdCrd + (p.cmdOwed + 1), cmdOwed := 0 }

theorem AtPort.emit (h : AtPort n p s t) (e : Emit) : AtPort n p s (t.emit e) := by
  obtain ⟨x, o, l, w, z, rfl⟩ := h
  exact ⟨x, o, _, w, _, rfl⟩

theorem AtPort.crossEvents (h : AtPort n p s t) (x : Nat) (ch : EvCh) (k : Nat) : AtPort n p s (t.crossEvents x ch k) := by
  obtain ⟨c, hc⟩ := t.crossEvents_eq x ch k
  obtain ⟨x, o, l, w, z, rfl⟩ := h
  rw [hc]
  exact ⟨c, o, l, w, z, rfl⟩

/-- One credit of CMD or WD is due: it is returned, with those owed before, unless the block withholds it. -/
theorem AtPort.oweEPort (h : AtPort n p s t) (wd : Bool) : AtPort n (p.owe (t.withholds wd) wd) s (t.oweEPort n wd 1) := by
  have hdue := h.modEPort fun p => if wd then { p with wdOwed := p.wdOwed + 1 } else { p with cmdOwed := p.cmdOwed + 1 }
  unfold State.oweEPort State.payEPort
  dsimp only
  rw [hdue.eport]
  cases hheld : t.withholds wd with
  | true =>
    rw [if_pos (.inr hheld)]
    exact hdue
  | false =>
    have hfree : ∀ f, (t.modEPort n f).withholds wd = false := fun _ => hheld
    rw [if_neg (by cases wd <;> simp [hfree])]
    refine AtPort.crossEvents (AtPort.emit ?_ _) _ _ _
    cases wd <;> exact hdue.modEPort fun _ => _

@[simp] theorem EPort.owe_flight (p : EPort) (withheld wd : Bool) : (p.owe withheld wd).flight = p.flight := by
  unfold EPort.owe
  split_ifs <;> rfl

@[simp] theorem EPort.owe_wdWait (p : EPort) (withheld wd : Bool) : (p.owe withheld wd).wdWait = p.wdWait := by
  unfold EPort.owe
  split_ifs <;> rfl

@[simp] theorem EPort.owe_wdBuf (p : EPort) (withheld wd : Bool) : (p.owe withheld wd).wdBuf = p.wdBuf := by
  unfold EPort.owe
  split_ifs <;> rfl

@[simp] theorem EPort.owe_cplQ (p : EPort) (withheld wd : Bool) : (p.owe withheld wd).cplQ = p.cplQ := by
  unfold EPort.owe
  split_ifs <;> rfl

theorem EPort.owe_cmdCrd (p : EPort) (withheld : Bool) :
    (p.owe withheld false).cmdCrd = p.cmdCrd + (if withheld then 0 else 1 + p.cmdOwed) := by
  cases withheld <;> simp [EPort.owe, Nat.add_comm]

end

/-! ### Commands in flight -/

theorem EPort.modCmd_modCmd (p : EPort) (tag : Nat) (f g : ECmd → ECmd) :
    (p.modCmd tag f).modCmd tag g = p.modCmd tag fun c => g (f c) := by
  unfold EPort.modCmd
  simp only [List.map_map]
  congr 1
  refine List.map_congr_left fun e _ => ?_
  by_cases h : e.1 = tag <;> simp [h]

@[simp] theorem EPort.modCmd_cplQ (p : EPort) (tag : Nat) (f : ECmd → ECmd) : (p.modCmd tag f).cplQ = p.cplQ := rfl

theorem EPort.modCmd_not_queued {p : EPort} {f : ECmd → ECmd} (hf : ∀ c, c.stage ≠ .queued → (f c).stage ≠ .queued)
    (h : ∀ e ∈ p.flight, e.2.stage ≠ .queued) (tag : Nat) : ∀ e ∈ (p.modCmd tag f).flight, e.2.stage ≠ .queued := by
  intro e he
  obtain ⟨d, hd, rfl⟩ := List.mem_map.mp he
  split_ifs
  · exact hf d.2 (h d hd)
  · exact h d hd

theorem EPort.modCmd_first {p : EPort} {tag : Nat} {c : ECmd} {fl : List (Nat × ECmd)} (hp : p.flight = (tag, c) :: fl)
    (f : ECmd → ECmd) :
    (p.modCmd tag f).flight = (tag, f c) :: fl.map fun e => if e.1 = tag then (tag, f e.2) else e := by
  simp [EPort.modCmd, hp]

section
variable {p : EPort} {tag : Nat} {c : ECmd} {fl : List (Nat × ECmd)} (hp : p.flight = fl ++ [(tag, c)])
  (hnew : ∀ e ∈ fl, e.1 ≠ tag)
include hp hnew

theorem EPort.find_newest : (p.flight.find? fun e => decide (e.1 = tag)) = some (tag, c) := by
  rw [hp, List.find?_append, List.find?_eq_none.mpr (by simpa using hnew)]
  simp

theorem EPort.modCmd_newest (f : ECmd → ECmd) : (p.modCmd tag f).flight = fl ++ [(tag, f c)] := by
  have hold : fl.map (fun e => if e.1 = tag then (tag, f e.2) else e) = fl :=
    (List.map_congr_left fun e he => if_neg (hnew e he)).trans (List.map_id fl)
  simp [EPort.modCmd, hp, hold]

theorem EPort.before_newest : (p.flight.takeWhile fun e => decide (e.1 ≠ tag)) = fl := by
  rw [hp, List.takeWhile_append_of_pos (by simpa using hnew)]
  simp

/-- What holds the newest command back: an earlier one of its stream and line that is to become a request (R230). -/
theorem EPort.heldBack_newest : p.heldBack tag c = true ↔ c.early = none ∧ ∃ e ∈ fl, (e.2.stage = .needWd ∨ e.2.stage = .queued) ∧
    e.2.early = none ∧ beatStream e.2.beat = beatStream c.beat ∧ (beatAddr e.2.beat).toNat / 64 = (beatAddr c.beat).toNat / 64 := by
  unfold EPort.heldBack
  rw [EPort.before_newest hp hnew]
  simp [and_assoc]

end

theorem EPort.find_first {p : EPort} {tag : Nat} {c : ECmd} {fl : List (Nat × ECmd)} (hp : p.flight = (tag, c) :: fl) :
    (p.flight.find? fun e => decide (e.1 = tag)) = some (tag, c) := by
  simp [hp]

theorem EPort.heldBack_first {p : EPort} {tag : Nat} {c : ECmd} {fl : List (Nat × ECmd)} (hp : p.flight = (tag, c) :: fl) (d : ECmd) :
    p.heldBack tag d = false := by
  simp [EPort.heldBack, hp]

theorem EPort.heldBack_early {c : ECmd} {st : BitVec 4} (h : c.early = some st) (p : EPort) (tag : Nat) : p.heldBack tag c = false := by
  simp [EPort.heldBack, h]

/-! ### A command goes on (R230) -/

/-- From `s` to `u` one request joins the issue order: `r`, of the command beat `b` of E-port `n` with its WD beat `wd`. The port is
then `p`, and what else a command might touch is as it was. -/
structure Requested (n : Nat) (b : BitVec 128) (wd : Bytes) (p : EPort) (s u : State) (r : Req) : Prop where
  reqs : u.reqs = s.reqs ++ [r]
  id : r.id = s.nextId
  who : r.who = .eport n (beatTag b)
  fab : r.fab = beatAddr b
  len : r.n = beatLen b
  write : r.write = decide (beatOp b ≠ 0)
  ordered : r.ordered = decide (beatOp b ≠ 0)
  stage : r.stage = .held
  ptag : r.pkt.ptag = (s.part (beatPart b)).tag
  load : beatOp b = 0 → r.pkt.op = if rackGlobal (beatAddr b) then 0x80 else 0x90
  store : beatOp b = 1 → r.pkt.data = slice wd ((beatAddr b).toNat % 64) (beatLen b)
  eport : u.eport n = p
  eport_ne : ∀ m, m ≠ n → u.eport m = s.eport m
  jobs : u.jobs = s.jobs
  cpq : u.cpq = s.cpq
  links : u.links = s.links
  queues : u.queues = s.queues
  parts : u.parts = s.parts

theorem AtPort.beatReq {n : Nat} {p : EPort} {s t : State} (h : AtPort n p s t) (b : BitVec 128) (wd : Bytes) :
    ∃ r, Requested n b wd p s (t.beatReq n b wd) r := by
  obtain ⟨hreqs, hjobs, hcpq, hlinks, hqueues, hparts, hid, -⟩ := h.frame
  refine ⟨_, congrArg (· ++ _) hreqs, hid, rfl, rfl, rfl, rfl, rfl, rfl, ?ptag, fun hop => ?load, fun hop => ?store, h.eport,
    fun m hm => h.eport_ne hm, hjobs, hcpq, hlinks, hqueues, hparts⟩
  case ptag => exact congrArg (fun l : Tab Part => (l.get {} (beatPart b)).tag) hparts
  case load =>
    simp only [hop, if_pos]
    split <;> rfl
  case store => simp [hop]

/-- A port with the completion of a command queued. -/
def EPort.complete (p : EPort) (tag : Nat) (st : BitVec 4) (data : Bytes) : EPort :=
  { p.modCmd tag fun c => { c with stage := .answered } with cplQ := p.cplQ ++ [(tag, st, data)] }

@[simp] theorem EPort.complete_flight (p : EPort) (tag : Nat) (st : BitVec 4) (data : Bytes) :
    (p.complete tag st data).flight = (p.modCmd tag fun c => { c with stage := .answered }).flight := rfl
@[simp] theorem EPort.complete_cplQ (p : EPort) (tag : Nat) (st : BitVec 4) (data : Bytes) :
    (p.complete tag st data).cplQ = p.cplQ ++ [(tag, st, data)] := rfl
@[simp] theorem EPort.complete_wdWait (p : EPort) (tag : Nat) (st : BitVec 4) (data : Bytes) :
    (p.complete tag st data).wdWait = p.wdWait := rfl

theorem EPort.complete_not_queued {p : EPort} (h : ∀ e ∈ p.flight, e.2.stage ≠ .queued) (tag : Nat) (st : BitVec 4) (data : Bytes) :
    ∀ e ∈ (p.complete tag st data).flight, e.2.stage ≠ .queued :=
  EPort.modCmd_not_queued (f := fun c => { c with stage := .answered }) (fun _ _ => EStage.noConfusion) h tag

/-- A completion leaves no trace of the stage before it. -/
theorem EPort.complete_modCmd (p : EPort) (tag : Nat) (stage : EStage) (st : BitVec 4) (data : Bytes) :
    (p.modCmd tag fun c => { c with stage := stage }).complete tag st data = p.complete tag st data := by
  simp [EPort.complete, EPort.modCmd_modCmd]

/-- The completion of an issued command is queued (R40). -/
theorem State.ePortDone_issued {s : State} {n tag : Nat} {c : ECmd} (hmem : (tag, c) ∈ (s.eport n).flight) (hstage : c.stage = .issued)
    (st : Nat) (data : Bytes) :
    s.ePortDone n tag st data = s.modEPort n fun p => p.complete tag (BitVec.ofNat 4 st) data := by
  have hany : ((s.eport n).flight.any fun e => decide (e.1 = tag ∧ e.2.stage = .issued)) = true :=
    List.any_eq_true.mpr ⟨_, hmem, by simp [hstage]⟩
  have hmap : (fun e : Nat × ECmd => if e.1 = tag then (e.1, { e.2 with stage := .answered }) else e) =
      fun e => if e.1 = tag then (tag, { e.2 with stage := .answered }) else e := by
    funext e
    split_ifs with he
    · rw [he]
    · rfl
  unfold State.ePortDone
  dsimp only
  rw [if_neg (by rw [hany]; decide), hmap]
  rfl

section
variable {s t : State} {n tag : Nat} {p : EPort} {c : ECmd} (hat : AtPort n p s t)
  (hcmd : (p.flight.find? fun e => decide (e.1 = tag)) = some (tag, c))
include hat hcmd

/-- A command behind an earlier one of its stream and line waits. -/
theorem AtPort.beatGo_queues (hheld : p.heldBack tag c = true) :
    AtPort n (p.modCmd tag fun c => { c with stage := .queued }) s (t.beatGo n tag) := by
  unfold State.beatGo
  simp only [hat.eport, hcmd]
  rw [if_pos hheld]
  exact hat.modEPort _

/-- Another becomes a request. -/
theorem AtPort.beatGo_requests (hheld : p.heldBack tag c = false) (hearly : c.early = none) :
    ∃ r, Requested n c.beat c.wd (p.modCmd tag fun c => { c with stage := .issued }) s (t.beatGo n tag) r := by
  unfold State.beatGo
  simp only [hat.eport, hcmd]
  rw [if_neg (Bool.eq_false_iff.mp hheld), hearly]
  dsimp only
  exact (hat.modEPort fun p => p.modCmd tag fun c => { c with stage := .issued }).beatReq c.beat c.wd

/-- One with a status of its own completes with it. -/
theorem AtPort.beatGo_completes {st : BitVec 4} (hearly : c.early = some st) :
    AtPort n (p.complete tag st []) s (t.beatGo n tag) := by
  have hissued := hat.modEPort fun p => p.modCmd tag fun c => { c with stage := .issued }
  have hmem : (tag, { c with stage := .issued }) ∈ (p.modCmd tag fun c => { c with stage := .issued }).flight :=
    List.mem_map.mpr ⟨_, List.mem_of_find?_eq_some hcmd, if_pos rfl⟩
  unfold State.beatGo
  simp only [hat.eport, hcmd]
  rw [if_neg (Bool.eq_false_iff.mp (EPort.heldBack_early hearly p tag)), hearly]
  dsimp only
  rw [State.ePortDone_issued (hissued.eport ▸ hmem) rfl, BitVec.ofNat_toNat, BitVec.setWidth_eq, ← p.complete_modCmd tag .issued]
  exact hissued.modEPort fun p => p.complete tag st []

end

theorem State.beatsAfter_none {s : State} {n : Nat} {p : EPort} (hp : s.eport n = p) (h : ∀ e ∈ p.flight, e.2.stage ≠ .queued) :
    s.beatsAfter n = s := by
  have hnone : ((s.eport n).flight.filter fun e => decide (e.2.stage = .queued)) = [] := by simpa [hp] using h
  unfold State.beatsAfter
  rw [hnone]
  rfl

/-! ### The command beat (R33, R35, R36) -/

theorem beatWith_same {b : BitVec 128} {op : Nat} (h : beatOp b = op) : beatWith b op = b := by
  have htop : b.toNat / 2 ^ 122 = op := by
    have hlt : b.toNat / 2 ^ 122 < 2 ^ 6 := Nat.div_lt_of_lt_mul (by simpa using b.isLt)
    rw [← h, beatOp, bits, Nat.shiftRight_eq_div_pow, Nat.mod_eq_of_lt hlt]
  unfold beatWith
  split
  · rfl
  · rw [← htop, Nat.div_add_mod', BitVec.ofNat_toNat, BitVec.setWidth_eq]

theorem beatWith_reserved {b : BitVec 128} (h : 0x0A ≤ beatOp b) (op : Nat) : beatWith b op = b := if_pos h

/-- The command a beat makes in flight. -/
def State.beatCmd (s : State) (b : BitVec 128) : ECmd :=
  { beat := b, stage := if beatHasWd b then .needWd else .issued, at5 := s.clk.core
    early := if s.beatCheck b = stOk then none else some (BitVec.ofNat 4 (s.beatCheck b)) }

theorem State.beatCmd_early_none {s : State} {b : BitVec 128} (h : s.beatCheck b = stOk) : (s.beatCmd b).early = none := if_pos h

theorem State.beatCmd_early_some {s : State} {b : BitVec 128} (h : s.beatCheck b ≠ stOk) :
    (s.beatCmd b).early = some (BitVec.ofNat 4 (s.beatCheck b)) := if_neg h

/-- A port that has taken a command: its CMD credit is gone and due again, and it waits for a WD beat if one belongs to it. -/
def EPort.take (p : EPort) (withheld : Bool) (c : ECmd) : EPort :=
  EPort.owe { p with cmdCrd := p.cmdCrd - 1, flight := p.flight ++ [(beatTag c.beat, c)]
                     wdWait := if beatHasWd c.beat then p.wdWait ++ [some (beatTag c.beat)] else p.wdWait } withheld false

/-- A command beat with a credit and a free TAG, outside the safe state, is taken. -/
theorem State.eportCmd_taken {s : State} {n op : Nat} {b : BitVec 128} (hb : beatWith b op = b) (hcrd : (s.eport n).cmdCrd ≠ 0)
    (htag : ∀ e ∈ (s.eport n).flight, e.1 ≠ beatTag b) (hsafe : s.fc.safe = false) :
    ∃ t, AtPort n ((s.eport n).take (s.withholds false) (s.beatCmd b)) s t ∧
      s.eportCmd n op b = if beatHasWd b then t.matchWd n else t.beatGo n (beatTag b) := by
  have hfree : ¬ ((s.eport n).cmdCrd = 0 ∨ ((s.eport n).flight.any fun e => decide (e.1 = beatTag b)) = true) := by
    rintro (hzero | hused)
    · exact hcrd hzero
    · obtain ⟨e, he, htaken⟩ := List.any_eq_true.mp hused
      exact htag e he (of_decide_eq_true htaken)
  have htaken := ((AtPort.of_setEPort n { s.eport n with
      cmdCrd := (s.eport n).cmdCrd - 1, flight := (s.eport n).flight ++ [(beatTag b, s.beatCmd b)]
      wdWait := if beatHasWd b then (s.eport n).wdWait ++ [some (beatTag b)] else (s.eport n).wdWait } s).oweEPort false).watched
    (State.count_watched _ 5 0 n (some (beatPart b)) 1)
  obtain ⟨-, -, -, -, -, -, -, hfc⟩ := htaken.frame
  refine ⟨_, htaken, ?_⟩
  unfold State.eportCmd
  dsimp only
  rw [hb, if_neg hfree]
  exact if_neg (by rw [← hfc] at hsafe; exact Bool.eq_false_iff.mp hsafe)

/-! ### Loads and reserved operations, which have no WD beat -/

theorem exec_eportLoad (port : EPortId) (b : BitVec 128) (s : State) :
    exec (.eportLoad port b) s = .next (s.eportCmd port.val 0 b).kick := rfl

theorem beatHasWd_false {b : BitVec 128} (h : beatOp b = 0 ∨ 0x0A ≤ beatOp b) : beatHasWd b = false := by
  simp only [beatHasWd, decide_eq_false_iff_not]
  omega

/-- A load, or a beat with a reserved operation, is taken and goes on at once. -/
theorem eportLoad_taken {port : EPortId} {b : BitVec 128} {s : State} (hop : beatOp b = 0 ∨ 0x0A ≤ beatOp b)
    (hcrd : (s.eport port).cmdCrd ≠ 0) (htag : ∀ e ∈ (s.eport port).flight, e.1 ≠ beatTag b) (hsafe : s.fc.safe = false) :
    ∃ t q, AtPort port q s t ∧ q.flight = (s.eport port).flight ++ [(beatTag b, s.beatCmd b)] ∧ q.cplQ = (s.eport port).cplQ ∧
      Does (.eportLoad port b) s (t.beatGo port (beatTag b)) := by
  have hb : beatWith b 0 = b := hop.elim beatWith_same (beatWith_reserved · 0)
  obtain ⟨t, hat, hgo⟩ := State.eportCmd_taken hb hcrd htag hsafe
  rw [beatHasWd_false hop] at hgo
  exact ⟨t, _, hat, EPort.owe_flight _ _ _, EPort.owe_cplQ _ _ _, does_of_eq (exec_eportLoad port b s) hgo⟩

/-! ### Stores and atomics, which wait for their WD beat (R37) -/

/-- The commands with a WD beat, each with its operation. -/
def eportWrites (port : EPortId) (b : BitVec 128) : List (Instr × Nat) :=
  [(.eportStore port b, 1), (.eportAadd port b, 2), (.eportAmin port b, 3), (.eportAmax port b, 4), (.eportAand port b, 5),
    (.eportAor port b, 6), (.eportAxor port b, 7), (.eportAswp port b, 8), (.eportAcas port b, 9)]

theorem eportWrites_exec {port : EPortId} {b : BitVec 128} {e : Instr × Nat} (he : e ∈ eportWrites port b) (s : State) :
    exec e.1 s = .next (s.eportCmd port.val e.2 b).kick ∧ 1 ≤ e.2 ∧ e.2 ≤ 9 := by
  simp only [eportWrites, List.mem_cons, List.not_mem_nil, or_false] at he
  rcases he with rfl | rfl | rfl | rfl | rfl | rfl | rfl | rfl | rfl
  all_goals exact ⟨rfl, by norm_num, by norm_num⟩

theorem State.matchWd_none {s : State} {n : Nat} (h : (s.eport n).wdBuf = []) : s.matchWd n = s := by
  unfold State.matchWd
  simp only [h]
  cases (s.eport n).wdWait <;> rfl

/-- A store or an atomic is taken and waits. -/
theorem eportWrite_taken {port : EPortId} {b : BitVec 128} {e : Instr × Nat} {s : State} (he : e ∈ eportWrites port b)
    (hop : beatOp b = e.2) (hcrd : (s.eport port).cmdCrd ≠ 0) (hbuf : (s.eport port).wdBuf = [])
    (htag : ∀ e ∈ (s.eport port).flight, e.1 ≠ beatTag b) (hsafe : s.fc.safe = false) :
    ∃ t, AtPort port ((s.eport port).take (s.withholds false) (s.beatCmd b)) s t ∧ Does e.1 s t ∧ beatHasWd b = true := by
  obtain ⟨hexec, hlow, hhigh⟩ := eportWrites_exec he s
  have hwd : beatHasWd b = true := by simp [beatHasWd, hop, hlow, hhigh]
  obtain ⟨t, hat, hgo⟩ := State.eportCmd_taken (beatWith_same hop) hcrd htag hsafe
  rw [hwd, if_pos rfl, State.matchWd_none (by rw [hat.eport]; exact (EPort.owe_wdBuf _ _ _).trans hbuf)] at hgo
  exact ⟨t, hat, does_of_eq hexec hgo, hwd⟩

/-! ### The WD beat (R37) -/

theorem exec_eportWdBeat (port : EPortId) (data : Bytes) (s : State) :
    exec (.eportWdBeat port data) s = .next (s.eportWd port.val data).kick := rfl

/-- The WD beat joins those that came first. -/
theorem State.eportWd_taken {s : State} {n : Nat} (hcrd : (s.eport n).wdCrd ≠ 0) (data : Bytes) :
    ∃ t p, AtPort n p s t ∧ s.eportWd n data = t.matchWd n ∧ p.flight = (s.eport n).flight ∧ p.wdWait = (s.eport n).wdWait ∧
      p.wdBuf = (s.eport n).wdBuf ++ [slice data 0 64] ∧ p.cplQ = (s.eport n).cplQ := by
  refine ⟨_, _, (AtPort.of_setEPort n { s.eport n with
    wdCrd := (s.eport n).wdCrd - 1, wdBuf := (s.eport n).wdBuf ++ [slice data 0 64] } s).oweEPort true, ?_, by simp, by simp, by simp,
    by simp⟩
  unfold State.eportWd
  exact if_neg hcrd

/-- A port whose command with a TAG has its WD beat `d`; what still waits stays. -/
def EPort.handWd (p : EPort) (tag : Nat) (ts : List (Option Nat)) (d : Bytes) (ds : List Bytes) : EPort :=
  EPort.modCmd { p with wdWait := ts, wdBuf := ds } tag fun c => { c with wd := d }

theorem EPort.handWd_flight (p : EPort) (tag : Nat) (ts : List (Option Nat)) (d : Bytes) (ds : List Bytes) :
    (p.handWd tag ts d ds).flight = (p.modCmd tag fun c => { c with wd := d }).flight := rfl

/-- The oldest WD beat goes to the oldest command, which waits for it. -/
theorem State.matchWd_first {s : State} {n tag : Nat} {c : ECmd} {fl : List (Nat × ECmd)} {ts : List (Option Nat)} {d : Bytes}
    {ds : List Bytes} (hwait : (s.eport n).wdWait = some tag :: ts) (hbuf : (s.eport n).wdBuf = d :: ds)
    (hfl : (s.eport n).flight = (tag, c) :: fl) (hstage : c.stage = .needWd) :
    s.matchWd n = ((s.modEPort n fun p => p.handWd tag ts d ds).beatGo n tag).beatsAfter n := by
  unfold State.matchWd
  simp only [hwait, hbuf, hfl]
  simp [hstage, hfl, State.modEPort, EPort.handWd]

/-- The WD beat of the oldest command: the command has it and goes on, and then what waits behind it. -/
theorem State.eportWd_first {s : State} {n tag : Nat} {c : ECmd} {fl : List (Nat × ECmd)} {ts : List (Option Nat)}
    (hcrd : (s.eport n).wdCrd ≠ 0) (hbuf : (s.eport n).wdBuf = []) (hwait : (s.eport n).wdWait = some tag :: ts)
    (hfl : (s.eport n).flight = (tag, c) :: fl) (hstage : c.stage = .needWd) (hno : ∀ e ∈ fl, e.2.stage ≠ .queued) (data : Bytes) :
    ∃ t q, AtPort n q s t ∧ s.eportWd n data = (t.beatGo n tag).beatsAfter n ∧
      (q.flight.find? fun e => decide (e.1 = tag)) = some (tag, { c with wd := slice data 0 64 }) ∧
      q.heldBack tag { c with wd := slice data 0 64 } = false ∧ (∀ e ∈ q.flight, e.2.stage ≠ .queued) ∧ q.wdWait = ts ∧
      q.cplQ = (s.eport n).cplQ := by
  obtain ⟨t, p, hat, hwd, hpfl, hpwait, hpbuf, hpcpl⟩ := State.eportWd_taken hcrd data
  rw [hfl] at hpfl
  rw [hbuf, List.nil_append] at hpbuf
  have hold : ∀ e ∈ p.flight, e.2.stage ≠ .queued := by
    rw [hpfl]
    exact List.forall_mem_cons.mpr ⟨by simp [hstage], hno⟩
  have hqfl := (p.handWd_flight tag ts (slice data 0 64) []).trans (EPort.modCmd_first hpfl _)
  refine ⟨_, _, hat.modEPort fun p => p.handWd tag ts (slice data 0 64) [], ?goes, EPort.find_first hqfl, EPort.heldBack_first hqfl _,
    ?unqueued, rfl, hpcpl⟩
  case goes =>
    rw [hwd]
    exact State.matchWd_first (by rw [hat.eport, hpwait, hwait]) (by rw [hat.eport, hpbuf]) (by rw [hat.eport, hpfl]) hstage
  case unqueued =>
    rw [EPort.handWd_flight]
    exact EPort.modCmd_not_queued (f := fun c => { c with wd := slice data 0 64 }) (fun _ h => h) hold tag

/-! ### The obligation -/

theorem tags_ne_of_all {fl : List (Nat × ECmd)} {tag : Nat} (h : (fl.all fun c => decide (c.1 ≠ tag)) = true) :
    ∀ e ∈ fl, e.1 ≠ tag :=
  fun e he => of_decide_eq_true (List.all_eq_true.mp h e he)

/-- Settles O6: what a port takes, and what becomes of it by its kind, its check and the commands before it. -/
theorem eportCommands : Obligations.EportCommands := by
  unfold Obligations.EportCommands
  refine ⟨fun port b s hop hcrd htag hsafe hok => ⟨fun hfirst => ?requests, fun hbehind => ?queues⟩,
    fun port b s e he hop hcrd hbuf htag hsafe hok => ?write,
    fun port data s tag ts c fl hcrd hbuf hwait hfl hstage hearly htag hno => ?wdRequests,
    fun b s => ⟨fun hb => ?malformed, fun hb => ?checked⟩,
    fun port b st s hop hcrd htag hsafe hst hbad => ?loadRefused,
    fun port b st s e he hop hcrd hbuf htag hsafe hst hbad => ?writeRefused,
    fun port data s tag ts c fl st hcrd hbuf hwait hfl hstage hearly hno => ?wdCompletes⟩
  case requests =>
    have hnew := tags_ne_of_all htag
    obtain ⟨t, q, hat, hfl, -, hdoes⟩ := eportLoad_taken (.inl hop) hcrd hnew hsafe
    have hheld : q.heldBack (beatTag b) (s.beatCmd b) = false :=
      Bool.eq_false_iff.mpr fun h => hfirst ((EPort.heldBack_newest hfl hnew).mp h).2
    obtain ⟨r, hr⟩ := hat.beatGo_requests (EPort.find_newest hfl hnew) hheld (State.beatCmd_early_none hok)
    exact ⟨_, r, hdoes, hr.reqs, hr.id, hr.who, hr.fab, hr.len, hr.write.trans (by simp [State.beatCmd, hop]),
      hr.ordered.trans (by simp [State.beatCmd, hop]), hr.stage, hr.load hop, hr.ptag, hr.jobs, hr.cpq, hr.links, hr.queues, hr.parts⟩
  case queues =>
    have hnew := tags_ne_of_all htag
    obtain ⟨t, q, hat, hfl, -, hdoes⟩ := eportLoad_taken (.inl hop) hcrd hnew hsafe
    have hheld : q.heldBack (beatTag b) (s.beatCmd b) = true :=
      (EPort.heldBack_newest hfl hnew).mpr ⟨State.beatCmd_early_none hok, hbehind⟩
    have hqueued := hat.beatGo_queues (EPort.find_newest hfl hnew) hheld
    obtain ⟨hreqs, hjobs, -, hlinks, hqueues, -, -, -⟩ := hqueued.frame
    refine ⟨_, hdoes, hreqs, ?_, hjobs, hlinks, hqueues⟩
    rw [hqueued.eport, EPort.modCmd_newest hfl hnew]
    simp [State.beatCmd, hok]
  case write =>
    obtain ⟨u, hat, hdoes, hwd⟩ := eportWrite_taken he hop hcrd hbuf (tags_ne_of_all htag) hsafe
    obtain ⟨hreqs, hjobs, -, hlinks, hqueues, hparts, -, -⟩ := hat.frame
    refine ⟨u, hdoes, ?_, ?_, ?_, hreqs, hjobs, fun m hm => hat.eport_ne hm, hlinks, hqueues, hparts⟩ <;> rw [hat.eport]
    · exact (EPort.owe_wdWait _ _ _).trans (if_pos hwd)
    · refine (EPort.owe_flight _ _ _).trans ?_
      simp [State.beatCmd, hok, hwd]
    · refine (EPort.owe_cmdCrd _ _).trans ?_
      exact (Nat.sub_add_comm (Nat.one_le_iff_ne_zero.mpr hcrd)).symm
  case wdRequests =>
    obtain ⟨t, q, hat, hgo, hcmd, hheld, hqno, hqwait, -⟩ := State.eportWd_first hcrd hbuf hwait hfl hstage hno data
    obtain ⟨r, hr⟩ := hat.beatGo_requests hcmd hheld hearly
    have hlast := State.beatsAfter_none hr.eport (EPort.modCmd_not_queued (fun _ _ => EStage.noConfusion) hqno tag)
    exact ⟨_, r, does_of_eq (exec_eportWdBeat port data s) (hgo.trans hlast), hr.reqs, hr.who.trans (by rw [← htag]), hr.fab, hr.len,
      hr.write, (congrArg EPort.wdWait hr.eport).trans hqwait, hr.store, hr.eport_ne, hr.jobs, hr.links, hr.queues⟩
  case malformed => simp [State.beatCheck, hb]
  case checked => simp [State.beatCheck, hb]
  case loadRefused =>
    have hnew := tags_ne_of_all htag
    obtain ⟨t, q, hat, hfl, hcpl, hdoes⟩ := eportLoad_taken hop hcrd hnew hsafe
    have hdone := hat.beatGo_completes (EPort.find_newest hfl hnew) (State.beatCmd_early_some (hst.trans_ne hbad))
    obtain ⟨hreqs, hjobs, -, hlinks, hqueues, -, -, -⟩ := hdone.frame
    refine ⟨_, hdoes, ?_, ?_, hreqs, hjobs, hlinks, hqueues⟩ <;> rw [hdone.eport]
    · simp [hcpl, hst]
    · rw [EPort.complete_flight, EPort.modCmd_newest hfl hnew]
      simp [State.beatCmd, hst, hbad]
  case writeRefused =>
    obtain ⟨u, hat, hdoes, hwd⟩ := eportWrite_taken he hop hcrd hbuf (tags_ne_of_all htag) hsafe
    obtain ⟨hreqs, -⟩ := hat.frame
    refine ⟨u, hdoes, ?_, ?_, ?_, hreqs⟩ <;> rw [hat.eport]
    · exact (EPort.owe_wdWait _ _ _).trans (if_pos hwd)
    · refine (EPort.owe_flight _ _ _).trans ?_
      simp [State.beatCmd, hst, hbad, hwd]
    · exact EPort.owe_cplQ _ _ _
  case wdCompletes =>
    obtain ⟨t, q, hat, hgo, hcmd, hheld, hqno, hqwait, hqcpl⟩ := State.eportWd_first hcrd hbuf hwait hfl hstage hno data
    have hdone := hat.beatGo_completes hcmd hearly
    obtain ⟨hreqs, hjobs, -⟩ := hdone.frame
    have hlast := State.beatsAfter_none hdone.eport (EPort.complete_not_queued hqno tag st [])
    refine ⟨_, does_of_eq (exec_eportWdBeat port data s) (hgo.trans hlast), hreqs, ?_, ?_, fun m hm => hdone.eport_ne hm, hjobs⟩
    · rw [hdone.eport, EPort.complete_wdWait, hqwait]
    · rw [hdone.eport, EPort.complete_cplQ, hqcpl]

end Sys2Proof.Machine
end

section
/-! SUPPORT. The recomputation of PACE_K (R72): what a link announces of a computed value, outcome by outcome, and the obligation
about it. -/

namespace Sys2Proof.Machine

/-! ### The smallest PACE_K -/

/-- The computation finds the first value that is enough, and 63 where no smaller one is. -/
theorem paceFor_eq_first {w g period j : Nat} (hj : j < 64) (hfit : w * 265625 * 2 ^ g * 32 * period ≤ 528 * (32 + j) * 10 ^ 7 ∨ j = 63)
    (hleast : ∀ i, i < j → 528 * (32 + i) * 10 ^ 7 < w * 265625 * 2 ^ g * 32 * period) : paceFor w g period = j := by
  unfold paceFor
  by_cases h : w * 265625 * 2 ^ g * 32 * period ≤ 528 * (32 + j) * 10 ^ 7
  · rw [List.find?_range_eq_some.mpr ⟨by simpa using h, List.mem_range.mpr hj, fun i hi => by simpa using hleast i hi⟩]
    rfl
  · obtain rfl : j = 63 := hfit.resolve_left h
    have hnone (i : Nat) (hi : i < 64) : ¬ w * 265625 * 2 ^ g * 32 * period ≤ 528 * (32 + i) * 10 ^ 7 := by
      obtain hlt | rfl : i < 63 ∨ i = 63 := by omega
      · exact Nat.not_le.mpr (hleast i hlt)
      · exact h
    rw [List.find?_range_eq_none.mpr fun i hi => by simpa using hnone i hi]
    rfl

/-! ### What a link announces of a value -/

section
variable {l : LL} {k : BitVec 6}

theorem LL.takePace_rise (h : l.paceLocal < k) : l.takePace k = { l with paceLocal := k, paceDue := true, fall := 0, fallTo := 0 } := by
  unfold LL.takePace
  dsimp only
  rw [if_neg (BitVec.ne_of_lt h).symm, if_pos h]

theorem LL.takePace_same (h : k = l.paceLocal) : l.takePace k = { l with fall := 0, fallTo := 0 } := if_pos h

/-- A lower value is counted, and announced at its tenth computation. -/
theorem LL.takePace_lower (h : k < l.paceLocal) {n : Nat} (hn : (if l.fall ≠ 0 ∧ l.fallTo = k then l.fall + 1 else 1) = n) :
    l.takePace k = if 10 ≤ n then { l with paceLocal := k, paceDue := true, fall := 0, fallTo := 0 }
      else { l with fall := n, fallTo := k } := by
  unfold LL.takePace
  dsimp only
  rw [if_neg (BitVec.ne_of_lt h), if_neg (BitVec.lt_asymm h), hn]

theorem LL.takePace_lower_first (h : k < l.paceLocal) (hnew : l.fall = 0 ∨ l.fallTo ≠ k) :
    l.takePace k = { l with fall := 1, fallTo := k } := by
  rw [LL.takePace_lower h (if_neg fun ⟨hfall, hto⟩ => hnew.elim hfall (· hto))]
  rfl

theorem LL.takePace_lower_again (h : k < l.paceLocal) (hfall : 0 < l.fall) (hfew : l.fall < 9) (hto : l.fallTo = k) :
    l.takePace k = { l with fall := l.fall + 1 } := by
  rw [LL.takePace_lower h (if_pos ⟨hfall.ne', hto⟩), if_neg (by omega), ← hto]

theorem LL.takePace_lower_tenth (h : k < l.paceLocal) (hmany : 9 ≤ l.fall) (hto : l.fallTo = k) :
    l.takePace k = { l with paceLocal := k, paceDue := true, fall := 0, fallTo := 0 } := by
  rw [LL.takePace_lower h (if_pos ⟨by omega, hto⟩), if_pos (by omega)]

end

/-! ### Every link takes its value -/

/-- Link `k` with its computed value taken. -/
def State.pacedLink (s : State) (k : Nat) : Link :=
  let l := s.link k
  { l with ll := l.ll.takePace (BitVec.ofNat 6 (paceFor l.train.width l.train.grade.toNat s.pins.period.toNat)) }

/-- Links below `m` take their values, and nothing else changes. -/
theorem State.setPaced_links (s : State) (m : Nat) :
    ∃ ls, forEach (List.range m) (fun k t => t.setLink k (t.pacedLink k)) s = { s with links := ls } ∧
      ∀ k, Tab.get {} ls k = if k < m then s.pacedLink k else s.link k := by
  induction m with
  | zero => exact ⟨s.links, rfl, fun k => rfl⟩
  | succ m ih =>
    obtain ⟨ls, hloop, hlinks⟩ := ih
    have hpaced : ({ s with links := ls } : State).pacedLink m = s.pacedLink m := by
      have hlink : ({ s with links := ls } : State).link m = s.link m := (hlinks m).trans (if_neg (lt_irrefl m))
      unfold State.pacedLink
      rw [hlink]
    refine ⟨ls.put {} m (s.pacedLink m), ?_, fun k => ?_⟩
    · unfold forEach at hloop ⊢
      rw [List.range_succ, List.foldl_append, hloop, ← hpaced]
      rfl
    · by_cases hk : k = m
      · subst hk
        rw [Tab.get_put_same, if_pos (Nat.lt_succ_self k)]
      · rw [Tab.get_put_ne _ _ hk, hlinks k]
        exact if_congr (by omega) rfl rfl

theorem State.repace_running {s : State} (h : s.running = true) :
    s.repace = forEach (List.range 24) (fun k t => t.setLink k (t.pacedLink k)) s := by
  unfold State.repace
  rw [h]
  rfl

/-- Settles O10: the computed value of every link is the smallest one, and each clause is one outcome of taking it. -/
theorem paceRecomputed : Obligations.PaceRecomputed := by
  unfold Obligations.PaceRecomputed
  intro dt s hrun
  obtain ⟨ls, hloop, hlinks⟩ := (s.passNs dt).setPaced_links 24
  have hrepace := (State.repace_running (s := s.passNs dt) hrun).trans hloop
  refine ⟨_, congrArg Host.Outcome.next hrepace, rfl, rfl, fun k hk j hj hfit hleast => ?_⟩
  have hlink : ({ s.passNs dt with links := ls } : State).link k =
      { s.link k with ll := (s.link k).ll.takePace (BitVec.ofNat 6 j) } := by
    rw [← paceFor_eq_first hj hfit hleast]
    exact (hlinks k).trans (if_pos hk)
  rw [hlink]
  refine ⟨fun h => ?_, fun h => ?_, fun h hnew => ?_, fun h hfall hfew hto => ?_, fun h hmany hto => ?_⟩
  · rw [LL.takePace_rise h]
  · rw [LL.takePace_same h]
  · rw [LL.takePace_lower_first h hnew]
  · rw [LL.takePace_lower_again h hfall hfew hto]
  · rw [LL.takePace_lower_tenth h hmany hto]

end Sys2Proof.Machine
end

section
/-! SUPPORT. The reset handshake of a crossing (R82, R83): what each side flushes, what a request and an acknowledgement change and
leave, and the obligation about them. -/

namespace Sys2Proof

/-- One pass over some entries of a table by a change that does nothing more a second time. -/
theorem Tab.get_foldl_put {α ι : Type} [DecidableEq α] [DecidableEq ι] (d : α) {key : ι → Nat} (hkey : Function.Injective key)
    {f : α → α} (hf : ∀ v, f (f v) = f v) (l : List ι) (t : Tab α) (i : ι) :
    Tab.get d (l.foldl (fun t j => Tab.put d t (key j) (f (Tab.get d t (key j)))) t) (key i) =
      if i ∈ l then f (Tab.get d t (key i)) else Tab.get d t (key i) := by
  induction l generalizing t with
  | nil => rfl
  | cons j l ih =>
    rw [List.foldl_cons, ih]
    by_cases hi : i = j
    · subst hi
      simp [hf]
    · rw [Tab.get_put_ne _ _ (hkey.ne hi)]
      simp [hi]

end Sys2Proof

namespace Sys2Proof.Machine
open Sys2Proof.Safety

/-! ### Keys -/

/-- No two crossings share a key. -/
theorem xingKey_injective : Function.Injective xingKey := by
  intro x y h
  cases x <;> cases y <;> grind [xingKey, hclkKey]

theorem EvCh.num_injective : Function.Injective EvCh.num :=
  Function.LeftInverse.injective (g := EvCh.ofNat) fun ch => by cases ch <;> rfl

/-! ### What a side flushes -/

/-- A side that flushes a counter clears what it shows of one it sends, and its last accepted value of another. -/
def EventCtr.clear (c : EventCtr) (own : Bool) : EventCtr := if own then { c with sent := 0 } else { c with taken := 0 }

theorem EventCtr.clear_clear (c : EventCtr) (own : Bool) : (c.clear own).clear own = c.clear own := by
  cases own <;> rfl

/-- The counters of some channels cleared. -/
def clearCtrs (own : Bool) (l : List EvCh) (t : Tab EventCtr) : Tab EventCtr :=
  l.foldl (fun t ch => t.put {} ch.num ((t.get {} ch.num).clear own)) t

theorem clearCtrs_get (own : Bool) (l : List EvCh) (t : Tab EventCtr) (ch : EvCh) :
    (clearCtrs own l t).get {} ch.num = if ch ∈ l then (t.get {} ch.num).clear own else t.get {} ch.num :=
  Tab.get_foldl_put _ EvCh.num_injective (f := fun c => c.clear own) (fun c => c.clear_clear own) l t ch

theorem Xing.flush_ctrs (x : Xing) (core : Bool) :
    (x.flush core).ctrs = clearCtrs (!core) clkEvents (clearCtrs core coreEvents x.ctrs) := rfl

theorem EvCh.mem_clkEvents (ch : EvCh) : ch ∈ clkEvents ↔ ch ∉ coreEvents := by
  cases ch <;> decide

theorem Xing.flush_ctrs_get (x : Xing) (core : Bool) (ch : EvCh) :
    (x.flush core).ctrs.get {} ch.num = (x.ctrs.get {} ch.num).clear (decide (ch ∈ coreEvents) == core) := by
  rw [Xing.flush_ctrs, clearCtrs_get, clearCtrs_get]
  by_cases h : ch ∈ coreEvents <;> simp [h, ch.mem_clkEvents]

/-! ### The sides of a crossing -/

@[simp] theorem Xing.side_setSide (x : Xing) (core : Bool) (h : HandLevels) : (x.setSide core h).side core = h := by
  cases core <;> rfl

@[simp] theorem Xing.side_setSide_not (x : Xing) (core : Bool) (h : HandLevels) :
    (x.setSide core h).side (!core) = x.side (!core) := by
  cases core <;> rfl

@[simp] theorem Xing.setSide_ctrs (x : Xing) (core : Bool) (h : HandLevels) : (x.setSide core h).ctrs = x.ctrs := by
  cases core <;> rfl

@[simp] theorem Xing.side_flush (x : Xing) (own core : Bool) : (x.flush own).side core = x.side core := rfl

/-- A crossing of which one side is out of reset is in reset as long as the other is. -/
theorem Xing.inReset_iff {x : Xing} {core : Bool} (h : x.side core = {}) : x.inReset = true ↔ x.side (!core) ≠ {} := by
  cases core <;> simp_all [Xing.inReset, Xing.side]

/-! ### The headers of a lane are counted first -/

/-- `t` has the crossings of `s`, but for the event counters of the one with key `k`. -/
structure CountedAt (k : Nat) (s t : State) : Prop where
  other : ∀ j, j ≠ k → t.xings.get {} j = s.xings.get {} j
  side : ∀ core, (t.xings.get {} k).side core = (s.xings.get {} k).side core

theorem CountedAt.refl (k : Nat) (s : State) : CountedAt k s s := ⟨fun _ _ => rfl, fun _ => rfl⟩

theorem CountedAt.congr_left {k : Nat} {s t u : State} (h : CountedAt k t u) (hxings : t.xings = s.xings) : CountedAt k s u where
  other := hxings ▸ h.other
  side := hxings ▸ h.side

theorem CountedAt.congr_right {k : Nat} {s t u : State} (h : CountedAt k s t) (hxings : u.xings = t.xings) : CountedAt k s u where
  other := hxings ▸ h.other
  side := hxings ▸ h.side

theorem State.crossKey_counted (s : State) (k : Nat) (ch : EvCh) (n : Nat) : CountedAt k s (s.crossKey k ch n) := by
  unfold State.crossKey
  dsimp only
  split
  · exact .refl k s
  · refine ⟨fun j hj => Tab.get_put_ne _ _ hj, fun core => ?_⟩
    dsimp only
    rw [Tab.get_put_same]
    rfl

theorem Watched.xings {s t : State} (h : Watched s t) : t.xings = s.xings := by
  obtain ⟨o, l, p, z, rfl⟩ := h
  rfl

theorem State.headerMore_counted (s : State) (n k : Nat) : CountedAt n s (s.headerMore n k) := by
  unfold State.headerMore
  split
  · exact .refl n s
  · exact (s.crossKey_counted n .header k).congr_right (State.count_watched _ 2 1 n none k).xings

theorem State.windowTake_counted (s : State) (n least : Nat) : CountedAt n s (s.windowTake n least) := by
  unfold State.windowTake
  dsimp only
  split
  · exact .refl n s
  · exact (State.headerMore_counted _ n _).congr_left rfl

theorem State.headSettle_counted (s : State) (n : Nat) : CountedAt n s (s.headSettle n) := by
  unfold State.headSettle State.headTake
  dsimp only
  split
  · exact .refl n s
  · split
    · exact (s.windowTake_counted n 0).congr_right rfl
    · exact (State.headerMore_counted _ n _).congr_left rfl

/-- The headers of the lane whose receive crossing `x` is are counted. -/
def State.xingSettle (s : State) (x : Crossing) : State :=
  match x with
  | .laneRx n => s.headSettle n.val
  | _ => s

theorem State.xingSettle_counted (s : State) (x : Crossing) : CountedAt (xingKey x) s (s.xingSettle x) := by
  cases x
  case laneRx n => exact s.headSettle_counted n.val
  all_goals exact .refl _ s

theorem State.xingSettle_frame (s : State) (x : Crossing) :
    (∀ m, (∀ n, x = .laneRx n → m ≠ n.val) → (s.xingSettle x).lane m = s.lane m) ∧
      (s.xingSettle x).links = s.links ∧ (s.xingSettle x).queues = s.queues := by
  cases x
  case laneRx n =>
    change (∀ m, _ → (s.headSettle n.val).lane m = s.lane m) ∧ (s.headSettle n.val).links = s.links ∧
      (s.headSettle n.val).queues = s.queues
    rcases s.headSettle_settled n.val with hsame | ⟨d, -, hsettled⟩
    · rw [hsame]
      exact ⟨fun _ _ => rfl, rfl, rfl⟩
    · refine ⟨fun m hm => hsettled.lane_ne (hm n rfl), ?_⟩
      obtain ⟨o, l, p, z, c, f, ht⟩ := hsettled
      rw [ht]
      exact ⟨rfl, rfl⟩
  all_goals exact ⟨fun _ _ => rfl, rfl, rfl⟩

/-! ### Credits of a port in reset (R30) -/

theorem State.dropCredits_frame (s : State) (x : Crossing) :
    (s.dropCredits x).xings = s.xings ∧ (s.dropCredits x).lanes = s.lanes ∧ (s.dropCredits x).links = s.links ∧
      (s.dropCredits x).queues = s.queues := by
  unfold State.dropCredits
  split
  · split
    · exact ⟨rfl, rfl, rfl, rfl⟩
    · split
      · exact ⟨rfl, rfl, rfl, rfl⟩
      · exact ⟨rfl, rfl, rfl, rfl⟩
  · exact ⟨rfl, rfl, rfl, rfl⟩

theorem State.dropCredits_eport (s : State) {n : Fin 53} (hn : n.val < 16) :
    (s.dropCredits (.hclk n)).eport n.val =
      { s.eport n.val with cmdCrd := 0, wdCrd := 0, cmdOwed := 0, wdOwed := 0, cplCrd := 0 } := by
  have hport : hclkPort n.val = none := if_pos hn
  unfold State.dropCredits
  simp only [hport, if_pos hn]
  exact State.eport_setEPort _ _ _

theorem State.dropCredits_mg (s : State) {n : Fin 53} (hn : n.val = 52) :
    (s.dropCredits (.hclk n)).mgCrd = 0 ∧ (s.dropCredits (.hclk n)).mgCmd = 0 := by
  unfold State.dropCredits
  simp only [hn]
  exact ⟨rfl, rfl⟩

theorem State.crd_modCrd (s : State) (p : CPort) (c : Nat) (f : Nat → Nat) : (s.modCrd p c f).crd p c = f (s.crd p c) :=
  Tab.get_put_same _ _ _ _

theorem State.crd_modCrd_ne (s : State) (p : CPort) {c i : Nat} (h : i ≠ c) (f : Nat → Nat) : (s.modCrd p c f).crd p i = s.crd p i :=
  Tab.get_put_ne _ _ (by omega)

theorem State.dropCredits_port (s : State) {n : Fin 53} {p : CPort} (hp : hclkPort n.val = some p) :
    (∀ c < 3, (s.dropCredits (.hclk n)).crd p c = 0) ∧ ∀ wack, (s.dropCredits (.hclk n)).rxCrd p wack = 0 := by
  unfold State.dropCredits
  simp only [hp]
  refine ⟨fun c hc => ?_, fun wack => ?_⟩
  · change ((((s.modCrd p 0 fun _ => 0).modCrd p 1 fun _ => 0).modCrd p 2 fun _ => 0).crd p c) = 0
    obtain rfl | rfl | rfl : c = 0 ∨ c = 1 ∨ c = 2 := by omega
    · rw [State.crd_modCrd_ne _ _ (by decide), State.crd_modCrd_ne _ _ (by decide), State.crd_modCrd]
    · rw [State.crd_modCrd_ne _ _ (by decide), State.crd_modCrd]
    · rw [State.crd_modCrd]
  · cases wack with
    | false => exact (Tab.get_drop_ne 0 _ (Nat.succ_ne_self _).symm).trans (Tab.get_drop_same 0 _ _)
    | true => exact Tab.get_drop_same 0 _ _

/-! ### The request -/

/-- The crossing after a request of one side. -/
def Xing.requested (x : Xing) (core : Bool) : Xing := (x.setSide core { req := true, ack := true }).flush !core

theorem State.xingRequest_eq (s : State) (x : Crossing) (core : Bool) :
    s.xingRequest x core =
      (let u := s.xingSettle x
       State.dropCredits { u with xings := u.xings.put {} (xingKey x) ((u.xings.get {} (xingKey x)).requested core) } x) := rfl

theorem Xing.requested_ctrs_get (x : Xing) (core : Bool) (ch : EvCh) :
    (x.requested core).ctrs.get {} ch.num =
      if decide (ch ∈ coreEvents) = core then { x.ctrs.get {} ch.num with taken := 0 }
      else { x.ctrs.get {} ch.num with sent := 0 } := by
  unfold Xing.requested
  rw [Xing.flush_ctrs_get, Xing.setSide_ctrs]
  cases decide (ch ∈ coreEvents) <;> cases core <;> rfl

theorem State.xingRequest_xings (s : State) (x : Crossing) (core : Bool) :
    (s.xingRequest x core).xings =
      (s.xingSettle x).xings.put {} (xingKey x) (((s.xingSettle x).xings.get {} (xingKey x)).requested core) := by
  obtain ⟨hxings, -⟩ := State.dropCredits_frame _ x
  exact (congrArg State.xings (s.xingRequest_eq x core)).trans hxings

theorem State.xingRequest_frame (s : State) (x : Crossing) (core : Bool) :
    (s.xingRequest x core).lanes = (s.xingSettle x).lanes ∧ (s.xingRequest x core).links = s.links ∧
      (s.xingRequest x core).queues = s.queues := by
  obtain ⟨-, hlinks, hqueues⟩ := s.xingSettle_frame x
  rw [← hlinks, ← hqueues, State.xingRequest_eq]
  obtain ⟨-, hframe⟩ := State.dropCredits_frame _ x
  exact hframe

/-! ### The acknowledgement -/

theorem exec_crossingResetAck (x : Crossing) (core : Bool) (s : State) :
    exec (.crossingResetAck x core) s = .next (s.xingAck x core).kick := rfl

/-- The crossing after an acknowledgement of one side. -/
def Xing.acked (x : Xing) (core : Bool) : Xing := (x.setSide core {}).flush core

theorem Xing.acked_ctrs_get (x : Xing) (core : Bool) (ch : EvCh) :
    (x.acked core).ctrs.get {} ch.num =
      if decide (ch ∈ coreEvents) = core then { x.ctrs.get {} ch.num with sent := 0 }
      else { x.ctrs.get {} ch.num with taken := 0 } := by
  unfold Xing.acked
  rw [Xing.flush_ctrs_get, Xing.setSide_ctrs]
  cases decide (ch ∈ coreEvents) <;> cases core <;> rfl

theorem State.mayLeave_of {s : State} {x : Crossing} {core : Bool}
    (h : ∀ n, x = .laneRx n → core = true ∨ (s.lane n.val).cdr = true) : s.mayLeave core x = true := by
  cases x
  case laneRx n => exact Bool.or_eq_true_iff.mpr (h n rfl)
  all_goals rfl

/-- A side in reset that may leave it does; with the other side out of reset the crossing is renewed. -/
theorem State.xingAck_leaves {s : State} {x : Crossing} {core : Bool}
    (h : (s.xings.get {} (xingKey x)).side core = { req := true, ack := true }) (hmay : s.mayLeave core x = true) :
    s.xingAck x core =
      (let r : State := { s with xings := s.xings.put {} (xingKey x) ((s.xings.get {} (xingKey x)).acked core) }
       if (s.xings.get {} (xingKey x)).side (!core) = {} then r.renewed x else r) := by
  have hreset : ((s.xings.get {} (xingKey x)).acked core).inReset = true ↔ (s.xings.get {} (xingKey x)).side (!core) ≠ {} := by
    rw [Xing.inReset_iff (core := core) (by simp [Xing.acked])]
    simp [Xing.acked]
  unfold State.xingAck
  dsimp only
  rw [if_pos (by simp [h, hmay])]
  by_cases hout : (s.xings.get {} (xingKey x)).side (!core) = {}
  · rw [if_pos hout]
    exact if_neg fun h => hreset.mp h hout
  · rw [if_neg hout]
    exact if_pos (hreset.mpr hout)

theorem State.xingAck_nothing {s : State} {x : Crossing} {core : Bool}
    (h : (s.xings.get {} (xingKey x)).side core = {} ∨ s.mayLeave core x = false) : s.xingAck x core = s := by
  unfold State.xingAck
  refine if_neg ?_
  rcases h with h | h <;> simp [h]

/-! ### The obligation -/

/-- Settles O11: the request, the acknowledgement that counts, and the one that does nothing. -/
theorem crossingResets : Obligations.CrossingResets := by
  unfold Obligations.CrossingResets
  refine ⟨fun x core s => ?request, fun x core s h hmay => ?leaves, fun x core s h =>
    does_of_eq (exec_crossingResetAck x core s) (State.xingAck_nothing ?nothing)⟩
  case request =>
    obtain ⟨hother, hside⟩ := s.xingSettle_counted x
    obtain ⟨hlane, -, -⟩ := s.xingSettle_frame x
    obtain ⟨hlanes, hlinks, hqueues⟩ := s.xingRequest_frame x core
    refine ⟨s.xingRequest x core, rfl, ?raised, ?otherSide, ⟨fun ch => ?flushed, hlanes⟩, fun m hm => ?lane, fun y hy => ?crossing,
      fun n hn => ?credits, hlinks, hqueues⟩
    case raised =>
      rw [State.xingRequest_xings, Tab.get_put_same]
      simp [Xing.requested]
    case otherSide =>
      rw [State.xingRequest_xings, Tab.get_put_same, ← hside]
      simp [Xing.requested]
    case flushed =>
      rw [State.xingRequest_xings, Tab.get_put_same]
      exact Xing.requested_ctrs_get _ core ch
    case lane => exact (congrArg (fun l => Tab.get ({} : Lane) l m) hlanes).trans (hlane m hm)
    case crossing =>
      have hkey : xingKey y ≠ xingKey x := xingKey_injective.ne hy
      rw [State.xingRequest_xings, Tab.get_put_ne _ _ hkey, hother _ hkey]
    case credits =>
      subst hn
      rw [State.xingRequest_eq]
      refine ⟨fun hlow => ?_, fun p hp => State.dropCredits_port _ hp, State.dropCredits_mg _⟩
      rw [State.dropCredits_eport _ hlow]
      exact ⟨rfl, rfl, rfl, rfl, rfl⟩
  case leaves =>
    have hdoes := State.xingAck_leaves h (State.mayLeave_of hmay)
    refine ⟨(s.xings.get {} (xingKey x)).acked core, ?_, ?_, Xing.acked_ctrs_get _ core, ?_⟩
    · simp [Xing.acked]
    · simp [Xing.acked]
    · exact does_of_eq (exec_crossingResetAck x core s) hdoes
  case nothing =>
    refine h.imp_right ?_
    rintro ⟨rfl, n, rfl, hcdr⟩
    exact hcdr

end Sys2Proof.Machine
end

section
/-! SUPPORT. The pins and the clocks (R75, R77, R84 to R88, R340, R426): the brown-out hold, stack heat, lost clocks and the speed
monitor, outcome by outcome, and the obligation about them. -/

namespace Sys2Proof.Machine
open Sys2Proof.Safety

/-! ### The brown-out hold (R85, R86) -/

theorem State.vwarnRise_enters {s : State} (h : s.pins.vwarn = false) (hready : s.boot.stage = .ready) (hrun : s.running = true)
    (hhold : s.pins.hold = false) :
    s.vwarnRise = (State.raise { s with pins := { s.pins with vwarn := true, hold := true, holdNotice := s.clk.up } }
      srcBrownout).holdNotices := by
  unfold State.vwarnRise
  rw [if_neg (Bool.eq_false_iff.mp h)]
  exact if_pos ⟨hready, hrun, hhold⟩

/-- Where no hold is entered the level is kept, and the time from which a boot stands still. -/
theorem State.vwarnRise_only {s : State} (h : s.pins.vwarn = false) (hno : s.boot.stage ≠ .ready ∨ s.pins.hold = true) :
    s.vwarnRise =
      { s with pins := { s.pins with vwarn := true, holdNotice := if s.pins.hold then s.pins.holdNotice else s.clk.up } } := by
  unfold State.vwarnRise
  rw [if_neg (Bool.eq_false_iff.mp h)]
  refine if_neg fun ⟨hready, _, hhold⟩ => hno.elim (· hready) fun h => ?_
  exact Bool.false_ne_true (hhold.symm.trans h)

theorem State.vwarnRelease_ends {s : State} (hhold : s.pins.hold = true) (hready : s.boot.stage = .ready) (hrun : s.running = true) :
    s.vwarnRelease = State.releaseHold { s with pins := { s.pins with vwarn := false } } := by
  unfold State.vwarnRelease
  rw [if_neg (by simp [hhold])]
  exact (if_neg (not_not_intro hready)).trans (if_pos (Bool.and_eq_true_iff.mpr ⟨hhold, hrun⟩))

theorem State.holdAgain_due {s : State} (hhold : s.pins.hold = true) (hrun : s.running = true)
    (hdue : s.pins.holdNotice + ms5 40 ≤ s.clk.up) :
    s.holdAgain = State.holdNotices { s with pins := { s.pins with holdNotice := s.pins.holdNotice + ms5 40 } } :=
  if_pos (by simp [hhold, hrun, hdue])

theorem State.holdAgain_early {s : State} (h : s.clk.up < s.pins.holdNotice + ms5 40) : s.holdAgain = s :=
  if_neg (by simp [Nat.not_le.mpr h])

/-! ### Stack heat (R340, R426) -/

theorem State.running_safe {s : State} (h : s.running = true) : s.fc.safe = false := by
  simpa using (Bool.and_eq_true_iff.mp h).2

theorem State.hotChange_falls (s : State) (i : Nat) :
    s.hotChange i false = { s with pins := { s.pins with hot := s.pins.hot &&& ~~~(BitVec.ofNat 20 (2 ^ i)) } } := rfl

/-- The first rise outside the safe state raises HOT, with notices where the block still runs. -/
theorem State.hotChange_first {s : State} (hcold : s.pins.hot = 0) (hsafe : s.fc.safe = false) (i : Nat) :
    s.hotChange i true =
      (let u := State.raise { s with pins := { s.pins with hot := BitVec.ofNat 20 (2 ^ i), hotNotice := s.clk.up } } srcHot
       if u.running then u.slowNotices else u) := by
  unfold State.hotChange
  dsimp only
  rw [if_neg (by simp [hcold, bit, hsafe, State.modPins]), if_pos hcold]
  simp [State.modPins, hcold]

theorem State.hotChange_later {s : State} {i : Nat} (hhot : s.pins.hot ≠ 0) (hlow : bit s.pins.hot i = false) (hrun : s.running = true) :
    s.hotChange i true = State.slowNotices { s with pins := { s.pins with hot := s.pins.hot ||| BitVec.ofNat 20 (2 ^ i) } } := by
  unfold State.hotChange
  dsimp only
  rw [if_neg (by simp [hlow, State.running_safe hrun, State.modPins]), if_neg hhot]
  exact if_pos hrun

theorem State.hotAgain_due {s : State} (hrun : s.running = true) (hhot : s.pins.hot ≠ 0)
    (hdue : s.pins.hotNotice + ms5 40 ≤ s.clk.up) :
    s.hotAgain = State.slowNotices { s with pins := { s.pins with hotNotice := s.pins.hotNotice + ms5 40 } } :=
  if_pos (by simpa [hrun, hdue] using hhot)

/-! ### The speed monitor (R75, R77) -/

/-- The speed monitor keeps a measured period, and the largest one. -/
def State.sampled (s : State) (t : BitVec 16) : State :=
  { s with pins := { s.pins with period := t, periodMax := if s.pins.periodMax < t then t else s.pins.periodMax } }

theorem State.speed_sampled {s : State} (h : s.boot.stage ≠ .fuse) (t : BitVec 16) :
    s.speed t = if 2000 < t.toNat then (s.sampled t).raise srcUndervolt else s.sampled t := if_neg h

/-! ### The obligation -/

/-- Settles O9: each clause is one outcome of a pin, a timer or a sample. -/
theorem pinsAndClocks : Obligations.PinsAndClocks := by
  unfold Obligations.PinsAndClocks
  refine ⟨⟨fun s h hready hrun hhold => does_of_eq rfl (State.vwarnRise_enters h hready hrun hhold), fun s h hhold => ?holds,
      fun s h hhold hboot => ?boots, fun dt s hhold hready hrun => ?ends, fun dt s hhold hrun hdue => ?again, fun dt s h => ?early⟩,
    ⟨fun i s => does_of_eq rfl (s.hotChange_falls i), fun i s hhot hlow hrun => ?hotter, fun i s hcold hsafe => ?hot,
      fun dt s hrun hhot hdue => ?hotAgain⟩,
    fun s => ⟨rfl, rfl⟩, fun t dt s hstage => ⟨fun h => ?normal, fun h => ?slow⟩⟩
  case holds =>
    refine does_of_eq rfl ((State.vwarnRise_only h (.inr hhold)).trans ?_)
    rw [if_pos hhold]
  case boots =>
    refine does_of_eq rfl ((State.vwarnRise_only h (.inl hboot)).trans ?_)
    rw [if_neg (Bool.eq_false_iff.mp hhold)]
  case ends => exact does_of_eq rfl (State.vwarnRelease_ends (s := s.passNs dt) hhold hready hrun)
  case again => exact does_of_eq rfl (State.holdAgain_due (s := s.passNs dt) hhold hrun hdue)
  case early => exact does_of_eq rfl (State.holdAgain_early (s := s.passNs dt) h)
  case hotter => exact does_of_eq rfl (State.hotChange_later hhot hlow hrun)
  case hot => exact does_of_eq rfl (State.hotChange_first hcold hsafe i)
  case hotAgain => exact does_of_eq rfl (State.hotAgain_due (s := s.passNs dt) hrun hhot hdue)
  case normal => exact does_of_eq rfl ((State.speed_sampled (s := s.passNs dt) hstage t).trans (if_neg (Nat.not_lt.mpr h)))
  case slow => exact does_of_eq rfl ((State.speed_sampled (s := s.passNs dt) hstage t).trans (if_pos h))

end Sys2Proof.Machine
end

section
/-! SUPPORT. What counting the headers of a lane leaves of it, and the outcomes of its equaliser, slip and window commands (R96, R97,
R103), with the obligation about them. -/

namespace Sys2Proof.Machine
open Sys2Proof.Safety

/-- A command that is a management write has the write's effect, and is answered OK, while the port is open. -/
theorem answers_of_mgWrite {c : Instr} {s u : State} {addr : Nat} {size8 : Bool} {data : Word} {act : State → State} (h : Open s)
    (hexec : exec c s = .next (s.mgWrite addr size8 data act)) (hact : act s = u) : Answers c s u := by
  unfold Answers Does
  rw [hexec, State.mgWrite_open h, hact]

/-! ### The headers of a lane are counted first (R97) -/

/-- Counting the headers of a lane changes its counts alone. -/
theorem State.headTake_lane (s : State) (n least : Nat) : (s.lane n).sameButCounts ((s.headTake n least).lane n) := by
  rcases s.headTake_settled n least with ⟨-, hsame⟩ | ⟨d, -, hd, -, -, hsettled⟩
  · rw [hsame]
    exact ⟨_, _, _, _, _, rfl⟩
  · rwa [hsettled.lane]

theorem Lane.sameButCounts.slip {l d : Lane} (h : l.sameButCounts d) :
    d.align.pend = l.align.pend ∧ d.align.queued = l.align.queued ∧ d.align.ofs = l.align.ofs := by
  obtain ⟨_, _, _, _, _, rfl⟩ := h
  exact ⟨rfl, rfl, rfl⟩

theorem State.headSettle_slip (s : State) (n : Nat) :
    ((s.headSettle n).lane n).align.pend = (s.lane n).align.pend ∧ ((s.headSettle n).lane n).align.queued = (s.lane n).align.queued ∧
      ((s.headSettle n).lane n).align.ofs = (s.lane n).align.ofs :=
  (s.headTake_lane n 0).slip

/-! ### Transmit equaliser (R103) -/

/-- A field of six bits at its place in a word. -/
theorem getLsbD_field (x : BitVec 6) (lo i : Nat) :
    (BitVec.ofNat 64 ((x.toNat % 2 ^ 6) <<< lo)).getLsbD i = (decide (i < 64) && (decide (lo ≤ i) && x.getLsbD (i - lo))) := by
  rw [Nat.mod_eq_of_lt x.isLt, BitVec.getLsbD_ofNat, Nat.testBit_shiftLeft, BitVec.testBit_toNat]

theorem Fir.word_eq (f : Fir) :
    f.word = 0 ||| BitVec.ofNat 64 ((f.pre.toNat % 2 ^ 6) <<< 12) ||| BitVec.ofNat 64 ((f.main.toNat % 2 ^ 6) <<< 6) |||
      BitVec.ofNat 64 ((f.post.toNat % 2 ^ 6) <<< 0) := rfl

/-- What TXEQ_APPLY writes: the fields `f`, and APPLY. -/
def Fir.applyWord (f : Fir) : Word := fields [(63, 1, 1)] ||| f.word

theorem Fir.applyWord_eq (f : Fir) : f.applyWord = BitVec.twoPow 64 63 ||| f.word := rfl

section
variable (f : Fir)

theorem Fir.applyWord_getLsbD {i : Nat} (hi : i < 63) :
    f.applyWord.getLsbD i =
      (decide (12 ≤ i) && f.pre.getLsbD (i - 12) || decide (6 ≤ i) && f.main.getLsbD (i - 6) || f.post.getLsbD i) := by
  rw [Fir.applyWord_eq, Fir.word_eq]
  simp only [BitVec.getLsbD_or, getLsbD_field, BitVec.getLsbD_twoPow]
  simp [show i < 64 by omega, show 63 ≠ i by omega]

@[simp] theorem Fir.applyWord_apply : bit f.applyWord 63 = true := by
  rw [Fir.applyWord_eq]
  simp [bit]

@[simp] theorem Fir.applyWord_pre : f.applyWord.extractLsb' 12 6 = f.pre := by
  refine BitVec.eq_of_getLsbD_eq fun i hi => ?_
  rw [BitVec.getLsbD_extractLsb', f.applyWord_getLsbD (by omega), f.post.getLsbD_of_ge _ (by omega), f.main.getLsbD_of_ge _ (by omega)]
  simp [-BitVec.getLsbD_eq_getElem, hi]

@[simp] theorem Fir.applyWord_main : f.applyWord.extractLsb' 6 6 = f.main := by
  refine BitVec.eq_of_getLsbD_eq fun i hi => ?_
  rw [BitVec.getLsbD_extractLsb', f.applyWord_getLsbD (by omega), f.post.getLsbD_of_ge _ (by omega)]
  simp [-BitVec.getLsbD_eq_getElem, hi, show ¬ 12 ≤ 6 + i by omega]

@[simp] theorem Fir.applyWord_post : f.applyWord.extractLsb' 0 6 = f.post := by
  refine BitVec.eq_of_getLsbD_eq fun i hi => ?_
  rw [BitVec.getLsbD_extractLsb', f.applyWord_getLsbD (by omega)]
  simp [-BitVec.getLsbD_eq_getElem, hi, show ¬ 12 ≤ i by omega, show ¬ 6 ≤ i by omega]

end

theorem exec_txeqApply (n : LaneId) (s : State) :
    exec (.txeqApply n) s = .next (s.mgWrite (laneBase n.val + 0x10) true (s.lane n.val).staged.applyWord fun t =>
      t.writeTxeq n.val (s.lane n.val).staged.applyWord) := rfl

/-- APPLY takes the staged coefficients if they meet R103, and else sets FIR_ERR. -/
theorem State.writeTxeq_apply (s : State) (n : Nat) :
    s.writeTxeq n (s.lane n).staged.applyWord =
      s.setLane n (if (s.lane n).staged.ok then { s.lane n with cur := (s.lane n).staged, firErr := false }
        else { s.lane n with firErr := true }) := by
  unfold State.writeTxeq State.modLane
  simp

theorem Fir.ok_iff (f : Fir) :
    f.ok = true ↔ f.pre.toNat + f.main.toNat + f.post.toNat ≤ 63 ∧ 8 + f.pre.toNat + f.post.toNat ≤ f.main.toNat :=
  decide_eq_true_iff

/-! ### Bit slip (R96) -/

section
variable {s : State} {n : Nat}

theorem State.doSlip_refused (h : ¬ (s.laneState n = 1 ∨ s.laneState n = 2)) :
    s.doSlip n = (let u := s.headSettle n
      u.setLane n { u.lane n with align := { (u.lane n).align with rej := true } }) := by
  unfold State.doSlip State.modLane
  dsimp only
  rw [if_pos h]

/-- On a row that carries slips out, SLIP begins one or is queued. -/
theorem State.doSlip_taken (h : s.laneState n = 1 ∨ s.laneState n = 2) :
    s.doSlip n = (let u := s.headSettle n
      u.setLane n { u.lane n with
        align := if (s.lane n).align.pend then { (u.lane n).align with queued := (s.lane n).align.queued + 1, rej := false }
          else { (u.lane n).align with pend := true, rej := false, counting := false } }) := by
  obtain ⟨hpend, hqueued, -⟩ := s.headSettle_slip n
  unfold State.doSlip State.modLane
  dsimp only
  rw [if_neg (not_not_intro h), hpend, hqueued]

theorem State.slipDone_none (h : (s.lane n).align.pend = false) :
    s.slipDone n = (s.headSettle n).setLane n ((s.headSettle n).lane n) := by
  obtain ⟨hpend, -⟩ := s.headSettle_slip n
  unfold State.slipDone State.modLane
  dsimp only
  rw [hpend, h]
  rfl

/-- A pending slip ends with the boundary moved by a bit; a queued one begins, or is refused. -/
theorem State.slipDone_moves (h : (s.lane n).align.pend = true) :
    s.slipDone n = (let u := s.headSettle n
      let a : Align := { (u.lane n).align.restart s.clk.up with ofs := (s.lane n).align.ofs + 1 }
      u.setLane n { u.lane n with
        align := if (s.lane n).align.queued = 0 then { a with pend := false, clearPend := false }
          else if s.laneState n = 1 ∨ s.laneState n = 2 then { a with queued := (s.lane n).align.queued - 1 }
          else { a with pend := false, clearPend := false, queued := 0, rej := true } }) := by
  obtain ⟨hpend, hqueued, hofs⟩ := s.headSettle_slip n
  unfold State.slipDone State.modLane Align.restart
  dsimp only
  rw [hpend, h, hqueued, hofs]
  split
  · contradiction
  · split
    · rfl
    · split <;> rfl

theorem State.doClearWin_eq (s : State) (n : Nat) :
    s.doClearWin n = (let u := s.headSettle n
      u.setLane n { u.lane n with
        align := if (s.lane n).align.pend then { (u.lane n).align with clearPend := true } else (u.lane n).align.restart s.clk.up }) := by
  obtain ⟨hpend, -⟩ := s.headSettle_slip n
  unfold State.doClearWin State.modLane
  dsimp only
  rw [hpend]

end

theorem exec_slip (n : LaneId) (s : State) :
    exec (.slip n) s =
      .next (s.mgWrite (laneBase n.val + 0x50) true (BitVec.ofNat 64 (2 ^ 63)) fun s => s.doSlip n.val) := rfl

theorem exec_clear (n : LaneId) (s : State) :
    exec (.clear n) s =
      .next (s.mgWrite (laneBase n.val + 0x50) true (BitVec.ofNat 64 (2 ^ 62)) fun s => s.doClearWin n.val) := rfl

/-! ### Header windows (R97) -/

theorem State.windowDone_none {s : State} {n : Nat} (h : (s.lane n).align.counting = false ∨ (s.lane n).align.pend = true ∨
    s.laneHears n = false) (bad : Fin 1025) : s.windowDone n bad = s := by
  unfold State.windowDone
  refine if_pos ?_
  rcases h with h | h | h <;> simp [h]

/-- A window that counts ends with 1,024 headers; the invalid ones not counted yet count in HDR_ERR. -/
theorem State.windowDone_ends {s : State} {n : Nat} (hcount : (s.lane n).align.counting = true) (hpend : (s.lane n).align.pend = false)
    (hhears : s.laneHears n = true) (bad : Fin 1025) :
    s.windowDone n bad =
      (let b := (s.lane n).align.badOf bad.val
       let u := s.setLane n { s.lane n with
         align := { (s.lane n).align with counting := false, done := true, good := BitVec.ofNat 11 (1024 - b), bad := BitVec.ofNat 11 b }
         noteWin := [], hdrFrom := s.clk.up }
       (u.headerMore n (b - (s.lane n).align.bad.toNat)).noteAll (s.lane n).noteWin) := by
  unfold State.windowDone
  exact if_neg (by simp [hcount, hpend, hhears])

/-! ### The obligation -/

/-- Settles O12: each clause is one outcome of the equaliser, of a slip or of a window. -/
theorem laneAlignment : Obligations.LaneAlignment := by
  unfold Obligations.LaneAlignment
  refine ⟨fun n s hopen => ⟨fun hok => ?applied, fun hbad => ?firErr⟩, fun n s => ⟨fun hopen hrow => ?refused,
      fun hopen hrow hpend => ?begins, fun hopen hrow hpend => ?queued, fun hpend hqueued => ?ends,
      fun q hpend hqueued => ⟨fun hrow => ?goesOn, fun hrow => ?drops⟩,
      fun hpend => does_of_eq rfl (State.slipDone_none hpend), fun hopen hpend => ?clears, fun hopen hpend => ?clearsLater⟩,
    fun n s hhears hcount hpend _ => ?settles, fun n bad s hcount hpend hhears => ?window,
    fun n bad s h => does_of_eq rfl (State.windowDone_none h bad)⟩
  case applied =>
    refine answers_of_mgWrite hopen (exec_txeqApply n s) ((s.writeTxeq_apply n.val).trans ?_)
    rw [if_pos ((Fir.ok_iff _).mpr hok)]
  case firErr =>
    refine answers_of_mgWrite hopen (exec_txeqApply n s) ((s.writeTxeq_apply n.val).trans ?_)
    rw [if_neg (mt (Fir.ok_iff _).mp hbad)]
  case refused => exact answers_of_mgWrite hopen (exec_slip n s) (State.doSlip_refused hrow)
  case begins =>
    refine answers_of_mgWrite hopen (exec_slip n s) ((State.doSlip_taken hrow).trans ?_)
    simp [hpend]
  case queued =>
    refine answers_of_mgWrite hopen (exec_slip n s) ((State.doSlip_taken hrow).trans ?_)
    simp [hpend]
  case ends =>
    refine does_of_eq rfl ((State.slipDone_moves hpend).trans ?_)
    simp [hqueued, Align.restart]
  case goesOn =>
    refine does_of_eq rfl ((State.slipDone_moves hpend).trans ?_)
    simp [hqueued, hrow, Align.restart]
  case drops =>
    refine does_of_eq rfl ((State.slipDone_moves hpend).trans ?_)
    simp [hqueued, hrow, Align.restart]
  case clears =>
    refine answers_of_mgWrite hopen (exec_clear n s) ((s.doClearWin_eq n.val).trans ?_)
    simp [hpend, Align.restart]
  case clearsLater =>
    refine answers_of_mgWrite hopen (exec_clear n s) ((s.doClearWin_eq n.val).trans ?_)
    simp [hpend]
  case settles =>
    obtain ⟨b, hb, hsettled⟩ := s.windowSettle_settled n.val hcount hpend hhears
    refine ⟨b, hb, ?_, fun m hm => hsettled.lane_ne hm⟩
    rw [hsettled.lane]
    simp [BitVec.ofNat_add]
  case window => exact does_of_eq rfl (State.windowDone_ends hcount hpend hhears bad)

end Sys2Proof.Machine
end

section
/-! SUPPORT. What counting headers leaves of a lane and of its crossing, the locks of a lane, adaptation, and FEC codewords (R95, R98 to
R101, R105, R106), with the obligation about them. -/

namespace Sys2Proof.Machine
open Sys2Proof.Safety

/-! ### Invalid headers that are known (R95, R97) -/

section
variable {s : State} {n : Nat}

theorem State.headTake_active (s : State) (n least : Nat) : ((s.headTake n least).lane n).active = (s.lane n).active := by
  obtain ⟨_, _, _, _, _, h⟩ := s.headTake_lane n least
  rw [h]

theorem State.headTake_hdrErr (h : s.laneHears n = true) (least : Nat) :
    ∃ j, least ≤ j ∧ ((s.headTake n least).lane n).hdrErr = satAdd (s.lane n).hdrErr j := by
  rcases s.headTake_settled n least with ⟨hdeaf, -⟩ | ⟨d, j, -, hj, hd, hsettled⟩
  · exact absurd (hdeaf.symm.trans h) Bool.false_ne_true
  · exact ⟨j, hj, by rw [hsettled.lane, hd]⟩

/-- A window with room for them counts the known invalid headers. -/
theorem State.headTake_bad {least : Nat} (h : s.laneHears n = true) (hcount : (s.lane n).align.counting = true)
    (hpend : (s.lane n).align.pend = false) (hroom : (s.lane n).align.good.toNat + (s.lane n).align.bad.toNat + least ≤ 1023) :
    (s.lane n).align.bad.toNat + least ≤ ((s.headTake n least).lane n).align.bad.toNat := by
  obtain ⟨b, hleast, hmost, hsettled⟩ := s.windowTake_settled n least hcount hpend h
  have htake : s.headTake n least = (s.windowTake n least).modLane n fun l => { l with hdrFrom := s.clk.up } := by
    unfold State.headTake
    simp [h, hcount, hpend]
  rw [htake, State.modLane, State.lane_setLane, hsettled.lane]
  simp only [BitVec.toNat_add, BitVec.toNat_ofNat]
  omega

theorem State.headTake_counted (s : State) (n least : Nat) : CountedAt n s (s.headTake n least) := by
  unfold State.headTake
  dsimp only
  split
  · exact .refl n s
  · split
    · exact (s.windowTake_counted n least).congr_right rfl
    · exact (State.headerMore_counted _ n _).congr_left rfl

/-- Counted events leave a crossing in reset or out of it. -/
theorem CountedAt.inReset {k : Nat} {s t : State} (h : CountedAt k s t) :
    (t.xings.get {} k).inReset = (s.xings.get {} k).inReset := by
  have hcore : (t.xings.get {} k).core = (s.xings.get {} k).core := h.side true
  have hclk : (t.xings.get {} k).clk = (s.xings.get {} k).clk := h.side false
  rw [Xing.inReset, hcore, hclk]
  rfl

theorem State.headTake_laneCut (s : State) (n least : Nat) : (s.headTake n least).laneCut false n = s.laneCut false n :=
  (s.headTake_counted n least).inReset

/-! ### Loss of a lane (R95, R106) -/

theorem State.laneLoss_eq (s : State) (n : Nat) :
    s.laneLoss n = if (s.lane n).active = true ∧ s.laneCut false n = false then
      ((s.crossKey n .lockLoss 1).modTrain (n / 4) fun t => { t with loss := true }).raise srcLaneLoss else s := by
  unfold State.laneLoss
  simp only [Bool.and_eq_true, Bool.not_eq_true']

/-- Lane `n` without block lock, and without the run of training blocks that it was in. -/
def State.blockUnlocked (s : State) (n : Nat) : State := s.setLane n { s.lane n with blk := false, train := (s.lane n).train.unlocked }

theorem State.blockUnlocked_laneHears (s : State) (n : Nat) : (s.blockUnlocked n).laneHears n = s.laneHears n := by
  simp [State.blockUnlocked, State.laneHears, State.laneCut]

theorem State.blockUnlocked_lane (s : State) (n : Nat) :
    (s.blockUnlocked n).lane n = { s.lane n with blk := false, train := (s.lane n).train.unlocked } := s.lane_setLane n _

theorem State.blockLoss_none (h : (s.lane n).blk = false) : s.blockLoss n = s := by
  unfold State.blockLoss
  simp [h]

/-- The headers that broke block lock count, and an active lane whose crossing is out of reset reports its loss. -/
theorem State.blockLoss_locked (h : (s.lane n).blk = true) :
    s.blockLoss n = (let u := (s.blockUnlocked n).headTake n 16
      if (s.lane n).active = true ∧ s.laneCut false n = false then
        ((u.crossKey n .lockLoss 1).modTrain (n / 4) fun t => { t with loss := true }).raise srcLaneLoss
      else u) := by
  have hloss : s.blockLoss n = ((s.blockUnlocked n).headTake n 16).laneLoss n := by
    unfold State.blockLoss
    exact if_neg (by simp [h])
  rw [hloss, State.laneLoss_eq, State.headTake_active, State.headTake_laneCut, State.blockUnlocked_lane]
  rfl

theorem State.cdrLoss_none (h : (s.lane n).cdr = false) : s.cdrLoss n = s := by
  unfold State.cdrLoss
  simp [h]

/-- Lane `n` after a loss of clock recovery: both locks have fallen, checks have ended, the loss of an active lane is reported, and the
receive crossing is in reset. -/
def State.cdrLost (s : State) (n : LaneId) : State :=
  let v := ((s.headSettle n.val).prbsUnlock n.val).modLane n.val fun l => { l with cdr := false, blk := false, train := l.train.unlocked }
  let w := v.scanCut n.val
  let x := if (w.lane n.val).active = true ∧ w.laneCut false n.val = false then
      ((w.crossKey n.val .lockLoss 1).modTrain (n.val / 4) fun t => { t with loss := true }).raise srcLaneLoss
    else w
  x.xingRequest (.laneRx n) false

theorem State.cdrLoss_locked {s : State} {n : LaneId} (h : (s.lane n.val).cdr = true) :
    s.cdrLoss n.val =
      if ((s.lane n.val).active &&
          ((List.range 4).map fun j => (s.cdrLost n).lane (n.val / 4 * 4 + j)).all fun l => !l.active || !l.cdr) = true then
        (s.cdrLost n).failLink (n.val / 4)
      else s.cdrLost n := by
  have hlane : Fin.ofNat 96 n.val = n := Fin.ofNat_val_eq_self n
  unfold State.cdrLoss State.cdrLost
  dsimp only
  rw [if_neg (by simp [h]), hlane, State.laneLoss_eq]

theorem State.cdrLoss_inactive {s : State} {n : LaneId} (h : (s.lane n.val).cdr = true) (hactive : (s.lane n.val).active = false) :
    s.cdrLoss n.val = s.cdrLost n := by
  rw [State.cdrLoss_locked h, hactive, Bool.false_and]
  rfl

/-- An active lane that was the last one of its link fails the link. -/
theorem State.cdrLoss_active {s : State} {n : LaneId} (h : (s.lane n.val).cdr = true) (hactive : (s.lane n.val).active = true) :
    s.cdrLoss n.val =
      if ((List.range 4).map fun j => (s.cdrLost n).lane (n.val / 4 * 4 + j)).all fun l => !l.active || !l.cdr then
        (s.cdrLost n).failLink (n.val / 4)
      else s.cdrLost n := by
  rw [State.cdrLoss_locked h, hactive, Bool.true_and]

/-! ### Adaptation (R105) -/

theorem State.adapted_taken (h : (s.lane n).adapt = true ∨ (s.lane n).grading = true) (rx : Adapted) :
    s.adapted n rx = s.setLane n { s.lane n with
      adaptDone := true, grading := false, rx := rx
      eye := { (s.lane n).eye with shift := (s.lane n).eye.shift || tapsMoved (s.lane n).rx rx } } := by
  unfold State.adapted State.modLane
  dsimp only
  rw [if_pos (Bool.or_eq_true_iff.mpr h)]

theorem State.adapted_holds (hadapt : (s.lane n).adapt = false) (hgrading : (s.lane n).grading = false) (rx : Adapted) :
    s.adapted n rx = s.setLane n (s.lane n) := by
  unfold State.adapted State.modLane
  dsimp only
  rw [if_neg (by simp [hadapt, hgrading])]

end

/-! ### FEC codewords (R98 to R101) -/

section
variable {s : State} {k : Nat} {blocks : List (BitVec 66)} {syms : List (BitVec 10)}

theorem State.codewordRx_none (h : s.decodeWord k blocks syms = none ∨ s.carriesFrames k = false ∨ s.linkCut false k = true) :
    s.codewordRx k blocks syms = s := by
  unfold State.codewordRx
  rcases h with h | h
  · rw [h]
    exact ite_self s
  · exact if_pos h

theorem State.codewordRx_taken {c : Line} {fixes : Option (List Nat)} (hframes : s.carriesFrames k = true)
    (hcut : s.linkCut false k = false) (h : s.decodeWord k blocks syms = some (c, fixes)) :
    s.codewordRx k blocks syms = (s.takeLine k c).codeword k fixes := by
  unfold State.codewordRx
  rw [h]
  exact if_neg (by simp [hframes, hcut])

/-- A class takes codewords of its own form alone. -/
theorem State.decodeWord_none (hblocks : (s.link k).fec.cur ≠ 1 ∨ blocks.length ≠ 33)
    (hsyms : (s.link k).fec.cur ≠ 2 ∨ syms.length ≠ 544) : s.decodeWord k blocks syms = none := by
  unfold State.decodeWord
  dsimp only
  rw [if_neg (by simpa only [not_and_or] using hblocks), if_neg (by simpa only [not_and_or] using hsyms)]

theorem Settled.links {s t : State} {n : Nat} {d : Lane} (h : Settled s t n d) : t.links = s.links := by
  obtain ⟨_, _, _, _, _, _, rfl⟩ := h
  rfl

theorem State.headerMore_links (s : State) (n k : Nat) : (s.headerMore n k).links = s.links := by
  unfold State.headerMore
  split
  · rfl
  · exact (s.headerErrs_settled n k).links

/-- The stream of a link moves on, and no link changes. -/
theorem State.takeLine_link (s : State) (k : Nat) (c : Line) (j : Nat) : (s.takeLine k c).link j = s.link j := by
  have hlinks : (s.takeLine k c).links = s.links :=
    forEach_preserves (P := fun t => t.links = s.links) (fun _ t h => (t.headerMore_links _ _).trans h) _ rfl
  exact congrArg (fun l => Tab.get ({} : Link) l j) hlinks

/-- An uncorrectable codeword is counted, also in the run of them. -/
theorem State.codeword_bad (h : (s.link k).fec.run < 7) :
    s.codeword k none =
      s.modLink k fun l => { l with fec := { l.fec with uncorr := satAdd l.fec.uncorr 1, run := (s.link k).fec.run + 1 } } := by
  have hrun : ((s.link k).fec.run + 1) % 8 = (s.link k).fec.run + 1 := Nat.mod_eq_of_lt (by omega)
  unfold State.codeword State.modLink
  dsimp only
  rw [if_neg (by omega), hrun]

/-- The eighth of a run fails the link. -/
theorem State.codeword_bad_eighth (h : (s.link k).fec.run = 7) :
    s.codeword k none =
      (s.modLink k fun l => { l with fec := { l.fec with uncorr := satAdd l.fec.uncorr 1, run := 0 } }).failLink k := by
  unfold State.codeword State.modLink
  dsimp only
  rw [if_pos h, h]

end

/-- An F1 codeword as it is sent leaves no remainder. -/
theorem f1Syndrome_sent (w base : Nat) {l : List (List Bool)} (h : l.length = 32) : f1Syndrome w base (l ++ [f1Parity w base l]) = 0 := by
  have hparity : (l ++ [f1Parity w base l]).getD 32 [] = f1Parity w base l := by simp [h]
  unfold f1Syndrome
  rw [f1Message_append w base l _ h, hparity]
  exact f1Rem_parity (f1Message w base l)

theorem f1Decode_sent (w base : Nat) {l : List (List Bool)} (h : l.length = 32) :
    f1Decode w base (l ++ [f1Parity w base l]) = some (l ++ [f1Parity w base l], []) :=
  if_pos (f1Syndrome_sent w base h)

/-! ### The obligation -/

/-- Settles O13: each clause is one outcome of a lock, of adaptation or of a codeword. -/
theorem laneLocksAndCodewords : Obligations.LaneLocksAndCodewords := by
  unfold Obligations.LaneLocksAndCodewords
  refine ⟨fun n s => ⟨rfl, rfl, fun hblk => ⟨fun h => ?unreported, fun hactive hcut => ?reported, fun hhears => ?errors,
      fun hhears hcount hpend hroom => ?window⟩, fun hblk => does_of_eq rfl (State.blockLoss_none hblk),
      fun hcdr => ⟨fun hactive => does_of_eq rfl (State.cdrLoss_inactive hcdr hactive),
        fun hactive => does_of_eq rfl (State.cdrLoss_active hcdr hactive)⟩, fun hcdr => does_of_eq rfl (State.cdrLoss_none hcdr),
      fun rx h => does_of_eq rfl (State.adapted_taken h rx),
      fun rx hadapt hgrading => does_of_eq rfl (State.adapted_holds hadapt hgrading rx)⟩,
    fun k blocks syms c s hframes hcut => ⟨fun hdec => ⟨fun hrun => ?counted, fun hrun => ?fails⟩,
      fun fixes f hdec hf => ?corrected⟩,
    fun k blocks syms s h => does_of_eq rfl (State.codewordRx_none h), fun k blocks syms s => State.decodeWord_none,
    descramble_scramble, fun w base l => f1Decode_sent w base⟩
  case unreported =>
    refine does_of_eq rfl ((State.blockLoss_locked hblk).trans (if_neg fun ⟨hactive, hcut⟩ => ?_))
    rcases h with h | h
    · exact Bool.false_ne_true (h.symm.trans hactive)
    · exact Bool.false_ne_true (hcut.symm.trans h)
  case reported => exact does_of_eq rfl ((State.blockLoss_locked hblk).trans (if_pos ⟨hactive, hcut⟩))
  case errors =>
    obtain ⟨j, hj, herr⟩ := State.headTake_hdrErr ((s.blockUnlocked_laneHears n.val).trans hhears) 16
    rw [State.blockUnlocked_lane] at herr
    exact ⟨j, hj, herr⟩
  case window =>
    have hlane := s.blockUnlocked_lane n.val
    have hbad := State.headTake_bad (s := s.blockUnlocked n.val) (least := 16) ((s.blockUnlocked_laneHears n.val).trans hhears)
      (by rw [hlane]; exact hcount) (by rw [hlane]; exact hpend) (by rw [hlane]; exact hroom)
    rw [hlane] at hbad
    exact hbad
  case counted =>
    rw [← s.takeLine_link k.val c] at hrun ⊢
    exact does_of_eq rfl ((State.codewordRx_taken hframes hcut hdec).trans (State.codeword_bad hrun))
  case fails =>
    rw [← s.takeLine_link k.val c] at hrun
    exact does_of_eq rfl ((State.codewordRx_taken hframes hcut hdec).trans (State.codeword_bad_eighth hrun))
  case corrected =>
    subst hf
    exact does_of_eq rfl (State.codewordRx_taken hframes hcut hdec)

end Sys2Proof.Machine
end

section
/-! SUPPORT. Eye scans, and the PRBS generator and checker of a lane (R108 to R112), outcome by outcome, with the obligation about
them. -/

namespace Sys2Proof.Machine
open Sys2Proof.Safety

/-! ### Eye scans (R108, R109) -/

section
variable {s : State} {n : Nat}

theorem State.doScan_busy (h : (s.lane n).eye.busy = true) : s.doScan n = s := if_pos h

theorem State.doScan_invalid (h : (s.lane n).eye.busy = false)
    (hset : (s.lane n).eye.eye = 3 ∨ (s.lane n).grade = 0 ∧ (s.lane n).eye.eye ≠ 1) :
    s.doScan n = s.scanEnd n true (s.lane n).eye.errs false := by
  unfold State.doScan
  dsimp only
  rw [if_neg (by simp [h]), if_pos hset]

theorem State.doScan_begins (h : (s.lane n).eye.busy = false) (heye : (s.lane n).eye.eye ≠ 3)
    (hmiddle : (s.lane n).grade = 0 → (s.lane n).eye.eye = 1) :
    s.doScan n = s.setLane n { s.lane n with
      eye := { (s.lane n).eye with busy := true, done := false, invalid := false, moved := false
                                   ran := (s.lane n).adapt || (s.lane n).grading, shift := false
                                   runEye := (s.lane n).eye.eye, runDwell := (s.lane n).eye.dwell
                                   runPhase := (s.lane n).eye.phase, runVofs := (s.lane n).eye.vofs } } := by
  have hvalid : ¬ ((s.lane n).eye.eye = 3 ∨ (s.lane n).grade = 0 ∧ (s.lane n).eye.eye ≠ 1) :=
    not_or.mpr ⟨heye, fun ⟨hgrade, hother⟩ => hother (hmiddle hgrade)⟩
  unfold State.doScan
  dsimp only
  rw [if_neg (by simp [h]), if_neg hvalid]

theorem State.scanDone_idle (h : (s.lane n).eye.busy = false) (errs : BitVec 32) (moved : Bool) : s.scanDone n errs moved = s :=
  if_neg (by simp [h])

theorem State.scanDone_ends (h : (s.lane n).eye.busy = true) (errs : BitVec 32) (moved : Bool) :
    s.scanDone n errs moved = s.scanEnd n false errs ((s.lane n).eye.movedBy moved) := if_pos h

end

theorem exec_eyeScanStart (n : LaneId) (s : State) :
    exec (.eyeScanStart n) s = .next (s.mgWrite (laneBase n.val + 0x30) true (fields [(63, 1, 1)] ||| (s.lane n.val).eye.ctlWord)
      fun s => s.doScan n.val) := rfl

/-! ### PRBS (R110 to R112) -/

section
variable {s : State} {n : Nat} {p : PrbsSet}

/-- A generator's stream goes on unless the generator runs with a setting that has changed (R111). -/
theorem prbs_stream_goes_on_iff (p old : PrbsSet) : (!p.gen || decide (old = p)) = true ↔ ¬ (p.gen = true ∧ old ≠ p) := by
  simp [or_iff_not_imp_left]

/-- On a TEST row, or with both parts off, a setting with a pattern of Table 4.14 is taken. -/
theorem State.writePrbsSet_taken (hrow : s.laneState n = 2 ∨ (p.gen || p.chk) = false) (hpattern : p.pattern.toNat < 6) :
    s.writePrbsSet n p =
      (let u := if p.chk then s else s.prbsUnlock n
       let v := if p.gen = true ∧ { (s.lane n).prbs.set with chk := p.chk } ≠ p then (u.emit (.prbs n p u.free)).drew else u
       v.modLane n fun l => { l with prbs := { l.prbs with set := p, rej := l.prbs.rej && !(p.gen || p.chk) } }) := by
  have htaken : (((p.gen || p.chk) && !decide (s.laneState n = 2)) || decide (6 ≤ p.pattern.toNat)) = false := by
    rw [decide_eq_false (Nat.not_le.mpr hpattern), Bool.or_false]
    rcases hrow with h | h <;> simp [h]
  have hrej (r : Bool) : (if (p.gen || p.chk) = true then false else r) = (r && !(p.gen || p.chk)) := by
    cases p.gen || p.chk <;> simp
  unfold State.writePrbsSet
  rw [htaken]
  simp only [Bool.false_eq_true, if_false, prbs_stream_goes_on_iff, ite_not, hrej]

theorem State.writePrbsSet_refused (h : ((p.gen || p.chk) = true ∧ s.laneState n ≠ 2) ∨ 6 ≤ p.pattern.toNat) :
    s.writePrbsSet n p =
      (s.prbsUnlock n).modLane n fun l => { l with prbs := { l.prbs with set := { p with gen := false, chk := false }, rej := true } } := by
  have hrefused : (((p.gen || p.chk) && !decide (s.laneState n = 2)) || decide (6 ≤ p.pattern.toNat)) = true := by
    simpa using h
  unfold State.writePrbsSet
  rw [hrefused]
  rfl

theorem State.injectOne_running (h : (s.lane n).prbs.set.gen = true) :
    s.injectOne n =
      (s.setLane n { s.lane n with prbs := { (s.lane n).prbs with inject := (s.lane n).prbs.inject + 1 } }).emit (.prbsFlip n) :=
  if_pos h

theorem State.injectOne_off (h : (s.lane n).prbs.set.gen = false) : s.injectOne n = s := if_neg (by simp [h])

theorem State.prbsLock_locks (hchk : (s.lane n).prbs.set.chk = true) (hcdr : (s.lane n).cdr = true) (hlock : (s.lane n).prbs.lock = false) :
    s.prbsLock n = s.setLane n { s.lane n with prbs := { (s.lane n).prbs with lock := true, since := s.clk.up, part := 0 } } :=
  congrArg (s.setLane n) (if_pos (by simp [hchk, hcdr, hlock]))

theorem State.prbsLock_none (h : (s.lane n).prbs.set.chk = false ∨ (s.lane n).cdr = false ∨ (s.lane n).prbs.lock = true) :
    s.prbsLock n = s.setLane n (s.lane n) :=
  congrArg (s.setLane n) (if_neg (by rcases h with h | h | h <;> simp [h]))

theorem State.prbsMiss_unlocked (h : (s.lane n).prbs.lock = false) : s.prbsMiss n = s := if_pos (by simp [h])

/-- A locked checker counts the errors that unlock it, and the bits up to them. -/
theorem State.prbsMiss_locked (h : (s.lane n).prbs.lock = true) :
    ∃ e, let k := max 32 ((s.lane n).prbsDue s.clk.up / 16)
      32 ≤ e ∧ e ≤ k ∧ s.prbsMiss n = (s.setLane n { s.lane n with
        prbs := { (s.lane n).prbs with lock := false, bits := (s.lane n).prbs.bits + k, errs := (s.lane n).prbs.errs + e
                                       since := s.clk.up } }).drew := by
  let k := max 32 ((s.lane n).prbsDue s.clk.up / 16)
  have hmore : s.free.toNat % (prbsMost (k - 32) + 1) ≤ k - 32 :=
    (Nat.lt_succ_iff.mp (Nat.mod_lt _ (Nat.succ_pos _))).trans (min_le_left _ _)
  have hk : 32 ≤ k := le_max_left _ _
  refine ⟨32 + s.free.toNat % (prbsMost (k - 32) + 1), Nat.le_add_right _ _, by omega, ?_⟩
  unfold State.prbsMiss
  dsimp only
  rw [if_neg (by simp [h]), ← Nat.add_assoc]

end

theorem exec_prbsEnable (n : LaneId) (w : PrbsSet) (s : State) :
    exec (.prbsEnable n w) s =
      .next (s.mgWrite (laneBase n.val + 0x40) true (prbsSetWord w) fun s => s.writePrbsSet n.val w) := rfl

theorem exec_injOne (n : LaneId) (s : State) :
    exec (.injOne n) s = .next (s.mgWrite (laneBase n.val + 0x40) true (fields [(63, 1, 1)] ||| prbsSetWord (s.lane n.val).prbs.set)
      fun s => s.injectOne n.val) := rfl

/-! ### The obligation -/

/-- Settles O14: each clause is one outcome of a scan, of the generator or of the checker. -/
theorem eyeScansAndPrbs : Obligations.EyeScansAndPrbs := by
  unfold Obligations.EyeScansAndPrbs
  refine ⟨fun n s => ⟨fun hopen hbusy => ?busy, fun hopen hbusy heye hmiddle => ?begins, fun hopen hbusy hset => ?invalid,
      fun errs moved hbusy => does_of_eq rfl (State.scanDone_ends hbusy errs moved),
      fun errs moved hbusy => does_of_eq rfl (State.scanDone_idle hbusy errs moved)⟩,
    fun n s => ⟨fun w hopen hrow hpattern => ?taken, fun w hopen h => ?refused, fun hopen hgen => ?inverts, fun hopen hgen => ?noStream,
      fun hchk hcdr hlock => congrArg Host.Outcome.next (State.prbsLock_locks hchk hcdr hlock),
      fun h => congrArg Host.Outcome.next (State.prbsLock_none h),
      fun hlock => congrArg Host.Outcome.next (State.prbsMiss_unlocked hlock), fun hlock => ?unlocks, fun hlock => ?settles⟩⟩
  case busy => exact answers_of_mgWrite hopen (exec_eyeScanStart n s) (State.doScan_busy hbusy)
  case begins => exact answers_of_mgWrite hopen (exec_eyeScanStart n s) (State.doScan_begins hbusy heye hmiddle)
  case invalid => exact answers_of_mgWrite hopen (exec_eyeScanStart n s) (State.doScan_invalid hbusy hset)
  case taken => exact answers_of_mgWrite hopen (exec_prbsEnable n w s) (State.writePrbsSet_taken hrow hpattern)
  case refused => exact answers_of_mgWrite hopen (exec_prbsEnable n w s) (State.writePrbsSet_refused h)
  case inverts => exact answers_of_mgWrite hopen (exec_injOne n s) (State.injectOne_running hgen)
  case noStream => exact answers_of_mgWrite hopen (exec_injOne n s) (State.injectOne_off hgen)
  case unlocks =>
    obtain ⟨e, hleast, hmost, hmiss⟩ := State.prbsMiss_locked hlock
    refine ⟨_, _, e, congrArg Host.Outcome.next hmiss, ?_, rfl, hleast, hmost, rfl, rfl, rfl⟩
    exact State.lane_setLane s n.val _
  case settles =>
    obtain ⟨e, hmost, hsettled⟩ := s.prbsSettle_settled n.val hlock
    exact ⟨e, hsettled.lane, hmost.trans (min_le_right _ _)⟩

end Sys2Proof.Machine
end

section
/-! SUPPORT. LNK_TRAIN_CTL (R117, R120, R135): the word that each of its commands writes, the outcome of the write field by field, and
the obligation about it. -/

namespace Sys2Proof.Machine
open Sys2Proof.Safety

/-! ### The word (Table 5.12) -/

/-- A word for LNK_TRAIN_CTL with these fields. -/
def trainCtl (enable retrain admitNow test : Bool) (cap : BitVec 2) : Word :=
  fields [(63, 1, b2n enable), (62, 1, b2n retrain), (61, 1, b2n admitNow), (60, 1, b2n test), (58, 2, cap.toNat)]

theorem trainCtl_fields : ∀ (e r a t : Bool) (c : BitVec 2),
    bit (trainCtl e r a t c) 63 = e ∧ bit (trainCtl e r a t c) 62 = r ∧ bit (trainCtl e r a t c) 61 = a ∧
      bit (trainCtl e r a t c) 60 = t ∧ (trainCtl e r a t c).extractLsb' 58 2 = c := by decide

theorem ctlFields_eq_trainCtl : ∀ (e t : Bool) (c : BitVec 2),
    fields [(63, 1, b2n e), (60, 1, b2n t), (58, 2, c.toNat)] = trainCtl e false false t c := by decide

theorem Train.ctlWord_eq (t : Train) : t.ctlWord = trainCtl t.enable false false t.test t.gradeCap :=
  ctlFields_eq_trainCtl _ _ _

theorem setBits_trainCtl_enable : ∀ (x e t : Bool) (c : BitVec 2),
    setBits (trainCtl e false false t c) 63 1 (b2n x) = trainCtl x false false t c := by decide

theorem setBits_trainCtl_retrain : ∀ (e t : Bool) (c : BitVec 2),
    setBits (trainCtl e false false t c) 62 1 1 = trainCtl e true false t c := by decide

theorem setBits_trainCtl_admit : ∀ (e t : Bool) (c : BitVec 2),
    setBits (trainCtl e false false t c) 61 1 1 = trainCtl e false true t c := by decide

theorem setBits_trainCtl_test : ∀ (x e t : Bool) (c : BitVec 2),
    setBits (trainCtl e false false t c) 60 1 (b2n x) = trainCtl e false false x c := by decide

/-! ### The write -/

section
variable (s : State) (k : Nat)

theorem State.modTrain_modTrain (f g : Train → Train) : (s.modTrain k f).modTrain k g = s.modTrain k fun t => g (f t) := by
  simp [State.modTrain, State.modLink]

theorem State.modTrain_setLink_same (f : Train → Train) : (s.setLink k (s.link k)).modTrain k f = s.modTrain k f :=
  s.modTrain_modTrain k (fun t => t) f

theorem State.downLink_setLink_same : (s.setLink k (s.link k)).downLink k = s.downLink k := by
  unfold State.downLink
  rw [State.modTrain_setLink_same, State.link_setLink]

theorem State.admitLink_setLink_same : (s.setLink k (s.link k)).admitLink k = s.admitLink k := by
  unfold State.admitLink State.modLink
  rw [State.link_setLink, State.setLink_setLink]

/-- A write of LNK_TRAIN_CTL with these fields, GRADE_CAP as it is. -/
def State.setTrainCtl (enable retrain admitNow test : Bool) : State :=
  s.writeTrainCtl k (trainCtl enable retrain admitNow test (s.link k).train.gradeCap)

/-- The fields act in this order. -/
theorem State.setTrainCtl_eq (e r a t : Bool) :
    s.setTrainCtl k e r a t =
      (let u := s.modTrain k fun x => { x with test := t, gradeCap := (s.link k).train.gradeCap }
       let v := if e && !(s.link k).train.enable then u.enableLink k
         else if !e && (s.link k).train.enable then (if u.fc.safe then u.modTrain k fun x => { x with enable := false } else u.downLink k)
         else u
       let w := if r then v.modTrain k fun x => { x with retrain := true } else v
       if a then w.admitLink k else w) := by
  obtain ⟨henable, hretrain, hadmit, htest, hcap⟩ := trainCtl_fields e r a t (s.link k).train.gradeCap
  unfold State.setTrainCtl State.writeTrainCtl
  rw [henable, hretrain, hadmit, htest, hcap]

/-- With every other field given back its present value, RETRAIN is kept. -/
theorem State.setTrainCtl_retrains :
    s.setTrainCtl k (s.link k).train.enable true false (s.link k).train.test =
      s.modTrain k fun t => { t with retrain := true } := by
  rw [State.setTrainCtl_eq]
  cases (s.link k).train.enable <;> exact s.modTrain_setLink_same k fun t => { t with retrain := true }

theorem State.setTrainCtl_admits :
    s.setTrainCtl k (s.link k).train.enable false true (s.link k).train.test = s.admitLink k := by
  rw [State.setTrainCtl_eq]
  cases (s.link k).train.enable <;> exact s.admitLink_setLink_same k

theorem State.setTrainCtl_test (x : Bool) :
    s.setTrainCtl k (s.link k).train.enable false false x = s.modTrain k fun t => { t with test := x } := by
  rw [State.setTrainCtl_eq]
  cases (s.link k).train.enable <;> rfl

end

section
variable {s : State} {k : Nat}

/-- Row 0 is entered with the retry counter and the cap cleared. -/
theorem State.enableLink_enters (hbar : s.barred k = false) (hsafe : s.fc.safe = false) :
    s.enableLink k = (s.modTrain k fun t => { t with enable := true, retry := 0, cap := 3 }).enterRow k 0 := by
  unfold State.enableLink
  rw [if_neg (Bool.eq_false_iff.mp hbar)]
  exact (if_neg (Bool.eq_false_iff.mp hsafe)).trans (congrArg (State.enterRow · k 0) (s.modTrain_modTrain k _ _))

theorem State.enableLink_noted (hbar : s.barred k = false) (hsafe : s.fc.safe = true) :
    s.enableLink k = s.modTrain k fun t => { t with enable := true } := by
  unfold State.enableLink
  rw [if_neg (Bool.eq_false_iff.mp hbar)]
  exact if_pos hsafe

theorem State.enableLink_barred (hbar : s.barred k = true) : s.enableLink k = s := if_pos hbar

theorem State.setTrainCtl_enables (h : (s.link k).train.enable = false) :
    s.setTrainCtl k true false false (s.link k).train.test = (s.setLink k (s.link k)).enableLink k := by
  rw [State.setTrainCtl_eq, h]
  rfl

theorem State.setTrainCtl_enters (h : (s.link k).train.enable = false) (hbar : s.barred k = false) (hsafe : s.fc.safe = false) :
    s.setTrainCtl k true false false (s.link k).train.test =
      (s.modTrain k fun t => { t with enable := true, retry := 0, cap := 3 }).enterRow k 0 := by
  rw [State.setTrainCtl_enables h, State.enableLink_enters (s := s.setLink k (s.link k)) hbar hsafe, State.modTrain_setLink_same]

theorem State.setTrainCtl_noted (h : (s.link k).train.enable = false) (hbar : s.barred k = false) (hsafe : s.fc.safe = true) :
    s.setTrainCtl k true false false (s.link k).train.test = s.modTrain k fun t => { t with enable := true } := by
  rw [State.setTrainCtl_enables h, State.enableLink_noted (s := s.setLink k (s.link k)) hbar hsafe, State.modTrain_setLink_same]

theorem State.setTrainCtl_barred (h : (s.link k).train.enable = false) (hbar : s.barred k = true) :
    s.setTrainCtl k true false false (s.link k).train.test = s.setLink k (s.link k) := by
  rw [State.setTrainCtl_enables h, State.enableLink_barred (s := s.setLink k (s.link k)) hbar]

theorem State.setTrainCtl_downs (h : (s.link k).train.enable = true) (hsafe : s.fc.safe = false) :
    s.setTrainCtl k false false false (s.link k).train.test = s.downLink k := by
  rw [State.setTrainCtl_eq, h]
  exact (if_neg (Bool.eq_false_iff.mp hsafe)).trans (s.downLink_setLink_same k)

theorem State.setTrainCtl_disables (h : (s.link k).train.enable = true) (hsafe : s.fc.safe = true) :
    s.setTrainCtl k false false false (s.link k).train.test = s.modTrain k fun t => { t with enable := false } := by
  rw [State.setTrainCtl_eq, h]
  exact (if_pos hsafe).trans (s.modTrain_setLink_same k _)

theorem State.admitLink_stranger (h : (s.link k).guest.verdict = .qUnexpected ∨ (s.link k).guest.verdict = .qWrongPeer) :
    s.admitLink k = s.setLink k { s.link k with
      guest := { (s.link k).guest with verdict := .admitted }
      train := { (s.link k).train with admitNow := true, admitRej := false } } :=
  congrArg (s.setLink k) (if_pos h)

theorem State.admitLink_refused (h : ¬ ((s.link k).guest.verdict = .qUnexpected ∨ (s.link k).guest.verdict = .qWrongPeer)) :
    s.admitLink k = s.setLink k { s.link k with train := { (s.link k).train with admitRej := true } } :=
  congrArg (s.setLink k) (if_neg h)

end

/-! ### The commands -/

/-- A command that changes one field of LNK_TRAIN_CTL has the effect of writing the word with that field changed. -/
theorem answers_of_trainCtlRow {c : Instr} {s t : State} {k : Nat} {f : Word → Word} {e r a u : Bool} (hopen : Open s)
    (hexec : exec c s = .next (s.trainCtlRow k f))
    (hword : f (trainCtl (s.link k).train.enable false false (s.link k).train.test (s.link k).train.gradeCap) =
      trainCtl e r a u (s.link k).train.gradeCap)
    (heffect : s.setTrainCtl k e r a u = t) : Answers c s t := by
  refine answers_of_mgWrite hopen hexec ?_
  rw [Train.ctlWord_eq, hword]
  exact heffect

theorem exec_enable (k : LinkId) (s : State) : exec (.enable k) s = .next (s.trainCtlRow k.val fun v => setBits v 63 1 1) := rfl
theorem exec_linkDisable (k : LinkId) (s : State) :
    exec (.linkDisable k) s = .next (s.trainCtlRow k.val fun v => setBits v 63 1 0) := rfl
theorem exec_retrain (k : LinkId) (s : State) : exec (.retrain k) s = .next (s.trainCtlRow k.val fun v => setBits v 62 1 1) := rfl
theorem exec_admitGuest (k : LinkId) (s : State) : exec (.admitGuest k) s = .next (s.trainCtlRow k.val fun v => setBits v 61 1 1) := rfl
theorem exec_test (k : LinkId) (on : Bool) (s : State) :
    exec (.test k on) s = .next (s.trainCtlRow k.val fun v => setBits v 60 1 (b2n on)) := rfl

/-- Settles O15: each command writes one field, and each clause is one outcome of that field. -/
theorem trainControl : Obligations.TrainControl := by
  unfold Obligations.TrainControl
  intro k s hopen
  have henable {u} := answers_of_trainCtlRow (t := u) hopen (exec_enable k s) (setBits_trainCtl_enable true _ _ _)
  have hdisable {u} := answers_of_trainCtlRow (t := u) hopen (exec_linkDisable k s) (setBits_trainCtl_enable false _ _ _)
  have hadmit {u} (hu : s.admitLink k.val = u) : Answers (.admitGuest k) s u :=
    answers_of_trainCtlRow hopen (exec_admitGuest k s) (setBits_trainCtl_admit _ _ _) ((s.setTrainCtl_admits k.val).trans hu)
  refine ⟨fun h hbar hsafe => henable (State.setTrainCtl_enters h hbar hsafe),
    fun h hbar hsafe => henable (State.setTrainCtl_noted h hbar hsafe), fun h hbar => henable (State.setTrainCtl_barred h hbar),
    fun h hsafe => hdisable (State.setTrainCtl_downs h hsafe), fun h hsafe => hdisable (State.setTrainCtl_disables h hsafe),
    ?retrain, fun h => hadmit (State.admitLink_stranger h), fun h => hadmit (State.admitLink_refused h), fun on => ?test⟩
  case retrain => exact answers_of_trainCtlRow hopen (exec_retrain k s) (setBits_trainCtl_retrain _ _ _) (s.setTrainCtl_retrains k.val)
  case test => exact answers_of_trainCtlRow hopen (exec_test k on s) (setBits_trainCtl_test on _ _ _) (s.setTrainCtl_test k.val on)

end Sys2Proof.Machine
end

section
/-! SUPPORT. Training rows and their timeouts, the ends of the eye check and of a step, training blocks and equaliser requests (R118,
R119, R121 to R124, R127), outcome by outcome, with the obligation about them. -/

namespace Sys2Proof.Machine
open Sys2Proof.Safety

/-! ### Rows (R118, R119, R124) -/

/-- The link with the latches of row `r`'s condition cleared, and a free value used where the link stands on a WIDTH row that is not
the one to act. -/
def State.rowBegun (s : State) (k r : Nat) : State :=
  let w := s.trainRow k r
  let v := s.modTrain k fun t => t.acted (rowCond w)
  if rowAction w ≠ 4 && (v.standsOn k).any fun i => decide (rowAction (v.trainRow k i) = 4) then v.drew else v

theorem State.rowBegun_eq (s : State) (k r : Nat) :
    s.rowBegun k r =
      (let w := s.trainRow k r
       let v := s.modTrain k fun t => t.acted (rowCond w)
       if rowAction w ≠ 4 ∧ ((v.standsOn k).any fun i => decide (rowAction (v.trainRow k i) = 4)) = true then v.drew else v) := by
  unfold State.rowBegun
  simp only [Bool.and_eq_true, decide_eq_true_eq]

section
variable {s u : State} {k r : Nat}

theorem State.actRow_action (hu : s.rowBegun k r = u) (haction : rowAction (s.trainRow k r) ≠ 9) :
    s.actRow k r = (u.doAction k (rowAction (s.trainRow k r)) (rowArg (s.trainRow k r))).enterRow k (rowNext (s.trainRow k r)) := by
  subst hu
  exact if_pos haction

theorem State.actRow_up (hu : s.rowBegun k r = u) (haction : rowAction (s.trainRow k r) = 9)
    (hfec : (u.link k).train.farFec = (u.link k).fec.req) : s.actRow k r = (u.doUp k).enterRow k (rowNext (s.trainRow k r)) := by
  subst hu
  exact (if_neg (not_not_intro haction)).trans (if_pos hfec)

/-- UP is not performed: CAUSE 5, and the FAILED row, where the table has one (R124). -/
def State.upRefused (s : State) (k : Nat) : State :=
  let x := s.modTrain k fun t => { t with cause := 5 }
  match x.failedRow k with
  | some f => x.enterRow k f
  | none => x

theorem State.upRefused_enters {f : Nat} (h : (s.modTrain k fun t => { t with cause := 5 }).failedRow k = some f) :
    s.upRefused k = (s.modTrain k fun t => { t with cause := 5 }).enterRow k f := by
  unfold State.upRefused
  dsimp only
  rw [h]

theorem State.upRefused_stays (h : (s.modTrain k fun t => { t with cause := 5 }).failedRow k = none) :
    s.upRefused k = s.modTrain k fun t => { t with cause := 5 } := by
  unfold State.upRefused
  dsimp only
  rw [h]

theorem State.actRow_otherFec (hu : s.rowBegun k r = u) (haction : rowAction (s.trainRow k r) = 9)
    (hfec : (u.link k).train.farFec ≠ (u.link k).fec.req) : s.actRow k r = u.upRefused k := by
  subst hu
  exact (if_neg (not_not_intro haction)).trans (if_neg hfec)

theorem State.trainStep_acts (htrains : s.trains k = true) (h : s.satisfied k = some r) : s.trainStep k = s.actRow k r := by
  unfold State.trainStep
  rw [if_neg (by simp [htrains]), h]

theorem State.trainStep_stays (htrains : s.trains k = true) (h : s.satisfied k = none) : s.trainStep k = s := by
  unfold State.trainStep
  rw [if_neg (by simp [htrains]), h]

/-! ### Timeouts (R119) -/

/-- The lead row of link `k` has a timeout, and it has expired. -/
def State.rowExpired (s : State) (k : Nat) : Prop :=
  let w := s.trainRow k (s.link k).train.row.toNat
  rowCount w ≠ 0 ∧ (s.link k).train.entered + rowTimeout w ≤ s.clk.act

theorem State.trainTimeout_acts (htrains : s.trains k = true) (hexp : s.rowExpired k) (h : s.satisfied k = some r) :
    s.trainTimeout k = s.actRow k r := by
  obtain ⟨hcount, htime⟩ := hexp
  unfold State.trainTimeout
  rw [if_neg (by simpa [htrains, hcount] using htime), h]

theorem State.trainTimeout_enters (htrains : s.trains k = true) (hexp : s.rowExpired k) (h : s.satisfied k = none) :
    s.trainTimeout k = s.enterRow k (rowTmoNext (s.trainRow k (s.link k).train.row.toNat)) := by
  obtain ⟨hcount, htime⟩ := hexp
  unfold State.trainTimeout
  rw [if_neg (by simpa [htrains, hcount] using htime), h]

theorem State.trainTimeout_early (h : ¬ s.rowExpired k) : s.trainTimeout k = s := by
  refine if_pos ?_
  simp only [Bool.or_eq_true, decide_eq_true_eq, Bool.not_eq_true']
  by_cases hcount : rowCount (s.trainRow k (s.link k).train.row.toNat) = 0
  · exact .inl (.inr hcount)
  · exact .inr (Nat.lt_of_not_le fun htime => h ⟨hcount, htime⟩)

theorem State.admits_running (h : s.admits = true) : s.running = true := (Bool.and_eq_true_iff.mp h).1

/-- While transactions are admitted the count of activity runs. -/
theorem State.passNs_act (h : s.admits = true) (dt : Nat) : (s.passNs dt).clk.act = s.clk.act + 5 * dt := by
  have hhold : s.pins.hold = false := by simpa using (Bool.and_eq_true_iff.mp h).2
  have hrun := State.admits_running h
  simp [State.passNs, State.pass, State.running_curfew hrun, State.running_safe hrun, hhold]

theorem State.passNs_rowExpired (h : s.admits = true) (dt : Nat) :
    (s.passNs dt).rowExpired k ↔
      (let w := s.trainRow k (s.link k).train.row.toNat
       rowCount w ≠ 0 ∧ (s.link k).train.entered + rowTimeout w ≤ s.clk.act + 5 * dt) := by
  unfold State.rowExpired
  rw [State.passNs_act h]
  rfl

/-! ### The ends of the eye check and of a step (R122, R127) -/

theorem State.eyeCheckEnd_ends (hrun : (s.link k).train.eye.running = true)
    (hscans : (s.ranks k fun l => l.active && l.eye.chk.isSome) = []) :
    s.eyeCheckEnd k = s.modTrain k fun t =>
      { t with eye := { t.eye with running := false, pass := !(s.link k).train.eye.failed, fail := (s.link k).train.eye.failed } } :=
  if_pos (by simp [hrun, hscans])

theorem State.stepEnd_ends {g : BitVec 2} (hstep : (s.link k).train.stepTo = some g)
    (hlanes : (s.ranks k fun l => l.active && !(decide (l.grade = g) && l.cdr && l.adaptDone)) = []) :
    s.stepEnd k = s.modTrain k fun t => { t with stepTo := none, stepDone := true } := by
  unfold State.stepEnd
  dsimp only
  rw [hstep]
  exact if_pos hlanes

end

/-! ### Training blocks (R121 to R123, R158) -/

section
variable {s : State} {n : Nat} {w : Word}

theorem State.trainRx_deaf (h : (s.lane n).blk = false ∨ s.laneState n = 0 ∨ s.laneCut false n = true) (inv : Bool) :
    s.trainRx n inv w = s :=
  if_pos (or_left_comm.mp h)

/-- On lane `n` training blocks are taken: it is locked, its link is not DOWN, and its receive crossing is out of reset. -/
structure State.TakesTrain (s : State) (n : Nat) : Prop where
  locked : (s.lane n).blk = true
  up : s.laneState n ≠ 0
  hears : s.laneCut false n = false

theorem State.TakesTrain.not_deaf (h : s.TakesTrain n) :
    ¬ (s.laneState n = 0 ∨ (s.lane n).blk = false ∨ s.laneCut false n = true) := by
  simp [h.locked, h.up, h.hears]

theorem State.trainRx_frames (h : s.TakesTrain n) (hframes : s.carriesFrames (n / 4) = true) (inv : Bool) :
    s.trainRx n inv w = s.trainSeen n inv w :=
  (if_neg h.not_deaf).trans (if_pos hframes)

theorem State.trainSeen_malformed {inv : Bool} (h : inv = true ∨ trainValid w = false) :
    s.trainSeen n inv w =
      (s.setLane n { s.lane n with train := { (s.lane n).train with seen := 0 } }).ctlMalf (n / 4) :=
  if_pos (by rcases h with h | h <;> simp [h])

/-- STEP_CNT 0 on an active lane moves the receivers of the link, once the lane has taken the block's fields. -/
theorem State.modLane_stepRx {f : Lane → Lane} (h : (f (s.lane n)).active = (s.lane n).active) :
    (s.modLane n f).stepRx n w =
      (let u := s.setLane n (f (s.lane n))
       if (s.lane n).active = true ∧ bits w 32 6 = 0 then
         forEach (List.range 4) (fun j v => v.laneGrade (4 * (n / 4) + j) (w.extractLsb' 38 2)) u
       else u) := by
  unfold State.stepRx State.modLane
  rw [State.lane_setLane, h]
  simp only [Bool.and_eq_true, decide_eq_true_eq]

theorem State.trainSeen_valid (h : trainValid w = true) :
    s.trainSeen n false w =
      (let l := (s.lane n).takeTrain (n % 4) w
       let u := s.setLane n { l with train := { l.train with run := 0, seen := (s.lane n).train.seen + 1 } }
       if (s.lane n).active = true ∧ bits w 32 6 = 0 then
         forEach (List.range 4) (fun j v => v.laneGrade (4 * (n / 4) + j) (w.extractLsb' 38 2)) u
       else u) :=
  (if_neg (by simp [h])).trans (State.modLane_stepRx rfl)

/-- A block that is not valid in either polarity, on a link that carries no frames. -/
theorem State.trainRx_invalid (h : s.TakesTrain n) (hframes : s.carriesFrames (n / 4) = false) {inv : Bool}
    (hvalid : trainValid (if inv then ~~~w else w) = false) :
    s.trainRx n inv w = s.setLane n { s.lane n with train := { (s.lane n).train with inv := 0, run := 0, ts := 0 } } := by
  refine (if_neg h.not_deaf).trans ((if_neg (by simp [hframes])).trans ?_)
  cases inv
  case false => exact (if_neg Bool.false_ne_true).trans (if_pos (by simpa using hvalid))
  case true => exact (if_pos rfl).trans (if_neg (Bool.eq_false_iff.mp hvalid))

/-- A block of a swapped pair, on a link that carries no frames. -/
theorem State.trainRx_swapped (h : s.TakesTrain n) (hframes : s.carriesFrames (n / 4) = false) (hvalid : trainValid (~~~w) = true) :
    s.trainRx n true w =
      s.setLane n { s.lane n with train := { (s.lane n).train with inv := (s.lane n).train.inv + 1, run := 0, ts := 0 } } :=
  (if_neg h.not_deaf).trans ((if_neg (by simp [hframes])).trans ((if_pos rfl).trans (if_pos hvalid)))

theorem Lane.takeEq_active (l : Lane) (training : Bool) (w : Word) : (l.takeEq training w).active = l.active := by
  unfold Lane.takeEq
  dsimp only
  split
  · rfl
  · split <;> rfl

theorem State.trainRx_valid (h : s.TakesTrain n) (hframes : s.carriesFrames (n / 4) = false) (hvalid : trainValid w = true) :
    s.trainRx n false w =
      (let l := ((s.lane n).takeTrain (n % 4) w).takeEq (decide (s.laneState n = 1)) w
       let u := (s.modTrain (n / 4) fun t => { t with farFec := w.extractLsb' 26 2 }).setLane n l
       if (s.lane n).active = true ∧ bits w 32 6 = 0 then
         forEach (List.range 4) (fun j v => v.laneGrade (4 * (n / 4) + j) (w.extractLsb' 38 2)) u
       else u) := by
  refine (if_neg h.not_deaf).trans ((if_neg (by simp [hframes])).trans ?_)
  refine (if_neg Bool.false_ne_true).trans ((if_neg (by simp [hvalid])).trans ?_)
  exact State.modLane_stepRx (s := s.modTrain (n / 4) fun t => { t with farFec := w.extractLsb' 26 2 }) (Lane.takeEq_active _ _ w)

/-! ### Requests for a coefficient (R123) -/

/-- What EQ_REQ_SEND writes: SEND and the request. -/
def eqReqWord (req : BitVec 3) : Word := fields [(63, 1, 1), (0, 3, req.toNat)]

theorem eqReqWord_fields : ∀ req : BitVec 3, bit (eqReqWord req) 63 = true ∧ (eqReqWord req).extractLsb' 0 3 = req := by decide

theorem exec_eqReqSend (n : LaneId) (req : BitVec 3) (s : State) :
    exec (.eqReqSend n req) s =
      .next (s.mgWrite (laneBase n.val + 0x60) true (eqReqWord req) fun t => t.writeEqReq n.val (eqReqWord req)) := rfl

/-- The block with a request for a coefficient in the training blocks of lane `n`. -/
def State.eqRequested (s : State) (n : Nat) (req : BitVec 3) : State :=
  s.setLane n { s.lane n with eq := { (s.lane n).eq with req := req, tgl := !(s.lane n).eq.tgl, out := req } }

theorem State.eqRequested_sendsTrain (s : State) (n : Nat) (req : BitVec 3) : (s.eqRequested n req).sendsTrain n = s.sendsTrain n := by
  have hgen : ((s.eqRequested n req).lane n).prbs.set.gen = (s.lane n).prbs.set.gen := by rw [State.eqRequested, State.lane_setLane]
  unfold State.sendsTrain State.laneSends
  rw [hgen]
  rfl

theorem State.writeEqReq_sends (s : State) (n : Nat) (req : BitVec 3) :
    s.writeEqReq n (eqReqWord req) =
      (let u := s.eqRequested n req
       if s.sendsTrain n then u.emit (.train n (u.trainBlock (n / 4) (n % 4) 63)) else u) := by
  obtain ⟨hsend, hreq⟩ := eqReqWord_fields req
  have htwice : ((s.modLane n fun l => { l with eq := { l.eq with req := req } }).modLane n fun l =>
      { l with eq := { l.eq with tgl := !l.eq.tgl, out := req } }) = s.eqRequested n req := by
    simp [State.modLane, State.eqRequested]
  unfold State.writeEqReq
  dsimp only
  rw [hsend, hreq, htwice, State.eqRequested_sendsTrain]
  rfl

end

/-! ### The obligation -/

/-- Settles O16: each clause is one outcome of a row, of a timeout or of a block. -/
theorem trainingActs : Obligations.TrainingActs := by
  unfold Obligations.TrainingActs
  refine ⟨fun k s hadmits henable => ?rows, ⟨fun k s hrun hscans => does_of_eq rfl (State.eyeCheckEnd_ends hrun hscans),
    fun k g s hstep hlanes => does_of_eq rfl (State.stepEnd_ends hstep hlanes)⟩,
    fun n w s => ⟨fun h inv => does_of_eq rfl (State.trainRx_deaf h inv), fun hblk hup hcut hframes => ?frames,
      fun hblk hup hcut hframes => ?training, fun req hopen => ?request⟩⟩
  case rows =>
    have htrains : s.trains k.val = true := Bool.and_eq_true_iff.mpr ⟨hadmits, henable⟩
    refine ⟨fun r hr => ?acts, fun hnone => does_of_eq rfl (State.trainStep_stays htrains hnone), fun dt => ?timeout⟩
    case acts =>
      intro w v u
      have hu : s.rowBegun k.val r = u := s.rowBegun_eq k.val r
      have hact {t} (h : s.actRow k.val r = t) : Does (.trainRowAction k) s t :=
        does_of_eq rfl ((State.trainStep_acts htrains hr).trans h)
      exact ⟨fun haction => hact (State.actRow_action hu haction), fun haction hfec => hact (State.actRow_up hu haction hfec),
        fun haction hfec => ⟨fun f hf => hact ((State.actRow_otherFec hu haction hfec).trans (State.upRefused_enters hf)),
          fun hf => hact ((State.actRow_otherFec hu haction hfec).trans (State.upRefused_stays hf))⟩⟩
    case timeout =>
      intro w
      have hexp := State.passNs_rowExpired (k := k.val) hadmits dt
      refine ⟨fun hcount htime hnone => ?_, fun r hcount htime hr => ?_, fun h => ?_⟩
      · exact does_of_eq rfl (State.trainTimeout_enters (s := s.passNs dt) htrains (hexp.mpr ⟨hcount, htime⟩) hnone)
      · exact does_of_eq rfl (State.trainTimeout_acts (s := s.passNs dt) htrains (hexp.mpr ⟨hcount, htime⟩) hr)
      · refine does_of_eq rfl (State.trainTimeout_early fun hexpired => ?_)
        obtain ⟨hcount, htime⟩ := hexp.mp hexpired
        exact h.elim hcount fun h => absurd htime (Nat.not_le.mpr h)
  case frames =>
    have hseen {inv t} (h : s.trainSeen n.val inv w = t) : Does (.trainingBlockRx n inv w) s t :=
      does_of_eq rfl ((State.trainRx_frames ⟨hblk, hup, hcut⟩ hframes inv).trans h)
    exact ⟨fun hvalid => hseen (State.trainSeen_valid hvalid), fun hvalid => hseen (State.trainSeen_malformed (.inr hvalid)),
      hseen (State.trainSeen_malformed (.inl rfl))⟩
  case training =>
    have htakes : s.TakesTrain n.val := ⟨hblk, hup, hcut⟩
    exact ⟨fun hvalid => does_of_eq rfl (State.trainRx_valid htakes hframes hvalid),
      fun hvalid => does_of_eq rfl (State.trainRx_invalid (inv := false) htakes hframes hvalid),
      fun hvalid => does_of_eq rfl (State.trainRx_swapped htakes hframes hvalid),
      fun hvalid => does_of_eq rfl (State.trainRx_invalid (inv := true) htakes hframes hvalid)⟩
  case request =>
    refine ⟨_, answers_of_mgWrite hopen (exec_eqReqSend n req s) (s.writeEqReq_sends n.val req), ?_⟩
    have hlane : (s.eqRequested n.val req).lane n.val = _ := s.lane_setLane n.val _
    dsimp only
    split
    · exact ⟨hlane, rfl, rfl, rfl⟩
    · exact ⟨hlane, (List.append_nil _).symm, rfl, rfl⟩

end Sys2Proof.Machine
end

section
/-! SUPPORT. The verdict on a HELLO (R133), and HELLO, ATTEST and KEYX packets with the timers and commands of a link's keys (R132, R393
to R401), outcome by outcome, with the obligations about them. -/

namespace Sys2Proof.Machine
open Sys2Proof.Safety

/-! ### The verdict (R133) -/

section
variable {s : State} {n : Nat} {h : Bytes} {e : PlanLink}

theorem State.compare_bench (hclass : helloPclass h = 1) (hbench : s.fuses.bench = false) : s.compare n h = .qBench :=
  if_pos ⟨hclass, hbench⟩

theorem State.compare_noEntry (hbench : ¬ (helloPclass h = 1 ∧ s.fuses.bench = false)) (hplan : s.planLink n = none) :
    s.compare n h = .qUnexpected := by
  unfold State.compare
  rw [if_neg hbench, hplan]

theorem State.compare_noFarEnd (hbench : ¬ (helloPclass h = 1 ∧ s.fuses.bench = false)) (hplan : s.planLink n = some e)
    (hkind : e.farKind = 0) : s.compare n h = .qUnexpected := by
  unfold State.compare
  rw [if_neg hbench, hplan]
  exact if_pos hkind

/-- Against an entry with a far end the checks go on with the far port. -/
theorem State.compare_entry (hbench : ¬ (helloPclass h = 1 ∧ s.fuses.bench = false)) (hplan : s.planLink n = some e)
    (hkind : e.farKind ≠ 0) :
    s.compare n h =
      if helloKind h ≠ e.farKind ∨ helloId h ≠ e.farId ∨ helloPort h ≠ e.farPort then .qWrongPeer
      else if helloPassport h ≠ e.farDig then .qIdentity
      else if helloClass h ≠ e.cls then .qClass
      else .match_ := by
  unfold State.compare
  rw [if_neg hbench, hplan]
  exact if_neg hkind

end

/-- Settles O23: one check after another, each under the failure of those before it. -/
theorem verdictOrder : Obligations.VerdictOrder := by
  unfold Obligations.VerdictOrder
  refine fun k h s => ⟨State.compare_bench, fun hbench => ⟨State.compare_noEntry hbench, fun e => State.compare_noFarEnd hbench,
    fun e hplan hkind => ?_⟩⟩
  rw [State.compare_entry hbench hplan hkind]
  refine ⟨fun hpeer => if_pos (by simpa only [not_and_or] using hpeer), fun ⟨hfar, hid, hport⟩ => ?_⟩
  rw [if_neg (by simp [hfar, hid, hport])]
  exact ⟨fun hpass => if_pos hpass, fun hpass hclass => (if_neg (not_not_intro hpass)).trans (if_pos hclass),
    fun hpass hclass => (if_neg (not_not_intro hpass)).trans (if_neg (not_not_intro hclass))⟩

/-! ### HELLO and ATTEST packets (R132, R393) -/

section
variable {s : State} {k : Nat} {p : Pkt}

theorem State.helloRow_takes (hrun : s.running = true) (hp : s.localPkt k (fun q => q.op = 0x20) = some p) :
    s.helloRow k = (s.consume k p).takeHello k (slice p.data 0 112) := by
  unfold State.helloRow
  rw [if_neg (by simp [hrun]), hp]

theorem State.attRow_takes (hrun : s.running = true) (hp : s.localPkt k (fun q => q.op = 0x21) = some p) :
    s.attRow k = (s.consume k p).takeAtt k p := by
  unfold State.attRow
  rw [if_neg (by simp [hrun]), hp]

theorem State.helloDue_sends (hadmits : s.admits = true) (hsending : (s.link k).guest.sending = true)
    (hframes : s.carriesFrames k = true) (hdue : (s.link k).guest.due + us5 100 ≤ s.clk.act) :
    s.helloDue k = (s.setLink k { s.link k with
      guest := { (s.link k).guest with due := (s.link k).guest.due + us5 100 } }).sendHello k :=
  if_pos (by simp [hadmits, hsending, hframes, hdue])

/-! ### KEYX packets (R394, R395) -/

theorem State.freeUnits_link (s : State) (k pool units ses : Nat) :
    ∃ l, (s.freeUnits k pool units ses).link k = { s.link k with ll := l } :=
  ⟨_, s.link_setLink k _⟩

/-- Taking a packet of link `k` out of its receive buffer changes that buffer and the link layer alone. -/
theorem State.consume_link (s : State) (k : LinkId) (p : Pkt) :
    ∃ i l, (s.consume k.val p).link k.val = { s.link k.val with inbox := i, ll := l } := by
  unfold State.consume
  rw [if_pos k.isLt]
  split
  case h_1 r _ =>
    obtain ⟨l, hl⟩ := State.freeUnits_link (s.modLink k.val fun l => { l with inbox := l.inbox.erase r }) k.val p.pool p.units r.ses
    refine ⟨(s.link k.val).inbox.erase r, l, ?_⟩
    rw [hl, State.modLink, State.link_setLink]
  case h_2 => exact ⟨_, _, rfl⟩

theorem State.consume_sec (s : State) (k : LinkId) (p : Pkt) : ((s.consume k.val p).link k.val).sec = (s.link k.val).sec := by
  obtain ⟨i, l, h⟩ := s.consume_link k p
  rw [h]

theorem State.consume_parts (s : State) (src : Nat) (p : Pkt) : (s.consume src p).parts = s.parts :=
  congrArg (fun x : List Instr × Fuses × Tab Part => x.2.2) (s.consume_kept src p)

/-- The packet that a row of KEYX takes: of its KIND, and for KIND 0 one of an unknown KIND too. -/
def keyxOf (kind : Nat) (q : Pkt) : Bool :=
  decide (q.op = 0x22) && (decide (kexKind q.data = kind) || decide (kind = 0 ∧ 2 < kexKind q.data))

/-- Link `k` runs KEYX, and `p` is the packet that its row of `kind` takes. -/
structure State.TakesKeyx (s : State) (k : LinkId) (kind : Nat) (p : Pkt) : Prop where
  running : s.running = true
  row : (s.link k.val).train.state = 3 ∨ (s.link k.val).train.state = 4
  friendly : (s.link k.val).guest.verdict ≠ .qHostile
  oldest : s.localPkt k.val (keyxOf kind) = some p

end

section
variable {s : State} {k : LinkId} {kind : Nat} {p : Pkt}

theorem State.TakesKeyx.runsKex (h : s.TakesKeyx k kind p) : (s.consume k.val p).runsKex k.val = true := by
  obtain ⟨i, l, hlink⟩ := s.consume_link k p
  unfold State.runsKex
  rw [hlink]
  exact decide_eq_true ⟨h.row, h.friendly⟩

theorem State.kexRow_eq (h : s.TakesKeyx k kind p) (act : Bytes → State → State) :
    s.kexRow k.val kind act =
      (let d := slice p.data 0 p.len.toNat
       let x := (s.link k.val).sec.kex
       if kexOk d = false ∨ (x.phase ≠ 0 ∧ kexSid d ≠ x.sid) then (s.consume k.val p).proofFails k.val 3
       else act d (s.consume k.val p)) := by
  have hp := h.oldest
  unfold keyxOf at hp
  unfold State.kexRow
  rw [if_neg (by simp [h.running]), hp]
  exact if_neg (by simp [h.runsKex])

theorem State.kexRow_goes (h : s.TakesKeyx k kind p) (act : Bytes → State → State) (hok : kexOk (slice p.data 0 p.len.toNat) = true)
    (hsid : (s.link k.val).sec.kex.phase = 0 ∨ kexSid (slice p.data 0 p.len.toNat) = (s.link k.val).sec.kex.sid) :
    s.kexRow k.val kind act = act (slice p.data 0 p.len.toNat) (s.consume k.val p) := by
  refine (State.kexRow_eq h act).trans (if_neg ?_)
  rintro (hbad | ⟨hphase, hother⟩)
  · exact Bool.false_ne_true (hbad.symm.trans hok)
  · exact hsid.elim hphase hother

theorem State.kexRow_malformed (h : s.TakesKeyx k kind p) (act : Bytes → State → State)
    (hbad : kexOk (slice p.data 0 p.len.toNat) = false) : s.kexRow k.val kind act = (s.consume k.val p).proofFails k.val 3 :=
  (State.kexRow_eq h act).trans (if_pos (.inl hbad))

/-- The keys of a link whose far CONFIRM has verified. -/
def LSec.confirmed (c : LSec) : LSec :=
  let mode : BitVec 2 := if c.kex.ephemeral then 2 else 1
  { (if c.txOn then c.rekeyed else { c with txOn := c.keyed }) with proven := true, mode := mode, kex := {} }

theorem State.takeConfirm_verified {s : State} {k : Nat} {d : Bytes} (hphase : (s.link k).sec.kex.phase = 3)
    (hmac : slice d 8 48 = s.confirmMac k (s.isLo k)) :
    s.takeConfirm k d = s.setLink k { s.link k with sec := (s.link k).sec.confirmed } := by
  unfold State.takeConfirm
  exact if_neg (by simp [hphase, hmac])

end

/-! ### Keys: REKEY, ADVANCE and the previous slot (R398, R399, R401) -/

theorem exec_rekey (k : LinkId) (s : State) :
    exec (.rekey k) s =
      .next (s.mgWrite (linkBase k.val + 0x700) true (BitVec.ofNat 64 (2 ^ 63)) fun s => s.rekeyLink k.val) := rfl

theorem exec_advance (k : LinkId) (s : State) :
    exec (.advance k) s =
      .next (s.mgWrite (linkBase k.val + 0x700) true (BitVec.ofNat 64 (2 ^ 62)) fun s => s.askAdvance k.val) := rfl

theorem State.retirePrev_empties {s : State} {k : Nat} (hrun : s.running = true) (hkey : (s.link k).sec.prev.key ≠ [])
    (hdue : (s.link k).sec.prevAt + us5 100 ≤ s.clk.core) :
    s.retirePrev k = s.setLink k { s.link k with sec := { (s.link k).sec with prev := {} } } :=
  if_pos (by simp [hrun, hkey, hdue])

/-! ### The obligation -/

/-- Settles O22: each clause is one outcome of a packet, of a timer or of a command. -/
theorem helloAndKeys : Obligations.HelloAndKeys := by
  unfold Obligations.HelloAndKeys
  refine ⟨⟨fun k p s hrun hp => does_of_eq rfl (State.helloRow_takes hrun hp), fun k dt s hadmits hsending hframes hdue => ?hello⟩,
    fun k p s hrun hp => does_of_eq rfl (State.attRow_takes hrun hp), fun k s hrun hrow hverdict e he p hp => ?keyx,
    fun k p s hrun hrow hverdict hp => ?confirm,
    fun k s hopen hdata => answers_of_mgWrite hopen (exec_rekey k s) (if_pos hdata),
    fun k s hopen hdata => answers_of_mgWrite hopen (exec_rekey k s) (if_neg (by simp [hdata])),
    fun k s hopen => answers_of_mgWrite hopen (exec_advance k s) rfl, fun k dt s hrun hkey hdue => ?previous⟩
  case hello =>
    rw [← State.passNs_act hadmits] at hdue
    exact does_of_eq rfl (State.helloDue_sends (s := s.passNs dt) hadmits hsending hframes hdue)
  case keyx =>
    have htakes : s.TakesKeyx k e.2.1 p := ⟨hrun, hrow, hverdict, hp⟩
    have hexec : exec e.1 s = .next (s.kexRow k.val e.2.1 e.2.2).kick := by
      simp only [List.mem_cons, List.not_mem_nil, or_false] at he
      rcases he with rfl | rfl | rfl <;> rfl
    exact ⟨fun hok hsid => does_of_eq hexec (State.kexRow_goes htakes e.2.2 hok hsid),
      fun hbad => does_of_eq hexec (State.kexRow_malformed htakes e.2.2 hbad)⟩
  case confirm =>
    intro d c hok hsid hphase hmac
    have htakes : s.TakesKeyx k 2 p := ⟨hrun, hrow, hverdict, hp⟩
    have hphase' : (c.link k.val).sec.kex.phase = 3 := (congrArg (fun x : LSec => x.kex.phase) (s.consume_sec k p)).trans hphase
    have hrow := (State.kexRow_goes htakes (fun d u => u.takeConfirm k.val d) hok (.inr hsid)).trans
      (State.takeConfirm_verified hphase' hmac)
    exact ⟨_, does_of_eq rfl hrow, congrArg (fun l : Link => l.sec.proven) (c.link_setLink k.val _),
      congrArg (fun l : Link => l.sec.kex) (c.link_setLink k.val _), s.consume_parts k.val p⟩
  case previous =>
    rw [← State.passNs_core (State.running_curfew hrun)] at hdue
    exact congrArg Host.Outcome.next (State.retirePrev_empties (s := s.passNs dt) hrun hkey hdue)

end Sys2Proof.Machine
end

section
/-! SUPPORT. A frame's packets as bytes and back (R174), and the obligation about them. -/

namespace Sys2Proof.Machine

/-! ### Byte strings -/

theorem leBytes_length (n v : Nat) : (leBytes n v).length = n := by
  induction n generalizing v with
  | zero => rfl
  | succ n ih => simp [leBytes, ih]

theorem leNat_leBytes (n v : Nat) : leNat (leBytes n v) = v % 256 ^ n := by
  induction n generalizing v with
  | zero => simp [leBytes, leNat, Nat.mod_one]
  | succ n ih => rw [leBytes, leNat, ih, BitVec.toNat_ofNat, pow_succ' 256 n, Nat.mod_mul]

/-- What stands in a string is read at its place. -/
theorem slice_append {a b : Bytes} {o n : Nat} (ha : a.length = o) (hb : b.length = n) (c : Bytes) : slice (a ++ (b ++ c)) o n = b := by
  subst ha hb
  simp [slice, zeros]

theorem padTo_length (n : Nat) (b : Bytes) : (padTo n b).length = b.length + (n - b.length % n) % n := by simp [padTo, zeros]

/-! ### A packet's bytes (Table 7.6, R174) -/

/-- Every header field is read back at its place. -/
theorem Pkt.ofHeader_header (p : Pkt) : Pkt.ofHeader p.header = { p with data := [] } := by
  unfold Pkt.ofHeader Pkt.header
  congr 1
  case e_op =>
    iterate 9 rw [BitVec.extractLsb'_append_eq_of_le (by decide)]
    exact BitVec.extractLsb'_eq_self
  all_goals
    repeat rw [BitVec.extractLsb'_append_eq_of_le (by decide)]
    exact BitVec.extractLsb'_append_eq_right

theorem Pkt.ofHeader_bytes (p : Pkt) (rest : Bytes) :
    Pkt.ofHeader (BitVec.ofNat 128 (leNat (slice (p.bytes ++ rest) 0 16))) = { p with data := [] } := by
  have hslice : slice (p.bytes ++ rest) 0 16 = leBytes 16 p.header.toNat := by
    rw [Pkt.bytes, List.append_assoc]
    exact slice_append (a := []) rfl (leBytes_length 16 _) _
  rw [hslice, leNat_leBytes, Nat.mod_eq_of_lt (show _ < 256 ^ 16 from p.header.isLt), BitVec.ofNat_toNat, BitVec.setWidth_eq, Pkt.ofHeader_header]

/-- A packet that a frame can carry: its data is as long as LENGTH says, and LENGTH is not above 224. -/
def Pkt.Whole (p : Pkt) : Prop := p.len.toNat ≤ 224 ∧ p.data.length = p.len.toNat

theorem Pkt.bytes_length {p : Pkt} (h : p.Whole) : p.bytes.length = 16 * p.units := by
  rw [Pkt.bytes, List.length_append, leBytes_length, padTo_length, h.2, Pkt.units]
  omega

theorem Pkt.bytes_data {p : Pkt} (h : p.Whole) (rest : Bytes) : slice (p.bytes ++ rest) 16 (min p.len.toNat 224) = p.data := by
  rw [Nat.min_eq_left h.1, Pkt.bytes, padTo, List.append_assoc, List.append_assoc]
  exact slice_append (leBytes_length 16 _) h.2 _

/-! ### The packets of a frame -/

theorem parsePkts_cons {p : Pkt} (h : p.Whole) (fuel u : Nat) (rest : Bytes) :
    parsePkts (fuel + 1) (p.bytes ++ rest) (p.units + u) = (p :: (parsePkts fuel rest u).1, (parsePkts fuel rest u).2) := by
  have hpos : p.units + u ≠ 0 := by unfold Pkt.units; omega
  have hunits : Pkt.units { p with data := [] } = p.units := rfl
  have hdrop : (p.bytes ++ rest).drop (16 * p.units) = rest := List.drop_left' (Pkt.bytes_length h)
  rw [parsePkts, if_neg hpos]
  simp only [Pkt.ofHeader_bytes, hunits, hdrop, Pkt.bytes_data h, Nat.add_sub_cancel_left]
  exact if_neg (by omega)

theorem parsePkts_bytes {l : List Pkt} (h : ∀ p ∈ l, p.Whole) {fuel : Nat} (hfuel : l.length ≤ fuel) (pad : Bytes) :
    parsePkts fuel (l.flatMap Pkt.bytes ++ pad) (l.map Pkt.units).sum = (l, true) := by
  induction l generalizing fuel with
  | nil => cases fuel <;> rfl
  | cons p l ih =>
    obtain ⟨f, rfl⟩ : ∃ f, fuel = f + 1 := ⟨fuel - 1, by simp at hfuel; omega⟩
    obtain ⟨hp, hl⟩ := List.forall_mem_cons.mp h
    rw [List.flatMap_cons, List.append_assoc, List.map_cons, List.sum_cons, parsePkts_cons hp,
      ih hl (Nat.le_of_succ_le_succ hfuel)]

/-- Settles O60: every packet takes a unit at least, so sixteen steps reach the end of fifteen units. -/
theorem packetsReadBack : Obligations.PacketsReadBack := by
  unfold Obligations.PacketsReadBack
  intro l pad hl hunits
  have hlen : l.length ≤ (l.map Pkt.units).sum := by
    simpa using List.length_le_sum_of_one_le (l.map Pkt.units) (by simp [Pkt.units])
  exact parsePkts_bytes hl (by omega) pad

end Sys2Proof.Machine
end

section
/-! SUPPORT. Ordered flows at their destination (R188): the order check of a packet, the flows of the block, and what becomes of a
request that arrives; with the obligation about them. -/

namespace Sys2Proof.Machine
open Sys2Proof.Safety

/-! ### The order check of a packet -/

section
variable {p : Pkt} {f : FlowIn}

theorem FlowIn.check_unordered (h : p.sqm = 0 ∨ p.sqm = 3) : f.check p = (.pass, f) := if_pos h

/-- A packet with SQM 2 sets the flow to its own number, and so is in turn. -/
theorem FlowIn.check_syncs (h : p.sqm = 2) : f.check p = (.pass, { e := p.tag + 1, synced := true }) := by
  simp [FlowIn.check, h]

theorem FlowIn.check_unsynced (h : p.sqm = 1) (hsynced : f.synced = false) : f.check p = (.resync, f) := by
  simp [FlowIn.check, h, hsynced]

/-- In a synchronised flow the distance from the expected number decides. -/
theorem FlowIn.check_distance (h : p.sqm = 1) (hsynced : f.synced = true) {d : Nat} (hd : (p.tag - f.e).toNat = d) :
    f.check p = if d = 0 then (.pass, { f with e := f.e + 1 }) else if d < 2048 then (.retry, f) else (.behind, f) := by
  simp [FlowIn.check, h, hsynced, hd]

theorem FlowIn.check_in_turn (h : p.sqm = 1) (hsynced : f.synced = true) (htag : p.tag = f.e) :
    f.check p = (.pass, { f with e := f.e + 1 }) :=
  (FlowIn.check_distance h hsynced (d := 0) (by rw [htag, BitVec.sub_self]; rfl)).trans (if_pos rfl)

theorem FlowIn.check_ahead (h : p.sqm = 1) (hsynced : f.synced = true) (htag : p.tag ≠ f.e) (hd : (p.tag - f.e).toNat < 2048) :
    f.check p = (.retry, f) := by
  have hpos : (p.tag - f.e).toNat ≠ 0 := fun h0 => htag (by bv_omega)
  rw [FlowIn.check_distance h hsynced rfl, if_neg hpos, if_pos hd]

theorem FlowIn.check_behind (h : p.sqm = 1) (hsynced : f.synced = true) (hd : 2048 ≤ (p.tag - f.e).toNat) :
    f.check p = (.behind, f) := by
  rw [FlowIn.check_distance h hsynced rfl, if_neg (by omega), if_neg (by omega)]

end

/-! ### The flows of the block -/

/-- Each source chip has a flow of its own for VC4 and for VC7. -/
theorem flowKey_injective {c d v w : Nat} (hv : v = 4 ∨ v = 7) (hw : w = 4 ∨ w = 7) (h : flowKey c v = flowKey d w) : c = d ∧ v = w := by
  unfold flowKey at h
  split_ifs at h <;> omega

section
variable {s t : State} {src : Nat} {p : Pkt} {act : State → State}

theorem State.orderCheck_ordered (hsrc : src ≠ 24) (hvc : p.vc = 4 ∨ p.vc = 7) :
    s.orderCheck src p =
      (let r := (s.flowsIn.get {} (flowKey p.src.toNat p.vc)).check p
       (r.1, { s with flowsIn := s.flowsIn.put {} (flowKey p.src.toNat p.vc) r.2 })) :=
  if_neg (by omega)

/-! ### A request arrives -/

theorem State.arrive_behind (h : (s.consume src p).orderCheck src p = (.behind, t)) :
    s.arrive src p act = t.modPtr fun c => { c with behind := satAdd c.behind 1 } := by
  simp only [State.arrive, h]

theorem State.arrive_retry (h : (s.consume src p).orderCheck src p = (.retry, t)) :
    s.arrive src p act = t.reply p { status := stBusy, retry := true } [] := by
  simp only [State.arrive, h]

theorem State.arrive_resync (h : (s.consume src p).orderCheck src p = (.resync, t)) :
    s.arrive src p act = t.reply p { status := stBusy, resync := true } [] := by
  simp only [State.arrive, h]

/-- A packet in turn that no toll gate meters. -/
theorem State.arrive_ungated (h : (s.consume src p).orderCheck src p = (.pass, t))
    (hgate : ¬ (src < 24 ∧ p.sqm ≠ 3 ∧ (p.vc = 4 ∨ p.vc = 7))) : s.arrive src p act = act t := by
  simp only [State.arrive, h]
  exact if_neg hgate

theorem State.arrive_gated (h : (s.consume src p).orderCheck src p = (.pass, t))
    (hgate : src < 24 ∧ p.sqm ≠ 3 ∧ (p.vc = 4 ∨ p.vc = 7)) :
    s.arrive src p act =
      if (t.toll src p).2 then (t.toll src p).1.reply p { status := stBusy, policed := true } [] else act (t.toll src p).1 := by
  simp only [State.arrive, h]
  exact if_pos hgate

end

/-- The rows of requests, each with the opcodes it takes. -/
def requestRows (src : SrcId) : List (Instr × (Nat → Bool)) :=
  [(.rd src, fun o => o == 0x80), (.wr src, fun o => o == 0x81), (.atom src, fun o => o / 8 == 0x11),
    (.rdBf src, fun o => o == 0x90), (.wrBf src, fun o => o == 0x91), (.atomBf src, fun o => o / 8 == 0x13),
    (.brd src, fun o => o == 0xE0), (.bwr src, fun o => o == 0xE1), (.brdBf src, fun o => o == 0xF0),
    (.bwrBf src, fun o => o == 0xF1), (.fillRequest src, fun o => o == (0xCC : Nat))]

theorem requestRows_exec {src : SrcId} {e : Instr × (Nat → Bool)} (he : e ∈ requestRows src) (s : State) :
    exec e.1 s = .next (s.requestRow src.val e.2).kick := by
  simp only [requestRows, List.mem_cons, List.not_mem_nil, or_false] at he
  rcases he with rfl | rfl | rfl | rfl | rfl | rfl | rfl | rfl | rfl | rfl | rfl <;> rfl

/-- A row of requests does what the arrival of the packet at the head comes to. -/
theorem does_of_arrive {src : SrcId} {e : Instr × (Nat → Bool)} (he : e ∈ requestRows src) {s u : State} {p : Pkt}
    (hadmits : s.admits = true) (hp : s.headOf src.val e.2 = some p)
    (h : (s.arrive src.val p fun t => t.admitReq src.val p) = u) : Does e.1 s u :=
  does_of_eq (requestRows_exec he s) ((State.requestRow_head hadmits hp).trans h)

/-! ### The obligation -/

/-- Settles O46: each clause is one outcome of the order check, or of the arrival of a request by it. -/
theorem orderedFlows : Obligations.OrderedFlows := by
  unfold Obligations.OrderedFlows
  refine ⟨fun p f => ⟨FlowIn.check_unordered, FlowIn.check_syncs, FlowIn.check_unsynced, fun h hsynced =>
      ⟨FlowIn.check_in_turn h hsynced, FlowIn.check_ahead h hsynced, FlowIn.check_behind h hsynced⟩⟩,
    ⟨fun c d v w => flowKey_injective, fun src p s hsrc hvc => ?flows, fun tm s => ⟨_, _, rfl, rfl, rfl, rfl⟩⟩,
    fun src s hadmits e he p hp => ?rows⟩
  case flows =>
    rw [State.orderCheck_ordered hsrc hvc]
    exact ⟨rfl, Tab.get_put_same _ _ _ _, fun i hi => Tab.get_put_ne _ _ hi⟩
  case rows =>
    generalize hr : (s.consume src.val p).orderCheck src.val p = r
    obtain ⟨o, t⟩ := r
    dsimp only
    refine ⟨?ungated, ?green, ?red, ?retry, ?resync, ?behind⟩ <;> rintro rfl
    case ungated => exact fun hgate => does_of_arrive he hadmits hp (State.arrive_ungated hr hgate)
    case green =>
      exact fun hgate hgreen => does_of_arrive he hadmits hp ((State.arrive_gated hr hgate).trans (if_neg (by simp [hgreen])))
    case red => exact fun hgate hred => does_of_arrive he hadmits hp ((State.arrive_gated hr hgate).trans (if_pos hred))
    case retry => exact does_of_arrive he hadmits hp (State.arrive_retry hr)
    case resync => exact does_of_arrive he hadmits hp (State.arrive_resync hr)
    case behind => exact does_of_arrive he hadmits hp (State.arrive_behind hr)

end Sys2Proof.Machine
end

section
/-! SUPPORT. Control blocks and frames as a link receives them (R158 to R166, R193, R452, R457), outcome by outcome, and the
obligations about them. -/

namespace Sys2Proof.Machine
open Sys2Proof.Safety

/-! ### What leaves the links alone -/

theorem Watched.link {s t : State} (h : Watched s t) (n : Nat) : t.link n = s.link n := by
  obtain ⟨o, l, p, z, rfl⟩ := h
  rfl

/-- Ending the runs of TRAIN blocks changes lanes alone. -/
theorem State.endTs_eq (s : State) (k : Nat) : ∃ l, s.endTs k = { s with lanes := l } := by
  refine forEach_preserves (P := fun t => ∃ l, t = { s with lanes := l }) ?_ (List.range 4) ⟨s.lanes, rfl⟩
  rintro j t ⟨l, rfl⟩
  exact ⟨_, rfl⟩

@[simp] theorem State.endTs_link (s : State) (k n : Nat) : (s.endTs k).link n = s.link n := by
  obtain ⟨l, h⟩ := s.endTs_eq k
  rw [h]
  rfl

@[simp] theorem State.endTs_obs (s : State) (k : Nat) : (s.endTs k).obs = s.obs := by
  obtain ⟨l, h⟩ := s.endTs_eq k
  rw [h]

/-! ### Standalone blocks while frames flow (R159) -/

section
variable {c : Instr} {s u : State} {k : LinkId} {w : BitVec 64}

theorem does_of_ctlRow {act : State → State} (hexec : exec c s = .next (s.ctlRow k.val act)) (hhears : s.linkHears k.val = true)
    (h : act (s.endTs k.val) = u) : Does c s u := by
  subst h
  exact hexec.trans (congrArg _ (if_pos hhears))

theorem exec_ack (k : LinkId) (w : BitVec 64) (s : State) :
    exec (.ack k w) s = .next (s.ctlRow k.val fun t => t.takeAckBlock k.val w) := rfl

theorem exec_credit (k : LinkId) (w : BitVec 64) (s : State) :
    exec (.credit k w) s = .next (s.ctlRow k.val fun t => t.takeCreditBlock k.val w) := rfl

theorem exec_credInit (k : LinkId) (w : BitVec 64) (s : State) :
    exec (.credInit k w) s = .next (s.ctlRow k.val fun t => t.takeCredInitBlock k.val w) := rfl

theorem exec_pace (k : LinkId) (w : BitVec 64) (s : State) :
    exec (.pace k w) s = .next (s.ctlRow k.val fun t => t.takePaceBlock k.val w) := rfl

/-! ### FATAL blocks (R193) -/

theorem exec_fatal (hup : s.linkUp k.val = true) (hcut : s.linkCut false k.val = false) :
    exec (.fatal k w) s = .next (if !s.fc.safe then ((s.endTs k.val).takeFatalBlock k.val w).kick
      else if blockValid 0x99 w then (s.modLL k.val fun l => { l with farFatal := true }).raise srcFarFatal else s) :=
  congrArg Host.Outcome.next (if_neg (by simp [hup, hcut]))

theorem does_of_fatal (hsafe : s.fc.safe = false) (hup : s.linkUp k.val = true) (hcut : s.linkCut false k.val = false)
    (h : (s.endTs k.val).takeFatalBlock k.val w = u) : Does (.fatal k w) s u :=
  does_of_eq ((exec_fatal hup hcut).trans (congrArg _ (if_pos (by simp [hsafe])))) h

theorem exec_fatal_safe (hsafe : s.fc.safe = true) (hup : s.linkUp k.val = true) (hcut : s.linkCut false k.val = false) :
    exec (.fatal k w) s =
      .next (if blockValid 0x99 w then (s.modLL k.val fun l => { l with farFatal := true }).raise srcFarFatal else s) :=
  (exec_fatal hup hcut).trans (congrArg _ (if_neg (by simp [hsafe])))

/-! ### CURFEW blocks (R452, R457) -/

theorem State.curfewRow_acts {kind : Nat} (hup : s.linkUp k.val = true) (hcut : s.linkCut false k.val = false)
    (hkind : blockValid 0x87 w = true → bits w 54 2 = kind) :
    s.curfewRow k.val kind w = ((s.endTs k.val).takeCurfewBlock k.val w).kick := by
  refine if_neg ?_
  simp only [hup, hcut, Bool.not_true, Bool.false_or, decide_eq_true_eq, not_and']
  exact fun hvalid => not_not_intro (hkind hvalid)

theorem State.takeCurfewBlock_entry (hvalid : blockValid 0x87 w = true) (hkind : bits w 54 2 = 0) (n : Nat) :
    s.takeCurfewBlock n w = s.takeEntry n w :=
  (State.control_valid hvalid s n _).trans (if_pos hkind)

theorem State.takeCurfewBlock_resume (hvalid : blockValid 0x87 w = true) (hkind : bits w 54 2 = 1) (n : Nat) :
    s.takeCurfewBlock n w = s.takeResume n w :=
  (State.control_valid hvalid s n _).trans (if_neg (by simp [hkind]))

theorem State.takeEntry_outside (hon : s.obs.curfew.on = false) (n : Nat) :
    s.takeEntry n w = if s.obs.curfew.serial < w.extractLsb' 11 32 then s.enterCurfew 4 n (w.extractLsb' 43 11) (w.extractLsb' 11 32)
      else s :=
  if_neg (by simp [hon])

theorem State.takeEntry_curfew (hon : s.obs.curfew.on = true) (n : Nat) :
    s.takeEntry n w = { s with obs := { s.obs with curfew := { s.obs.curfew with
      serial := if s.obs.curfew.serial < w.extractLsb' 11 32 then w.extractLsb' 11 32 else s.obs.curfew.serial } } } :=
  if_pos hon

theorem State.takeResume_outside (hon : s.obs.curfew.on = false) (n : Nat) : s.takeResume n w = s.linkResumed n :=
  if_pos (by simp [hon])

theorem State.takeResume_curfew (hon : s.obs.curfew.on = true) (n : Nat) :
    s.takeResume n w = if w.extractLsb' 11 32 < s.obs.curfew.serial then s
      else (s.modObs fun o => { o with curfew := { o.curfew with serial := w.extractLsb' 11 32 } }).resume.linkResumed n :=
  if_neg (by simp [hon])

end

section
variable {s : State} {k : LinkId} {w : BitVec 64} (hup : s.linkUp k.val = true) (hcut : s.linkCut false k.val = false)
include hup hcut

theorem curfewEntry_does {u : State} (hvalid : blockValid 0x87 w = true) (hkind : bits w 54 2 = 0)
    (h : (s.endTs k.val).takeEntry k.val w = u) : Does (.curfewEntryBlock k w) s u :=
  does_of_eq (congrArg _ (State.curfewRow_acts hup hcut fun _ => hkind)) ((State.takeCurfewBlock_entry hvalid hkind _).trans h)

theorem curfewResume_does {u : State} (hvalid : blockValid 0x87 w = true) (hkind : bits w 54 2 = 1)
    (h : (s.endTs k.val).takeResume k.val w = u) : Does (.curfewResumeBlock k w) s u :=
  does_of_eq (congrArg _ (State.curfewRow_acts hup hcut fun _ => hkind)) ((State.takeCurfewBlock_resume hvalid hkind _).trans h)

/-- A CURFEW block that is not right is counted, whichever of the two rows it comes by. -/
theorem curfewBlock_malformed (hbad : blockValid 0x87 w = false) :
    Does (.curfewEntryBlock k w) s ((s.endTs k.val).ctlMalf k.val) ∧ Does (.curfewResumeBlock k w) s ((s.endTs k.val).ctlMalf k.val) := by
  have hrow (kind : Nat) : s.curfewRow k.val kind w = ((s.endTs k.val).takeCurfewBlock k.val w).kick :=
    State.curfewRow_acts hup hcut fun h => absurd (hbad.symm.trans h) Bool.false_ne_true
  exact ⟨does_of_eq (congrArg _ (hrow 0)) (State.control_malformed hbad _ _ _),
    does_of_eq (congrArg _ (hrow 1)) (State.control_malformed hbad _ _ _)⟩

end

/-- Settles O18: each clause is one outcome of a block, by its check and its kind. -/
theorem controlBlocks : Obligations.ControlBlocks := by
  unfold Obligations.ControlBlocks
  refine ⟨fun k w s hhears => ⟨fun h => ?ack, fun h => ?credit, fun h => ?credInit, fun h => ?pace, fun e he h => ?malformed⟩,
    fun k w s hsafe hup hcut => ⟨fun h => ?fatal, fun h => ?fatalMalformed⟩,
    fun k w s hsafe hup hcut => ⟨fun h => ?safe, fun h => ?safeMalformed⟩,
    fun k w s hup hcut => ⟨fun hvalid => ⟨fun hkind hon hserial => ?enters, fun hkind hon hserial => ?old, fun hkind hon => ?inside,
      fun hkind hon => ?ends, fun hkind hon hserial => ?resumes, fun hkind hon hserial => ?held⟩, curfewBlock_malformed hup hcut⟩⟩
  case ack => exact does_of_ctlRow (exec_ack k w s) hhears (State.control_valid h _ _ _)
  case credit => exact does_of_ctlRow (exec_credit k w s) hhears (State.control_valid h _ _ _)
  case credInit => exact does_of_ctlRow (exec_credInit k w s) hhears (State.control_valid h _ _ _)
  case pace => exact does_of_ctlRow (exec_pace k w s) hhears (State.control_valid h _ _ _)
  case malformed =>
    simp only [List.mem_cons, List.not_mem_nil, or_false] at he
    rcases he with rfl | rfl | rfl | rfl
    · exact does_of_ctlRow (exec_ack k w s) hhears (State.control_malformed h _ _ _)
    · exact does_of_ctlRow (exec_credit k w s) hhears (State.control_malformed h _ _ _)
    · exact does_of_ctlRow (exec_credInit k w s) hhears (State.control_malformed h _ _ _)
    · exact does_of_ctlRow (exec_pace k w s) hhears (State.control_malformed h _ _ _)
  case fatal => exact does_of_fatal hsafe hup hcut (State.control_valid h _ _ _)
  case fatalMalformed => exact does_of_fatal hsafe hup hcut (State.control_malformed h _ _ _)
  case safe => exact (exec_fatal_safe hsafe hup hcut).trans (congrArg _ (if_pos h))
  case safeMalformed => exact (exec_fatal_safe hsafe hup hcut).trans (congrArg _ (if_neg (by simp [h])))
  case enters => exact curfewEntry_does hup hcut hvalid hkind ((State.takeEntry_outside (by simpa) _).trans (if_pos (by simpa)))
  case old => exact curfewEntry_does hup hcut hvalid hkind ((State.takeEntry_outside (by simpa) _).trans (if_neg (by simpa)))
  case inside => exact curfewEntry_does hup hcut hvalid hkind ((State.takeEntry_curfew (by simpa) _).trans (by rw [State.endTs_obs]))
  case ends => exact curfewResume_does hup hcut hvalid hkind (State.takeResume_outside (by simpa) _)
  case resumes => exact curfewResume_does hup hcut hvalid hkind ((State.takeResume_curfew (by simpa) _).trans (if_neg (by simpa)))
  case held => exact curfewResume_does hup hcut hvalid hkind ((State.takeResume_curfew (by simpa) _).trans (if_pos (by simpa)))

/-! ### Frames (R158, R165, R166, R488) -/

theorem State.putRec_watched (s : State) (r : Rec) : Watched s (s.putRec r) := s.setTrace_watched _

/-- Capturing a frame is observation. -/
theorem State.captureFrame_watched (s : State) (k : Nat) (b : Bytes) : Watched s (s.captureFrame k b) := by
  unfold State.captureFrame
  refine .ite (.refl s) (.ite ?_ ?_)
  · exact (s.setTrace_watched _).trans (forEach_watched _ _ _ fun _ r => r.tally_watched 1)
  · exact (s.offer_watched _).trans (forEach_watched _ _ _ fun _ r => r.putRec_watched _)

/-- The state in which a frame is taken: captured, and the runs of TRAIN blocks ended. -/
def State.captured (s : State) (k : Nat) (fr : RxFrame) : State := (s.captureFrame k (slice fr.bytes 0 256)).endTs k

theorem State.captured_link (s : State) (k : Nat) (fr : RxFrame) (n : Nat) : (s.captured k fr).link n = s.link n :=
  ((s.captureFrame k _).endTs_link k n).trans ((s.captureFrame_watched k _).link n)

section
variable {s : State} {k : Nat} {fr : RxFrame}

theorem exec_frame (k : LinkId) (fr : RxFrame) (s : State) : exec (.frame k fr) s = .next (s.frameRx k.val fr).kick := rfl

theorem State.frameRx_noFrame (hhears : s.linkHears k = true) (htype : bits (word64 fr.bytes 0) 0 8 ≠ 0x78) :
    s.frameRx k fr = if (s.link k).ll.stopped then s.endTs k else (s.endTs k).ctlMalf k := by
  unfold State.frameRx
  rw [if_neg (by simp [hhears]), if_pos htype]

theorem State.frameRx_stopped (hhears : s.linkHears k = true) (htype : bits (word64 fr.bytes 0) 0 8 = 0x78)
    (hstopped : (s.link k).ll.stopped = true) : s.frameRx k fr = s.captured k fr := by
  unfold State.frameRx
  rw [if_neg (by simp [hhears]), if_neg (not_not_intro htype)]
  exact if_pos ((congrArg (fun l : Link => l.ll.stopped) (s.captured_link k fr k)).trans hstopped)

/-- Link `k` of `s` takes `fr` for a frame: it hears it, its first byte is that of one, and no FATAL block has stopped the link. -/
structure State.TakesFrame (s : State) (k : Nat) (fr : RxFrame) : Prop where
  hears : s.linkHears k = true
  type : bits (word64 fr.bytes 0) 0 8 = 0x78
  goes : (s.link k).ll.stopped = false

theorem State.TakesFrame.capture_goes (h : s.TakesFrame k fr) (b : Bytes) : ((s.captureFrame k b).link k).ll.stopped = false :=
  (congrArg (fun l : Link => l.ll.stopped) ((s.captureFrame_watched k b).link k)).trans h.goes

theorem State.frameRx_full (h : s.TakesFrame k fr) (hfull : fr.full = true) :
    s.frameRx k fr = ((s.captured k fr).modCnt k fun c => { c with paceDrop := satAdd c.paceDrop 1 }).discardFrame k := by
  simp [State.frameRx, State.captured, h.hears, h.type, h.capture_goes, hfull]

theorem State.frameRx_broken (h : s.TakesFrame k fr) (hfull : fr.full = false) {w : BitVec 64} (hctl : fr.ctl = some w) :
    s.frameRx k fr =
      (((s.captured k fr).modCnt k fun c => { c with frameMalf := satAdd c.frameMalf 1 }).discardFrame k).strayControl k w := by
  simp [State.frameRx, State.captured, h.hears, h.type, h.capture_goes, hfull, hctl]

theorem State.frameRx_whole (h : s.TakesFrame k fr) (hfull : fr.full = false) (hctl : fr.ctl = none) :
    s.frameRx k fr = if fr.bad then (s.captured k fr).discardFrame k else (s.captured k fr).checkFrame k fr := by
  simp [State.frameRx, State.captured, h.hears, h.type, h.capture_goes, hfull, hctl]

end

/-! ### The check of a frame (R161 to R163, R166) -/

section
variable {s : State} {k : Nat} {fr : RxFrame}

theorem State.checkFrame_passes {m : Bytes} {sec : LSec} {cur : Bool} (h : (s.link k).sec.check s.clk.core fr.bytes = some (m, sec, cur)) :
    s.checkFrame k fr = (s.modLink k fun l => { l with sec := sec }).checkedFrame k (word64 fr.bytes 0) m cur := by
  simp only [State.checkFrame, h]

/-- A frame that fails its check is counted. -/
def State.checkFailed (s : State) (k : Nat) : State :=
  (s.modCnt k fun c => { c with chkFail := satAdd c.chkFail 1 }).count 1 3 k none

theorem State.checkFrame_fails (h : (s.link k).sec.check s.clk.core fr.bytes = none) :
    s.checkFrame k fr = ((s.checkFailed k).failFrame k (word64 fr.bytes 0)).tagFailure k fr.clean := by
  simp only [State.checkFrame, h, State.checkFailed]

theorem State.checkFailed_link (s : State) (k : Nat) :
    (s.checkFailed k).link k =
      { s.link k with ll := { (s.link k).ll with cnt := { (s.link k).ll.cnt with chkFail := satAdd (s.link k).ll.cnt.chkFail 1 } } } :=
  ((State.count_watched _ _ _ _ _ _).link k).trans (s.link_setLink k _)

/-- The frame is the first to fail since one was accepted, or the one that the NAK asked for. -/
theorem State.failFrame_naks {h : Word} (hnak : (s.link k).ll.nakSent = false ∨ h.extractLsb' 52 12 = (s.link k).ll.rxSeq + 1) :
    s.failFrame k h = s.setLink k { s.link k with ll := { (s.link k).ll with nakPend := true, nakSent := true } } :=
  congrArg (fun l : LL => s.setLink k { s.link k with ll := l }) (if_neg (by rcases hnak with h | h <;> simp [h]))

theorem State.failFrame_waits {h : Word} (hnak : (s.link k).ll.nakSent = true) (hseq : h.extractLsb' 52 12 ≠ (s.link k).ll.rxSeq + 1) :
    s.failFrame k h = s.setLink k (s.link k) :=
  congrArg (fun l : LL => s.setLink k { s.link k with ll := l }) (if_pos (by simpa [hnak] using hseq))

end

/-- Settles O20: each clause is one outcome of a frame, by what has become of it on its way and by its check. -/
theorem framesReceived : Obligations.FramesReceived := by
  unfold Obligations.FramesReceived
  refine ⟨fun k fr s hhears hstopped => ⟨fun htype => ?stoppedOther, fun htype => ?stopped⟩,
    fun k fr s hhears hgoes => ⟨fun htype => ?other, fun htype => ?frame⟩⟩
  case stoppedOther => exact does_of_eq (exec_frame k fr s) ((State.frameRx_noFrame hhears htype).trans (if_pos hstopped))
  case stopped => exact does_of_eq (exec_frame k fr s) (State.frameRx_stopped hhears htype hstopped)
  case other => exact does_of_eq (exec_frame k fr s) ((State.frameRx_noFrame hhears htype).trans (if_neg (by simp [hgoes])))
  case frame =>
    have h : s.TakesFrame k fr := ⟨hhears, htype, hgoes⟩
    have hchecked (hfull : fr.full = false) (hctl : fr.ctl = none) (hbad : fr.bad = false) :
        s.frameRx k fr = (s.captured k fr).checkFrame k fr := (State.frameRx_whole h hfull hctl).trans (if_neg (by simp [hbad]))
    have hlink := (s.captured k fr).checkFailed_link k
    refine ⟨fun hfull => does_of_eq (exec_frame k fr s) (State.frameRx_full h hfull),
      fun w hfull hctl => does_of_eq (exec_frame k fr s) (State.frameRx_broken h hfull hctl),
      fun hfull hctl hbad => does_of_eq (exec_frame k fr s) ((State.frameRx_whole h hfull hctl).trans (if_pos hbad)),
      fun m sec cur hfull hctl hbad hpass => does_of_eq (exec_frame k fr s) ((hchecked hfull hctl hbad).trans (State.checkFrame_passes hpass)),
      fun hfull hctl hbad hfail => ?fails⟩
    have hrow := (hchecked hfull hctl hbad).trans (State.checkFrame_fails hfail)
    refine ⟨fun hnak => does_of_eq (exec_frame k fr s) (hrow.trans (congrArg (fun t : State => t.tagFailure k.val fr.clean) ?_)),
      fun hnak hseq => does_of_eq (exec_frame k fr s) (hrow.trans (congrArg (fun t : State => t.tagFailure k.val fr.clean) ?_))⟩
    · exact State.failFrame_naks (by rwa [hlink])
    · exact State.failFrame_waits (by rwa [hlink]) (by rwa [hlink])

end Sys2Proof.Machine
end

section
/-! SUPPORT. What a link layer keeps account of (R164 to R173): credits at the far end, frames acknowledged, and the sequence of the
frames accepted, which no packet that a frame holds can change; with the obligation about them. -/

namespace Sys2Proof.Machine
open Sys2Proof.Safety

/-! ### Credits and acknowledgements (R164, R170, R173) -/

section
variable {s : State} {n : Nat}

theorem State.link_modLL (s : State) (n : Nat) (f : LL → LL) : (s.modLL n f).link n = { s.link n with ll := f (s.link n).ll } :=
  s.link_setLink n _

theorem State.link_modLL_ne (s : State) {n m : Nat} (h : m ≠ n) (f : LL → LL) : (s.modLL n f).link m = s.link m :=
  s.link_setLink_ne _ h

/-- A report of units that are out. -/
theorem State.takeCredit_frees {p : Nat} {cum : BitVec 9}
    (h : (cum - ((s.link n).ll.pools.get {} p).cumRx).toNat ≤ ((s.link n).ll.pools.get {} p).out) :
    s.takeCredit n p cum = s.modLL n fun l =>
      { l with pools := l.pools.put {} p { (s.link n).ll.pools.get {} p with
          out := ((s.link n).ll.pools.get {} p).out - (cum - ((s.link n).ll.pools.get {} p).cumRx).toNat, cumRx := cum } } :=
  if_neg (Nat.not_lt.mpr h)

theorem State.takeCredit_refused {p : Nat} {cum : BitVec 9}
    (h : ((s.link n).ll.pools.get {} p).out < (cum - ((s.link n).ll.pools.get {} p).cumRx).toNat) : s.takeCredit n p cum = s.ctlMalf n :=
  if_pos h

theorem State.takeCredInit_refused {p ded shared : Nat}
    (h : ((s.link n).ll.pools.get {} p).init = true ∧ ((s.link n).ll.pools.get {} p).dedFar ≠ ded ∨ shared < (s.link n).ll.sharedFar) :
    s.takeCredInit n p ded shared = s.ctlMalf n :=
  if_pos h

theorem State.takeAck_same (s : State) (n : Nat) : s.takeAck n (s.link n).ll.acked = s := if_pos (.inl (by simp))

theorem State.takeAckNak_same (s : State) (n : Nat) : s.takeAckNak n (s.link n).ll.acked false = s := s.takeAck_same n

/-- An acknowledgement of some of the frames that wait for one. -/
theorem State.takeAck_releases {k : Nat} (hpos : 0 < k) (hwait : k ≤ (s.link n).ll.retry.length) (hk : k < 4096) :
    ∃ r c, s.takeAck n ((s.link n).ll.acked + BitVec.ofNat 12 k) = s.modLink n fun l =>
      { l with ll := { l.ll with retry := l.ll.retry.drop k, acked := (s.link n).ll.acked + BitVec.ofNat 12 k, replay := r }, sec := c } := by
  have hcount : ((s.link n).ll.acked + BitVec.ofNat 12 k - (s.link n).ll.acked).toNat = k := by
    rw [BitVec.add_comm, BitVec.add_sub_cancel, BitVec.toNat_ofNat]
    exact Nat.mod_eq_of_lt hk
  unfold State.takeAck
  simp only [hcount]
  exact ⟨_, _, if_neg (by omega)⟩

end

/-! ### The sequence of accepted frames -/

/-- The last SEQ accepted, and whether a NAK has been sent and an acknowledgement is due (R164, R166). -/
def LL.rxState (l : LL) : BitVec 12 × Bool × Bool := (l.rxSeq, l.nakSent, l.ackDue)

/-- No link of `t` has accepted other frames than in `s`. -/
def SameRx (s t : State) : Prop := ∀ k, (t.link k).ll.rxState = (s.link k).ll.rxState

section
variable {s t u : State} {n : Nat} (h : SameRx s t)

theorem SameRx.refl (s : State) : SameRx s s := fun _ => rfl

theorem SameRx.ite {c : Prop} [Decidable c] (ht : SameRx s t) (hu : SameRx s u) : SameRx s (if c then t else u) := by
  split <;> assumption

theorem forEach_sameRx {α : Type} (l : List α) {f : α → State → State} (hf : ∀ a r, SameRx s r → SameRx s (f a r)) (h : SameRx s t) :
    SameRx s (forEach l f t) :=
  forEach_preserves hf l h

include h

theorem SameRx.of_links (hlinks : u.links = t.links) : SameRx s u := by
  intro k
  rw [← h k, State.link, hlinks, ← State.link]

theorem SameRx.watched (hw : Watched t u) : SameRx s u := by
  intro k
  rw [← h k, hw.link k]

/-- A change of a link changes nothing of what it has accepted if it leaves that part of the link layer. -/
theorem SameRx.modLink {f : Link → Link} (hf : (f (t.link n)).ll.rxState = (t.link n).ll.rxState := by rfl) :
    SameRx s (t.modLink n f) := by
  intro k
  by_cases hk : k = n
  · rw [hk, State.modLink, State.link_setLink, hf, h]
  · rw [State.modLink, State.link_setLink_ne _ _ hk, h]

theorem SameRx.modLL {f : LL → LL} (hf : (f (t.link n).ll).rxState = (t.link n).ll.rxState := by rfl) : SameRx s (t.modLL n f) :=
  h.modLink hf

theorem SameRx.modTrain {f : Train → Train} : SameRx s (t.modTrain n f) := h.modLink

theorem SameRx.count {unit_ event inst m : Nat} {part : Option Nat} : SameRx s (t.count unit_ event inst part m) :=
  h.watched (t.count_watched unit_ event inst part m)

theorem SameRx.freeUnits {pool units ses : Nat} : SameRx s (t.freeUnits n pool units ses) := by
  refine h.modLL ?_
  split <;> rfl

theorem SameRx.enqueue {o : OutPkt} : SameRx s (t.enqueue n o) := h.modLink

theorem SameRx.requeue {o : OutPkt} : SameRx s (t.requeue n o) := h.modLink

theorem SameRx.setPin {key : Nat} {pin : Option (Nat × Nat)} : SameRx s (t.setPin key pin) := h.of_links rfl

theorem SameRx.modPtr {f : PtrCnt → PtrCnt} : SameRx s (t.modPtr f) := h.of_links rfl

theorem SameRx.place {p : Pkt} : SameRx s (t.place p) := by
  unfold State.place
  refine .ite (h.of_links rfl) ?_
  split
  · exact .ite h.enqueue.setPin h.enqueue
  · exact .ite (h.modPtr.count.of_links rfl) h.modPtr.count

/-! ### Faults, and a link that leaves the candidate set (R22, R116, R403) -/

theorem SameRx.driveFaultOut : SameRx s t.driveFaultOut := .ite h (h.of_links rfl)

theorem SameRx.record {l : List Nat} {inj : Bool} : SameRx s (t.record l inj) := SameRx.driveFaultOut (h.of_links rfl)

theorem SameRx.enterSafe : SameRx s t.enterSafe := by
  unfold State.enterSafe
  dsimp only
  refine .ite h (.watched ?_ (State.emits_watched _ _))
  refine forEach_sameRx _ (fun _ _ hr => hr.of_links rfl) ?_
  exact h.of_links rfl

theorem SameRx.report {p : Pkt} : SameRx s (t.report p) := by
  unfold State.report State.send
  exact .ite (h.of_links rfl) (.ite h (.ite (h.of_links rfl) h.place))

theorem SameRx.raiseAll {l : List Nat} {inj : Bool} : SameRx s (t.raiseAll l inj) := by
  unfold State.raiseAll
  refine .ite h (forEach_sameRx _ (fun _ _ hr => .ite hr.report hr) (.watched ?_ (State.fireWhere_watched _ _)))
  exact forEach_sameRx _ (fun _ _ hr => hr.count) (.ite h.record.enterSafe h.record)

theorem SameRx.failLink : SameRx s (t.failLink n) := by
  exact .ite h.modTrain.raiseAll h.modTrain

theorem SameRx.dropPins : SameRx s t.dropPins := by
  refine forEach_sameRx _ (fun key r hr => ?_) h
  split
  · exact .ite hr hr.setPin
  · exact hr

theorem SameRx.sipLink {chip : Nat} : SameRx s (t.sipLink chip).2 := by
  unfold State.sipLink
  dsimp only
  split
  · exact h
  · exact h.of_links rfl

/-- The units that a packet held here are freed, if it held any. -/
theorem SameRx.freeFrom {units : Nat} (held : Option (Nat × Nat × Nat)) :
    SameRx s (match held with
      | some (k, pool, ses) => t.freeUnits k pool units ses
      | none => t) := by
  split
  · exact h.freeUnits
  · exact h

theorem SameRx.replace {o : OutPkt} : SameRx s (t.replace o) := by
  unfold State.replace
  dsimp only
  refine .ite h (.ite ?sip ?other)
  case sip =>
    split
    · exact h.sipLink.enqueue
    · exact h.sipLink.freeFrom o.from_
  case other =>
    split
    · exact .ite h.requeue.setPin h.requeue
    · exact .ite (h.modPtr.count.freeFrom o.from_).place (h.modPtr.count.freeFrom o.from_)

theorem SameRx.leaveSet : SameRx s (t.leaveSet n) := by
  unfold State.leaveSet
  refine forEach_sameRx _ (fun _ _ hr => hr.replace) (.dropPins ?_)
  exact (h.modLink (f := fun l => { l with outq := [], ll := { l.ll with retry := [], replay := none, acked := l.ll.txSeq - 1 } })).of_links rfl

theorem SameRx.setHostile {cause : Nat} : SameRx s (t.setHostile n cause) :=
  h.modLink.raiseAll.failLink.leaveSet

/-! ### The packets of a frame (R165, R172, R175, R178, R189) -/

theorem SameRx.undeliverable {ses : Nat} {p : Pkt} {f : PtrCnt → PtrCnt} : SameRx s (t.undeliverable n ses p f) := by
  unfold State.undeliverable
  exact .ite h.modPtr.count.freeUnits.place h.modPtr.count.freeUnits

theorem SameRx.forward {ses no : Nat} {p : Pkt} : SameRx s (t.forward n ses p no) := by
  unfold State.forward
  refine .ite (.ite h.freeUnits.place h.freeUnits.modLL) (.ite h.undeliverable (.ite h.undeliverable ?_))
  split
  · exact h.enqueue.count
  · exact h.undeliverable

theorem SameRx.takePkt {p : Pkt} : SameRx s (t.takePkt n p) := by
  unfold State.takePkt
  dsimp only
  refine .ite h.setHostile (.ite ?malformed (.ite ?here ?onward))
  case malformed => exact ((h.modLL.count.watched (State.watchPkt_watched _ _ _ _)).modLL).freeUnits
  case here => exact (h.modLL.count.watched (State.watchPkt_watched _ _ _ _)).modLink
  case onward => exact (h.modLL.count.watched (State.watchPkt_watched _ _ _ _)).forward

theorem SameRx.takeCredit {p : Nat} {cum : BitVec 9} : SameRx s (t.takeCredit n p cum) := .ite h.modLL h.modLL

theorem SameRx.dropPkts {l : List Pkt} : SameRx s (t.dropPkts n l) :=
  forEach_sameRx l (fun _ _ hr => (hr.modLL).freeUnits) h

end

/-! ### A frame that passed its check (R165, R166) -/

/-- A frame that is discarded leaves the sequence, and a NAK for it has been sent or is due. -/
theorem State.discardFrame_link (s : State) (n : Nat) :
    ((s.discardFrame n).link n).ll.rxSeq = (s.link n).ll.rxSeq ∧ ((s.discardFrame n).link n).ll.nakSent = true ∧
      ((s.discardFrame n).link n).inbox = (s.link n).inbox := by
  rw [State.discardFrame, State.link_modLL]
  dsimp only
  split
  next hsent => exact ⟨rfl, hsent, rfl⟩
  next => exact ⟨rfl, rfl, rfl⟩

/-- The link that accepts the frame of a SEQ: its acknowledgement is due, and a NAK may be sent again (R164, R166); one that verified under
the current key slot empties the previous one (R399). -/
def Link.accept (l : Link) (seq : BitVec 12) (current : Bool) : Link :=
  { l with ll := { l.ll with rxSeq := seq, nakSent := false, ackDue := true }
           sec := if current then { l.sec with prev := {} } else l.sec }

section
variable {s t : State} {n : Nat} {h : Word} {payload : Bytes} {cur : Bool}

theorem State.modLL_inbox (s : State) (n : Nat) (f : LL → LL) : ((s.modLL n f).link n).inbox = (s.link n).inbox := by
  rw [State.link_modLL]

theorem State.takeCredit_inbox (s : State) (n p : Nat) (cum : BitVec 9) : ((s.takeCredit n p cum).link n).inbox = (s.link n).inbox := by
  unfold State.takeCredit
  dsimp only
  split <;> exact s.modLL_inbox n _

variable (hnak : bit h 30 = false) (hack : h.extractLsb' 40 12 = (s.link n).ll.acked)
  (ht : s.takeCredit n (bits h 25 5) (h.extractLsb' 16 9) = t)
include hnak hack ht

/-- A frame that acknowledges nothing new and carries no NAK is discarded for its SEQ after its credit report has been taken. -/
theorem State.checkedFrame_drops (hseq : h.extractLsb' 52 12 ≠ (t.link n).ll.rxSeq + 1) :
    s.checkedFrame n h payload cur = (t.modCnt n fun c => { c with seqDrop := satAdd c.seqDrop 1 }).discardFrame n := by
  unfold State.checkedFrame
  dsimp only
  rw [hnak, hack, State.takeAckNak_same, ht]
  exact if_pos hseq

theorem State.checkedFrame_accepts (hseq : h.extractLsb' 52 12 = (t.link n).ll.rxSeq + 1) :
    SameRx (t.modLink n fun l => l.accept (h.extractLsb' 52 12) cur) (s.checkedFrame n h payload cur) := by
  unfold State.checkedFrame
  dsimp only
  rw [hnak, hack, State.takeAckNak_same, ht]
  rw [if_neg (not_not_intro hseq)]
  have haccept := (SameRx.refl (t.modLink n fun l => l.accept (h.extractLsb' 52 12) cur)).count (unit_ := 1) (event := 1) (inst := n)
    (m := 1) (part := none)
  exact .ite haccept.modLL.dropPkts (forEach_sameRx _ (fun _ _ hr => hr.takePkt) haccept)

end

/-- Settles O19: what a report, an acknowledgement and an initialisation of credits change, and what a frame does by its SEQ. -/
theorem linkAccounting : Obligations.LinkAccounting := by
  unfold Obligations.LinkAccounting
  refine ⟨⟨fun k p cum s => ⟨fun h => ?frees, State.takeCredit_refused⟩, fun k n s hpos hwait hn => ?acks,
    fun k p ded shared s => State.takeCredInit_refused⟩, fun k h payload cur s hnak hack => ?frame⟩
  case frees =>
    dsimp only
    rw [State.takeCredit_frees h, State.link_modLL]
    exact ⟨Tab.get_put_same _ _ _ _, fun r hr => Tab.get_put_ne _ _ hr, fun j hj => s.link_modLL_ne hj _⟩
  case acks =>
    obtain ⟨r, c, hacked⟩ := State.takeAck_releases hpos hwait hn
    dsimp only
    rw [hacked, State.modLink, State.link_setLink]
    exact ⟨rfl, rfl, rfl, fun j hj => s.link_setLink_ne _ hj⟩
  case frame =>
    have hrx := (SameRx.refl s).takeCredit (n := k) (p := bits h 25 5) (cum := h.extractLsb' 16 9) k.val
    have hinbox := s.takeCredit_inbox k (bits h 25 5) (h.extractLsb' 16 9)
    generalize ht : s.takeCredit k.val (bits h 25 5) (h.extractLsb' 16 9) = t at hrx hinbox
    have hrxSeq : (t.link k.val).ll.rxSeq = (s.link k.val).ll.rxSeq := congrArg Prod.fst hrx
    refine ⟨fun hseq => ?drops, fun hseq => ?accepts⟩
    case drops =>
      rw [State.checkedFrame_drops hnak hack ht (by rwa [hrxSeq])]
      have hdrop := State.discardFrame_link (t.modCnt k.val fun c => { c with seqDrop := satAdd c.seqDrop 1 }) k.val
      rw [State.modCnt, State.link_modLL] at hdrop
      obtain ⟨hseq, hsent, hkeep⟩ := hdrop
      exact ⟨hseq.trans hrxSeq, hsent, hkeep.trans hinbox⟩
    case accepts =>
      have hacc := State.checkedFrame_accepts (payload := payload) (cur := cur) hnak hack ht (by rwa [hrxSeq]) k.val
      rw [State.modLink, State.link_setLink] at hacc
      simpa only [LL.rxState, Link.accept, Prod.mk.injEq] using hacc

end Sys2Proof.Machine
end

section
/-! SUPPORT. The timers of a link that carries frames (R160, R164, R166, R167, R170), its frame boundaries (R160, R422, R455, R457,
R486), and the boundary of a scheduling interval (R198, R199), outcome by outcome; with the obligation about them. -/

namespace Sys2Proof.Machine
open Sys2Proof.Safety

/-! ### Timers -/

section
variable {s : State} {k : Nat}

theorem State.linkLive_of (hrun : s.running = true) (hframes : s.carriesFrames k = true) : s.linkLive k = true := by
  simp [State.linkLive, hrun, hframes]

theorem State.sendPace_none (h : (s.link k).ll.paceDue = false) : s.sendPace k = s := if_neg (by simp [h])

theorem State.sendPace_due (h : (s.link k).ll.paceDue = true) :
    s.sendPace k = (s.modLL k fun l => { l with paceDue := false }).emit (.control k (paceBlock (s.link k).ll.paceLocal)) := if_pos h

theorem State.ackDue_sends (hlive : s.linkLive k = true) (hdue : (s.link k).ll.ackDue = true) (hcut : s.linkCut true k = false) :
    s.ackDue k = (s.sendPace k).sendAck k :=
  if_pos (by simp [hlive, hdue, hcut])

/-- The CRED_INIT set goes out again where what is held from earlier sessions leaves room. -/
theorem State.credInitDue_room (hlive : s.linkLive k = true) (hdue : (s.link k).ll.credInitAt + us5 100 ≤ s.clk.core)
    (hcarry : (s.link k).ll.carry ≤ 2560) :
    s.credInitDue k = s.setLink k { s.link k with
      ll := { (s.link k).ll with credInitAt := (s.link k).ll.credInitAt + us5 100, credInit := List.range 32
                                 sharedLocal := 2560 - (s.link k).ll.carry } } :=
  (if_pos (by simp [hlive, hdue])).trans (congrArg (fun l : LL => s.setLink k { s.link k with ll := l }) (if_pos hcarry))

theorem State.replayDue_starts {f : RFrame} {l : List RFrame} (hlive : s.linkLive k = true) (hretry : (s.link k).ll.retry = f :: l)
    (hdue : f.at5 + s.rto k ≤ s.clk.core) : s.replayDue k = s.startReplay k f.seq := by
  unfold State.replayDue
  rw [hretry]
  exact if_pos (by simp [hlive, hdue])

/-! ### A replay (R167, R457) -/

/-- The replays in a row from one SEQ, with this one. -/
def LL.runOf (l : LL) (q : BitVec 12) : Nat := if l.runFrom = q ∧ l.runCount ≠ 0 then l.runCount + 1 else 1

theorem State.modLL_modLL (s : State) (n : Nat) (f g : LL → LL) : (s.modLL n f).modLL n g = s.modLL n fun l => g (f l) := by
  rw [State.modLL, State.modLink, State.link_modLL, State.modLL, State.modLink, State.setLink_setLink]
  rfl

/-- The sixteenth replay in a row from one SEQ fails the link. -/
theorem State.startReplay_eq (s : State) (n : Nat) (q : BitVec 12) {u : State}
    (hu : (s.modLL n fun l => { l with
      replay := some q, runFrom := q, runCount := l.runOf q, cnt := { l.cnt with replays := satAdd l.cnt.replays 1 } }).count 1 2 n
        none = u) :
    s.startReplay n q = if 16 ≤ (s.link n).ll.runOf q then u.failLink n else u := by
  have hcount : (u.link n).ll.runCount = (s.link n).ll.runOf q := by
    rw [← hu, (State.count_watched _ _ _ _ _ _).link, State.link_modLL]
  rw [← hcount, ← hu]
  rfl

/-- After a curfew the frames that wait for an acknowledgement are sent again. -/
theorem State.linkResumed_replays (hwait : (s.link k).ll.resumeWait ≠ none) (hretry : (s.link k).ll.retry ≠ []) :
    s.linkResumed k = (s.modLL k fun l => { l with resumeWait := none }).startReplay k ((s.link k).ll.acked + 1) := by
  unfold State.linkResumed
  dsimp only
  rw [if_neg (by simp [hwait]), if_neg (by simp [hretry])]

theorem State.linkResumed_none (h : (s.link k).ll.resumeWait = none) : s.linkResumed k = s := if_pos (by simp [h])

/-! ### Frame boundaries -/

theorem State.frameBoundary_cut (h : s.linkSends k = false) : s.frameBoundary k = s := if_pos (by simp [h])

theorem State.frameBoundary_held (hsends : s.linkSends k = true) (hrun : s.running = false) :
    s.frameBoundary k = if (s.fc.safe && s.linkUp k) || s.carriesFrames k then s.emit (.idle k 1) else s := by
  unfold State.frameBoundary
  rw [if_neg (by simp [hsends]), if_pos (by simp [hrun])]

theorem State.frameBoundary_training (hrun : s.running = true) (hframes : s.carriesFrames k = false) : s.frameBoundary k = s := by
  unfold State.frameBoundary
  simp [hrun, hframes]

/-- A link of a running block that carries frames, and whose blocks leave. -/
structure State.SendsFrames (s : State) (k : Nat) : Prop where
  sends : s.linkSends k = true
  running : s.running = true
  frames : s.carriesFrames k = true

theorem State.frameBoundary_waits (h : s.SendsFrames k) (hresumed : (s.link k).ll.resumed s.clk.up = false) :
    s.frameBoundary k = (s.sendControls k).emit (.idle k 1) := by
  unfold State.frameBoundary
  simp [h.sends, h.running, h.frames, hresumed]

theorem State.frameBoundary_goes (h : s.SendsFrames k) (hresumed : (s.link k).ll.resumed s.clk.up = true) :
    s.frameBoundary k = if (s.linkResumed k).injects k then (s.linkResumed k).injectCopy k
      else ((s.linkResumed k).sendControls k).sendFrame k := by
  unfold State.frameBoundary
  simp [h.sends, h.running, h.frames, hresumed]

end

/-! ### Nothing to send (R160, R194) -/

section
variable {s : State} {n : Nat}

/-- A link layer that owes no control block and replays nothing. -/
structure LL.Quiet (l : LL) : Prop where
  pace : l.paceDue = false
  nak : l.nakPend = false
  report : l.reportPool = none
  init : l.credInit = []
  replay : l.replay = none

theorem State.emits_nil (s : State) : s.emits [] = s := by
  simp [State.emits]

/-- A link written as it stands leaves every link as it is. -/
theorem State.link_setLink_self (s : State) (n j : Nat) : (s.setLink n (s.link n)).link j = s.link j := by
  by_cases h : j = n
  · rw [h, State.link_setLink]
  · exact s.link_setLink_ne _ h

/-- With no control block to send, every link stands as it was. -/
theorem State.sendControls_quiet (h : (s.link n).ll.Quiet) : s.sendControls n = s.setLink n (s.link n) := by
  have hinit : (s.modLL n fun l => { l with credInit := [] }) = s.setLink n (s.link n) :=
    congrArg (fun i => s.setLink n { s.link n with ll := { (s.link n).ll with credInit := i } }) h.init.symm
  simp only [State.sendControls, State.sendPace_none h.pace, h.nak, h.report, h.init, Bool.false_eq_true, if_false, List.map_nil,
    State.emits_nil]
  exact hinit

theorem State.headVc_empty (h : (s.link n).outq = []) (v : Nat) : s.headVc n v = none := by
  unfold State.headVc
  rw [h]
  rfl

theorem State.headShp_empty (h : (s.link n).outq = []) (i : Nat) : s.headShp n i = none := by
  unfold State.headShp
  rw [h]
  rfl

theorem State.guarantee_empty (h : (s.link n).outq = []) : s.guarantee n = none := by
  unfold State.guarantee
  refine List.findSome?_eq_none_iff.mpr fun i _ => ?_
  rw [State.headShp_empty h]
  exact ite_self none

theorem State.share_empty (h : (s.link n).outq = []) (fuel : Nat) (c : Sch) : s.share n fuel c = none := by
  have hready (v r : Nat) (c : Sch) : s.shareReady n c v r = [] := by
    unfold State.shareReady
    refine List.filterMap_eq_nil_iff.mpr fun i _ => ?_
    rw [State.headShp_empty h]
    rfl
  induction fuel generalizing c with
  | zero => rfl
  | succ fuel ih =>
    simp only [State.share, hready]
    exact ih _

theorem State.nextPkt_empty (h : (s.link n).outq = []) : s.nextPkt n = none := by
  simp only [State.nextPkt, State.headVc_empty h, Option.filter_none, State.guarantee_empty h, State.share_empty h]

theorem State.sendFrame_full (hreplay : (s.link n).ll.replay = none) (hfull : 1024 ≤ (s.link n).ll.retry.length) :
    s.sendFrame n = s.emit (.idle n 1) := by
  simp [State.sendFrame, hreplay, hfull]

/-- Clearing deficits changes the scheduling state of the link alone. -/
theorem State.clearDeficits_link (s : State) (n j : Nat) :
    (s.clearDeficits n).link j = { s.link j with sch := ((s.clearDeficits n).link j).sch } ∧
      (j ≠ n → (s.clearDeficits n).link j = s.link j) := by
  rw [State.clearDeficits, State.modLink]
  by_cases h : j = n
  · rw [h, State.link_setLink]
    exact ⟨rfl, fun hne => absurd rfl hne⟩
  · rw [State.link_setLink_ne _ _ h]
    exact ⟨rfl, fun _ => rfl⟩

theorem State.sendFrame_empty (hreplay : (s.link n).ll.replay = none) (hroom : (s.link n).ll.retry.length < 1024)
    (hempty : (s.link n).outq = []) : s.sendFrame n = (s.clearDeficits n).emit (.idle n 1) := by
  have hnext : (s.clearDeficits n).nextPkt n = none := by
    refine State.nextPkt_empty ?_
    rw [State.clearDeficits, State.modLink, State.link_setLink]
    exact hempty
  simp [State.sendFrame, hreplay, hroom, State.gather, hnext]

theorem State.frameBoundary_quiet (h : s.SendsFrames n) (hwait : (s.link n).ll.resumeWait = none) (hinjects : s.injects n = false)
    (hquiet : (s.link n).ll.Quiet) : s.frameBoundary n = (s.setLink n (s.link n)).sendFrame n := by
  have hresumed : (s.link n).ll.resumed s.clk.up = true := by simp [LL.resumed, hwait]
  rw [State.frameBoundary_goes h hresumed, State.linkResumed_none hwait, hinjects, State.sendControls_quiet hquiet]
  rfl

end

/-! ### The boundary of a scheduling interval (R198, R199) -/

section
variable {s : State}

theorem exec_schedInterval (dt : Nat) (s : State) : exec (.schedInterval dt) s = .next ((s.passNs dt).schedBoundary).kick := rfl

theorem State.schedBoundary_refills (hrun : s.running = true) (hus : s.schedUs < s.usIndex) :
    s.schedBoundary = forEach (List.range 32) (fun j s => s.refillGate j)
      (forEach (List.range 24) (fun k s => s.linkBoundary k) (State.applySched { s with schedUs := s.usIndex })) :=
  if_neg (by simp [hrun, hus])

theorem State.schedBoundary_waits (h : s.running = false ∨ s.usIndex ≤ s.schedUs) : s.schedBoundary = s := by
  refine if_pos ?_
  rcases h with h | h <;> simp [h]

end

/-! ### The obligation -/

theorem exec_ackBlockTimer (k : LinkId) (s : State) : exec (.ackBlockTimer k) s = .next (s.ackDue k.val) := rfl

theorem exec_credInitTimer (k : LinkId) (dt : Nat) (s : State) :
    exec (.credInitTimer k dt) s = .next ((s.passNs dt).credInitDue k.val) := rfl

theorem exec_replayTimeout (k : LinkId) (dt : Nat) (s : State) :
    exec (.replayTimeout k dt) s = .next ((s.passNs dt).replayDue k.val).kick := rfl

theorem exec_frameTx (k : LinkId) (s : State) : exec (.frameTx k) s = .next (s.frameBoundary k.val).kick := rfl

/-- Settles O21: each clause is one outcome of a timer, of a frame boundary or of the boundary of an interval. -/
theorem linkTimers : Obligations.LinkTimers := by
  unfold Obligations.LinkTimers
  refine ⟨fun k s hrun hframes => ⟨fun hdue hcut => ⟨fun hpace => ?ack, fun hpace => ?ackPace⟩, fun dt hdue hcarry => ?credInit,
      fun dt f l hretry hdue => ?replay, fun hsends hres hinj => ?frame, fun hsends hres hinj => ?copy, fun hsends hres => ?waits⟩,
    fun k s h => ?none, fun k s hsends hrun => ⟨fun h => ?held, fun h => ?heldNone⟩,
    fun k s hrun hframes hinj hsends hwait hpace hnak hreport hinit hreplay => ?idle,
    fun k s hwait hretry => ?resumes, fun dt s hrun hus => ?refills, fun dt s h => ?early⟩
  case ack =>
    rw [exec_ackBlockTimer, State.ackDue_sends (State.linkLive_of hrun hframes) hdue hcut, State.sendPace_none hpace]
  case ackPace =>
    rw [exec_ackBlockTimer, State.ackDue_sends (State.linkLive_of hrun hframes) hdue hcut, State.sendPace_due hpace]
    rfl
  case credInit =>
    rw [← State.passNs_core (State.running_curfew hrun)] at hdue
    exact (exec_credInitTimer k dt s).trans (congrArg Host.Outcome.next
      (State.credInitDue_room (s := s.passNs dt) (State.linkLive_of hrun hframes) hdue hcarry))
  case replay =>
    rw [← State.passNs_core (State.running_curfew hrun)] at hdue
    exact does_of_eq (exec_replayTimeout k dt s) (State.replayDue_starts (s := s.passNs dt) (State.linkLive_of hrun hframes) hretry hdue)
  case frame =>
    exact does_of_eq (exec_frameTx k s) ((State.frameBoundary_goes ⟨hsends, hrun, hframes⟩ hres).trans (if_neg (by simp [hinj])))
  case copy => exact does_of_eq (exec_frameTx k s) ((State.frameBoundary_goes ⟨hsends, hrun, hframes⟩ hres).trans (if_pos hinj))
  case waits => exact does_of_eq (exec_frameTx k s) (State.frameBoundary_waits ⟨hsends, hrun, hframes⟩ hres)
  case none =>
    rcases h with hsends | ⟨hrun, hframes⟩
    · exact does_of_eq (exec_frameTx k s) (State.frameBoundary_cut hsends)
    · exact does_of_eq (exec_frameTx k s) (State.frameBoundary_training hrun hframes)
  case held =>
    exact does_of_eq (exec_frameTx k s) ((State.frameBoundary_held hsends hrun).trans (if_pos (by simpa using h)))
  case heldNone =>
    exact does_of_eq (exec_frameTx k s) ((State.frameBoundary_held hsends hrun).trans (if_neg (by simpa using h)))
  case idle =>
    have hrow := State.frameBoundary_quiet ⟨hsends, hrun, hframes⟩ hwait hinj ⟨hpace, hnak, hreport, hinit, hreplay⟩
    have hself := s.link_setLink_self k
    have hreplay' : ((s.setLink k (s.link k)).link k).ll.replay = none := by rwa [hself]
    refine ⟨fun hfull => ⟨_, does_of_eq (exec_frameTx k s) (hrow.trans (State.sendFrame_full hreplay' (by rwa [hself]))), rfl,
      fun j => hself j, rfl, rfl, rfl⟩, fun hempty => ?_⟩
    rcases Nat.lt_or_ge (s.link k).ll.retry.length 1024 with hroom | hfull
    · refine ⟨_, does_of_eq (exec_frameTx k s) (hrow.trans (State.sendFrame_empty hreplay' (by rwa [hself]) (by rwa [hself]))), rfl,
        fun j => ?_, rfl, rfl, rfl⟩
      obtain ⟨hsch, hother⟩ := (s.setLink k (s.link k)).clearDeficits_link k j
      rw [hself] at hsch hother
      exact ⟨hsch, fun hj => hother (Fin.val_ne_of_ne hj)⟩
    · exact ⟨_, does_of_eq (exec_frameTx k s) (hrow.trans (State.sendFrame_full hreplay' (by rwa [hself]))), rfl,
        fun j => ⟨by rw [State.link_emit, hself], fun _ => hself j⟩, rfl, rfl, rfl⟩
  case resumes =>
    dsimp only
    rw [State.linkResumed_replays hwait hretry, State.startReplay_eq _ _ _ rfl, State.modLL_modLL, State.link_modLL]
    rfl
  case refills => exact does_of_eq (exec_schedInterval dt s) (State.schedBoundary_refills (s := s.passNs dt) hrun hus)
  case early => exact does_of_eq (exec_schedInterval dt s) (State.schedBoundary_waits (s := s.passNs dt) h)

end Sys2Proof.Machine
end

section
/-! SUPPORT. Timers of requests and of the Innkeeper (R221, R243, R244, R253, R256, R260), outcome by outcome, and the obligation
about them. -/

namespace Sys2Proof.Machine
open Sys2Proof.Safety

/-! ### The rows of the dispatch -/

section
variable (s : State) (dt : Nat)

theorem exec_onwardTimeout (i : Fin 512) : exec (.onwardTimeout i dt) s = .next ((s.passNs dt).onwardExpire i.val).kick := rfl

theorem exec_busyRetry (id : Nat) : exec (.busyRetry id dt) s = .next ((s.passNs dt).busyRetry id).kick := rfl

theorem exec_stewardRequestTimeout (id : Nat) :
    exec (.stewardRequestTimeout id dt) s = .next ((s.passNs dt).stewardTimeout id).kick := rfl

theorem exec_innkeeperEpoch : exec (.innkeeperEpoch dt) s = .next (s.passNs dt).epochTick.kick := rfl

theorem exec_plDirRetry (id : Nat) : exec (.plDirRetry id dt) s = .next ((s.passNs dt).dirRetry id).kick := rfl

end

theorem does_noteExpiry {s : State} (hrun : s.running = true) (dt : Nat) : Does (.noteExpiry dt) s (s.passNs dt).freeNotes :=
  congrArg Host.Outcome.next (if_pos hrun)

theorem does_dirHoldEnd {s : State} (hrun : s.running = true) (dt : Nat) : Does (.dirHoldEnd dt) s (s.passNs dt).freeDirs :=
  congrArg Host.Outcome.next (if_pos hrun)

/-! ### Requests (R221, R243, R244) -/

section
variable {s : State} {id t : Nat} {r : Req}

theorem State.onwardExpire_overdue {i : Nat} {e : Onward} (hentry : (s.onward.find? fun x => x.1 = i) = some (i, e))
    (hsent : e.sent = true) (hdue : e.at5 + s.fabricTmo ≤ s.clk.core) :
    s.onwardExpire i = { s with onward := s.onward.filter fun x => decide (x.1 ≠ i) } := by
  simp [State.onwardExpire, hentry, hsent, hdue]

theorem State.busyRetry_due (hreq : s.req id = some r) (hstage : r.stage = .backoff t) (hdue : t ≤ s.clk.core) :
    s.busyRetry id = s.reissueReq r := by
  simp [State.busyRetry, hreq, hstage, hdue]

theorem State.stewardTimeout_due {q n : Nat} (hreq : s.req id = some r) (hwho : r.who = .insn q n) (hfirst : r.firstAt = some t)
    (hlive : r.timedOut = false) (hstage : r.stage ≠ .landing) (hdue : t + s.fabricTmo ≤ s.clk.core) :
    s.stewardTimeout id = s.timeOutReq r := by
  simp [State.stewardTimeout, hreq, hwho, hfirst, hlive, hstage, hdue]

end

/-! ### The Innkeeper's epoch and the update of a directory (R256, R260) -/

section
variable {s : State}

theorem State.epochTick_admits (h : s.admits = true) :
    s.epochTick =
      (let u : State := { s with inn := { s.inn with epoch := s.msIndex } }
       if s.inn.epoch < s.msIndex then u.epochEnd else u) :=
  if_neg (by simp [h])

theorem State.dirRetry_due {id t : Nat} {l : Placement} (h : s.admits = true)
    (hpl : (s.inn.placements.find? fun l => l.id = id) = some l) (hretry : l.retryAt = some t) (hdue : t ≤ s.clk.core) :
    s.dirRetry id =
      (s.modPl id fun l => { l with retryAt := none }).sendPl (.placement id 0xC5) 0xC5 l.key 0 (BitVec.ofNat 11 (s.hashChip l.key))
        (plData (plWith l.word (if l.phase = .cancelling then kCancel else plKind l.word))) := by
  simp [State.dirRetry, hpl, hretry, h, Nat.not_lt.mpr hdue]

end

/-! ### NOTE and DIR entries are freed (R253) -/

theorem Watched.inn {s t : State} (h : Watched s t) : t.inn = s.inn := by
  obtain ⟨o, l, p, z, rfl⟩ := h
  rfl

theorem Watched.queues {s t : State} (h : Watched s t) : t.queues = s.queues := by
  obtain ⟨o, l, p, z, rfl⟩ := h
  rfl

/-- Freeing notes takes them from the lodging table and counts them. -/
theorem State.dropNotes_watched (s : State) (gone : Nat → Bool) :
    Watched (s.modInn fun i => { i with lodge := i.lodge.filter fun e => !(decide (e.2.kind = kNote) && gone e.2.until_) })
      (s.dropNotes gone) :=
  .ite (.refl _) (State.count_watched _ _ _ _ _ _)

theorem State.mem_lodge_dropNotes {s : State} {gone : Nat → Bool} {x : Nat × Lodge} :
    x ∈ (s.dropNotes gone).inn.lodge ↔ x ∈ s.inn.lodge ∧ ¬ (x.2.kind = kNote ∧ gone x.2.until_ = true) := by
  rw [(s.dropNotes_watched gone).inn]
  simp [State.modInn, imp_iff_not_or]

theorem State.dropNotes_placements (s : State) (gone : Nat → Bool) : (s.dropNotes gone).inn.placements = s.inn.placements := by
  rw [(s.dropNotes_watched gone).inn]
  rfl

theorem State.dropNotes_queues (s : State) (gone : Nat → Bool) : (s.dropNotes gone).queues = s.queues :=
  (s.dropNotes_watched gone).queues

theorem State.mem_lodge_freeDirs {s : State} {x : Nat × Lodge} :
    x ∈ s.freeDirs.inn.lodge ↔
      x ∈ s.inn.lodge ∧ ¬ (x.2.kind = kDir ∧ x.2.chip = s.chip ∧ x.2.repl = [] ∧ x.2.pin = false ∧ x.2.busy = false ∧
        x.2.until_ ≤ s.now.toNat) := by
  simp [State.freeDirs, State.modInn, imp_iff_not_or, or_assoc]

/-! ### The obligation -/

/-- Settles O49: each clause is one outcome of a timer, and the entries that go are those its filter names. -/
theorem requestTimers : Obligations.RequestTimers := by
  unfold Obligations.RequestTimers
  refine ⟨⟨fun i dt e s hrun hentry hsent hdue => ?onward, fun id dt t r s hrun hreq hstage hdue => ?backoff,
      fun id dt t q n r s hrun hreq hwho hfirst hlive hstage hdue => ?steward, fun dt s hadmits => ?epoch,
      fun dt s hrun => does_noteExpiry hrun dt, fun dt s hrun => does_dirHoldEnd hrun dt,
      fun id dt t l s hadmits hpl hretry hdue => ?directory⟩,
    fun dt s x hrun => ?notes, fun dt s x hrun => ?dirs⟩
  case onward =>
    rw [← State.passNs_core (State.running_curfew hrun)] at hdue
    exact does_of_eq (exec_onwardTimeout s dt i) (State.onwardExpire_overdue (s := s.passNs dt) hentry hsent hdue)
  case backoff =>
    rw [← State.passNs_core (State.running_curfew hrun)] at hdue
    exact does_of_eq (exec_busyRetry s dt id) (State.busyRetry_due (s := s.passNs dt) hreq hstage hdue)
  case steward =>
    rw [← State.passNs_core (State.running_curfew hrun)] at hdue
    exact does_of_eq (exec_stewardRequestTimeout s dt id)
      (State.stewardTimeout_due (s := s.passNs dt) hreq hwho hfirst hlive hstage hdue)
  case epoch =>
    have htick := State.epochTick_admits (s := s.passNs dt) hadmits
    exact ⟨fun hends => does_of_eq (exec_innkeeperEpoch s dt) (htick.trans (if_pos hends)),
      fun hlasts => does_of_eq (exec_innkeeperEpoch s dt) (htick.trans (if_neg (Nat.not_lt.mpr hlasts)))⟩
  case directory =>
    rw [← State.passNs_core (State.running_curfew (State.admits_running hadmits))] at hdue
    exact does_of_eq (exec_plDirRetry s dt id) (State.dirRetry_due (s := s.passNs dt) hadmits hpl hretry hdue)
  case notes =>
    exact ⟨_, does_noteExpiry hrun dt, State.mem_lodge_dropNotes.trans (by rw [decide_eq_true_eq]; rfl),
      State.dropNotes_placements _ _, State.dropNotes_queues _ _⟩
  case dirs => exact ⟨_, does_dirHoldEnd hrun dt, State.mem_lodge_freeDirs, rfl, rfl⟩

end Sys2Proof.Machine
end

section
/-! SUPPORT. Requests and completions that arrive (R214, R218, R225, R227, R234): the checks of an admitted request, RSIG, CPL and
CPL_D, outcome by outcome, and the obligations about them. -/

namespace Sys2Proof.Machine
open Sys2Proof.Safety

/-! ### The checks of a request (R214, R225) -/

section
variable {s : State} {p : Pkt} {src q : Nat}

theorem State.arriveCheck_malformed (h : p.wellLaid = false) : s.arriveCheck p = stMalformed := by
  simp [State.arriveCheck, h]

section
variable (hlaid : p.wellLaid = true)
include hlaid

theorem State.arriveCheck_boardFlat_stranger (hbf : p.isBf = true) (htag : s.tagPart p.ptag = none) : s.arriveCheck p = stDenied := by
  simp [State.arriveCheck, hlaid, hbf, htag]

theorem State.arriveCheck_boardFlat (hbf : p.isBf = true) (htag : s.tagPart p.ptag = some q) :
    s.arriveCheck p = if s.bfWindow q (bits p.addr 0 41) p.span p.right then stOk else stDenied := by
  simp [State.arriveCheck, hlaid, hbf, htag]

theorem State.arriveCheck_outside (hbf : p.isBf = false)
    (h : s.segValid (keySeg (pageKey p.addr)) = false ∨
      s.segPages (keySeg (pageKey p.addr)) * mib2 < bits p.addr 0 46 + p.span) : s.arriveCheck p = stBadaddr := by
  rcases h with h | h <;> simp [State.arriveCheck, hlaid, hbf, h]

section
variable (hbf : p.isBf = false) (hvalid : s.segValid (keySeg (pageKey p.addr)) = true)
  (hwithin : bits p.addr 0 46 + p.span ≤ s.segPages (keySeg (pageKey p.addr)) * mib2)
include hbf hvalid hwithin

theorem State.arriveCheck_rackGlobal_stranger (htag : s.tagPart p.ptag = none) : s.arriveCheck p = stDenied := by
  simp [State.arriveCheck, hlaid, hbf, hvalid, Nat.not_lt.mpr hwithin, htag]

theorem State.arriveCheck_rackGlobal (htag : s.tagPart p.ptag = some q) :
    s.arriveCheck p =
      if s.segRight q (keySeg (pageKey p.addr)) p.right = true ∧
        (p.writes = true → s.segRo (keySeg (pageKey p.addr)) = false) then stOk else stDenied := by
  simp [State.arriveCheck, hlaid, hbf, hvalid, Nat.not_lt.mpr hwithin, htag, imp_iff_not_or]

end
end

theorem State.admitReq_refuses {st : Nat} (h : s.arriveCheck p = st) (hst : st ≠ stOk) :
    s.admitReq src p = s.reply p { status := st } [] := by
  subst h
  exact if_pos hst

theorem State.admitReq_boardFlat (h : s.arriveCheck p = stOk) (hbf : p.isBf = true) :
    s.admitReq src p = s.perform src p [(bits p.addr 0 41, p.span)] none := by
  simp [State.admitReq, h, hbf]

theorem State.admitReq_rackGlobal (h : s.arriveCheck p = stOk) (hbf : p.isBf = false) : s.admitReq src p = s.lodgeCheck src p := by
  simp [State.admitReq, h, hbf]

end

/-- Settles O47: one check after another, each under the success of those before it. -/
theorem requestChecks : Obligations.RequestChecks := by
  unfold Obligations.RequestChecks
  refine fun src p s => ⟨fun hlaid => State.admitReq_refuses (State.arriveCheck_malformed hlaid) (by decide),
    fun hlaid hbf => ⟨fun htag => State.admitReq_refuses (State.arriveCheck_boardFlat_stranger hlaid hbf htag) (by decide),
      fun q htag => ?boardFlat⟩,
    fun hlaid hbf => ⟨fun h => State.admitReq_refuses (State.arriveCheck_outside hlaid hbf h) (by decide),
      fun hvalid hwithin =>
        ⟨fun htag => State.admitReq_refuses (State.arriveCheck_rackGlobal_stranger hlaid hbf hvalid hwithin htag) (by decide),
          fun q htag => ?rackGlobal⟩⟩⟩
  case boardFlat =>
    have hcheck := State.arriveCheck_boardFlat hlaid hbf htag
    exact ⟨fun hout => State.admitReq_refuses (hcheck.trans (if_neg (ne_true_of_eq_false hout))) (by decide),
      fun hin => State.admitReq_boardFlat (hcheck.trans (if_pos hin)) hbf⟩
  case rackGlobal =>
    have hcheck := State.arriveCheck_rackGlobal hlaid hbf hvalid hwithin htag
    exact ⟨fun hright => State.admitReq_refuses (hcheck.trans (if_neg hright)) (by decide),
      fun hright => State.admitReq_rackGlobal (hcheck.trans (if_pos hright)) hbf⟩

/-! ### RSIG at its target (R214, R234) -/

section
variable {s : State} {p : Pkt} {q : Nat}

theorem State.rsigRx_malformed (h : p.wellLaid = false) : s.rsigRx p = s.refuse p stMalformed := by
  simp [State.rsigRx, h]

theorem State.rsigRx_stranger (hlaid : p.wellLaid = true) (htag : s.tagPart p.ptag = none) : s.rsigRx p = s.refuse p stDenied := by
  simp [State.rsigRx, hlaid, htag]

/-- The object's owner may update it, and no other partition. -/
theorem State.rsigRx_tagged (hlaid : p.wellLaid = true) (htag : s.tagPart p.ptag = some q) :
    s.rsigRx p =
      (let o := bits (word64 p.data 0) 0 12
       if s.syncOwned o q then (s.update o (bit (word64 p.data 0) 12) (word64 p.data 8)).reply p {} [] else s.refuse p stDenied) := by
  simp [State.rsigRx, hlaid, htag]

end

/-- A packet in turn that its toll gate, if one meters it, lets pass. -/
theorem State.arrive_admitted {s : State} {src : Nat} {p : Pkt} {act : State → State}
    (horder : ((s.consume src p).orderCheck src p).1 = .pass)
    (hgreen : src < 24 ∧ p.sqm ≠ 3 ∧ (p.vc = 4 ∨ p.vc = 7) → (((s.consume src p).orderCheck src p).2.toll src p).2 = false) :
    s.arrive src p act =
      (let c := ((s.consume src p).orderCheck src p).2
       act (if src < 24 ∧ p.sqm ≠ 3 ∧ (p.vc = 4 ∨ p.vc = 7) then (c.toll src p).1 else c)) := by
  have hpass : (s.consume src p).orderCheck src p = (.pass, ((s.consume src p).orderCheck src p).2) := Prod.ext horder rfl
  by_cases hgate : src < 24 ∧ p.sqm ≠ 3 ∧ (p.vc = 4 ∨ p.vc = 7)
  · rw [State.arrive_gated hpass hgate, if_neg (by simp [hgreen hgate])]
    exact congrArg act (if_pos hgate).symm
  · rw [State.arrive_ungated hpass hgate]
    exact congrArg act (if_neg hgate).symm

/-! ### The rows of RSIG, CPL and CPL_D -/

theorem exec_rsigPacket {src : SrcId} {s : State} {p : Pkt} (h : s.admits = true)
    (hp : s.headOf src.val (fun o => o == 0x82) = some p) :
    exec (.rsigPacket src) s = .next (s.arrive src.val p fun t => t.rsigRx p).kick := by
  change Host.Outcome.next (s.rsigRow src.val).kick = _
  simp [State.rsigRow, h, hp]

theorem exec_cpl (src : SrcId) (s : State) : exec (.cpl src) s = .next (s.cplRow src.val 0x60).kick := rfl

theorem exec_cplD (src : SrcId) (s : State) : exec (.cplD src) s = .next (s.cplRow src.val 0x61).kick := rfl

/-- Settles O48: an RSIG that is admitted goes by its checks, and a completion at the head is taken. -/
theorem signalsAndCompletions : Obligations.SignalsAndCompletions := by
  unfold Obligations.SignalsAndCompletions
  refine ⟨fun src p s hadmits hp horder => ?rsig, fun src p s hadmits => ⟨fun hp => ?cpl, fun hp => ?cplD⟩⟩
  case rsig =>
    intro c gated u hgreen o
    have hrow : ∀ {v}, u.rsigRx p = v → Does (.rsigPacket src) s v := fun h =>
      does_of_eq (exec_rsigPacket hadmits hp) ((State.arrive_admitted horder hgreen).trans h)
    exact ⟨fun hlaid => hrow (State.rsigRx_malformed hlaid),
      fun q hlaid htag howned => hrow ((State.rsigRx_tagged hlaid htag).trans (if_pos howned)),
      fun q hlaid htag hother => hrow ((State.rsigRx_tagged hlaid htag).trans (if_neg (ne_true_of_eq_false hother))),
      fun hlaid htag => hrow (State.rsigRx_stranger hlaid htag)⟩
  case cpl => exact does_of_eq (exec_cpl src s) (State.cplRow_head hadmits hp)
  case cplD => exact does_of_eq (exec_cplD src s) (State.cplRow_head hadmits hp)

end Sys2Proof.Machine
end

section
/-! SUPPORT. The packets of placements, collectives and the sip path, and OB_WRITE (R251, R257 to R262, R333, R340, R373, R374, R446):
the rows that take them, what placements do to the lodging table, the data of a part, an operand that waits, and a slow-member
notice, with the obligation about them. -/

namespace Sys2Proof.Machine
open Sys2Proof.Safety

/-! ### Rows of placement packets (R257) -/

/-- The rows of placement packets and of OB_WRITE, each with its opcode and what it does. -/
def placementRows (src : SrcId) : List (Instr × Nat × (Pkt → State → State)) :=
  [(.plAsk src, 0xC0, fun p u => u.ask p), (.plMove src, 0xC1, fun p u => u.plMove p), (.plOpen src, 0xC2, fun p u => u.plOpen p),
    (.plData src, 0xC3, fun p u => u.plDataRx p), (.plCommit src, 0xC4, fun p u => u.plCommit p),
    (.plDir src, 0xC5, fun p u => u.plDir p), (.plDrop src, 0xC6, fun p u => u.plDrop p), (.obWrite src, 0xC8, fun p u => u.obRx p)]

theorem exec_plOpen_held {src : SrcId} {s : State} (h : s.openHeld src.val = true) : exec (.plOpen src) s = .next s.kick :=
  congrArg (fun t => Host.Outcome.next (State.kick t)) (if_pos h)

theorem exec_plOpen {src : SrcId} {s : State} (h : s.openHeld src.val = false) :
    exec (.plOpen src) s = .next (s.plRow src.val 0xC2 fun p u => u.plOpen p).kick :=
  congrArg (fun t => Host.Outcome.next (State.kick t)) (if_neg (ne_true_of_eq_false h))

theorem placementRows_exec {src : SrcId} {e : Instr × Nat × (Pkt → State → State)} (he : e ∈ placementRows src) {s : State}
    (hopen : e.2.1 = 0xC2 → s.openHeld src.val = false) : exec e.1 s = .next (s.plRow src.val e.2.1 e.2.2).kick := by
  simp only [placementRows, List.mem_cons, List.not_mem_nil, or_false] at he
  rcases he with rfl | rfl | rfl | rfl | rfl | rfl | rfl | rfl
  case inr.inr.inl => exact exec_plOpen (hopen rfl)
  all_goals rfl

/-! ### Rows of collective packets (R333) -/

/-- The rows of collective packets, each with its opcode, the packets of the rack level, and what it does. -/
def collectiveRows (src : SrcId) : List (Instr × Nat × (Pkt → Bool) × (Pkt → State → State)) :=
  [(.clBrd src, 0xA0, fun _ => false, fun p u => u.clData p false), (.clRing src, 0xA1, fun _ => true, fun p u => u.clData p true),
    (.clDone src, 0xA2, fun p => bit (word64 p.data 0) 33, fun p u => u.clDoneRx p),
    (.clReady src, 0xA3, fun p => bit p.tag 0, fun p u => u.clReadyRx p)]

theorem collectiveRows_exec {src : SrcId} {e : Instr × Nat × (Pkt → Bool) × (Pkt → State → State)} (he : e ∈ collectiveRows src)
    (s : State) : exec e.1 s = .next (s.clRow src.val e.2.1 e.2.2.1 e.2.2.2).kick := by
  simp only [collectiveRows, List.mem_cons, List.not_mem_nil, or_false] at he
  rcases he with rfl | rfl | rfl | rfl <;> rfl

section
variable {s : State} {src op : Nat} {p : Pkt} {rack : Pkt → Bool} {act : Pkt → State → State} (hadmits : s.admits = true)
  (hp : s.headOf src (fun o => decide (o = op ∨ o + 0x60 = op)) = some p)
include hadmits hp

theorem State.clRow_takes (h : (s.consume src p).clRefuse p (rack p) op = none) : s.clRow src op rack act = act p (s.consume src p) := by
  simp only [State.clRow, hadmits, hp, h]
  rfl

theorem State.clRow_discards {f : SmvStat → SmvStat} (h : (s.consume src p).clRefuse p (rack p) op = some f) :
    s.clRow src op rack act = (s.consume src p).modSmv f := by
  simp only [State.clRow, hadmits, hp, h]
  rfl

end

/-! ### Rows of sip packets (R366, R373) -/

/-- The rows of sip packets, each with its opcode and what it does. -/
def sipRows (src : SrcId) : List (Instr × Nat × (Pkt → State → State)) :=
  [(.sipRed src, 1, fun p u => u.sipOpRx p), (.sipBar src, 2, fun p u => u.sipOpRx p), (.sipScale src, 3, fun p u => u.sipOpRx p),
    (.sipAbort src, 4, fun p u => u.sipAbortRx p), (.sipSlow src, 5, fun p u => u.sipSlowRx p),
    (.sipTime src, 6, fun p u => u.sipTimeRx p)]

theorem sipRows_exec {src : SrcId} {e : Instr × Nat × (Pkt → State → State)} (he : e ∈ sipRows src) (s : State) :
    exec e.1 s = .next (s.sipRow src.val e.2.1 e.2.2).kick := by
  simp only [sipRows, List.mem_cons, List.not_mem_nil, or_false] at he
  rcases he with rfl | rfl | rfl | rfl | rfl | rfl <;> rfl

section
variable {s u : State} {src op : Nat} {p : Pkt} {act : Pkt → State → State} (hrun : s.running = true)
  (hp : s.headOf src (fun o => decide (o = op)) = some p) (hu : s.consume src p = u)
include hrun hp hu

theorem State.sipRow_takes (h : u.sipRefuse p = none)
    (hgen : ¬ (tRelay u.sipTab (sipGroup p) = true ∧ p.tag.extractLsb' 8 4 ≠ u.sipGen (sipGroup p))) :
    s.sipRow src op act = act p u := by
  subst hu
  simp only [State.sipRow, hrun, hp, h, if_neg hgen]
  rfl

/-- A relay adopts the GEN of a packet ahead of its own. -/
theorem State.sipRow_adopts (h : u.sipRefuse p = none)
    (hgen : tRelay u.sipTab (sipGroup p) = true ∧ p.tag.extractLsb' 8 4 ≠ u.sipGen (sipGroup p)) :
    s.sipRow src op act =
      act p (u.modGrp (sipGroup p) fun d => { d with relayGen := p.tag.extractLsb' 8 4, arr := [], relayUp := none }) := by
  subst hu
  simp only [State.sipRow, hrun, hp, h, if_pos hgen]
  rfl

theorem State.sipRow_discards {f : SmvStat → SmvStat} (h : u.sipRefuse p = some f) :
    s.sipRow src op act = (u.modSmv f).count 9 1 (sipGroup p) none := by
  subst hu
  simp only [State.sipRow, hrun, hp, h]
  rfl

end

/-! ### The lodging table (R251) -/

section
variable (s : State) {i j kind k : Nat}

theorem State.lodgeAt_putLodge (e : Lodge) : (s.putLodge i e).lodgeAt i = e := Tab.get_put_same _ _ _ _

theorem State.lodgeAt_putLodge_ne (e : Lodge) (h : j ≠ i) : (s.putLodge i e).lodgeAt j = s.lodgeAt j := Tab.get_put_ne _ _ h

theorem State.lodgeAt_freeLodge : (s.freeLodge kind k).lodgeAt i = if s.lodgeIdx kind k = some i then {} else s.lodgeAt i := by
  unfold State.freeLodge
  cases hidx : s.lodgeIdx kind k with
  | none => rfl
  | some j =>
    by_cases h : j = i
    · subst h
      exact (s.lodgeAt_putLodge {}).trans (if_pos rfl).symm
    · exact (s.lodgeAt_putLodge_ne {} (Ne.symm h)).trans (if_neg fun he => h (Option.some.inj he)).symm

theorem State.freeLodge_frame : (s.freeLodge kind k).reqs = s.reqs ∧ (s.freeLodge kind k).queues = s.queues := by
  unfold State.freeLodge
  split <;> exact ⟨rfl, rfl⟩

variable {s}

theorem State.lodgeIdx_holds (h : s.lodgeIdx kind k = some i) : (s.lodgeAt i).kind = kind ∧ (s.lodgeAt i).key = k :=
  of_decide_eq_true (List.find?_some (p := fun i => decide ((s.lodgeAt i).kind = kind ∧ (s.lodgeAt i).key = k)) h)

theorem State.entry_eq_some (h : s.lodgeIdx kind k = some i) : s.entry kind k = some (s.lodgeAt i) := congrArg (Option.map _) h

/-- An entry that can be made and does not stand has a free way of its set. -/
theorem State.canMake_freeWay (h : s.canMake kind k = vGranted) (hnone : s.lodgeIdx kind k = none) :
    ∃ i, ((List.range 8).map (8 * lodgeSet k + ·)).find? (fun i => decide ((s.lodgeAt i).kind = 0)) = some i := by
  rw [← Option.isSome_iff_exists, List.find?_isSome]
  by_contra hfull
  have hall : ((List.range 8).all fun w => decide ((s.lodgeAt (8 * lodgeSet k + w)).kind ≠ 0)) = true := by
    simpa using hfull
  have hfails : s.canMake kind k = if s.exceptQuota k ≤ s.exceptions (s.segOwner (keySeg k)) then vQuota else vSetFull := by
    simp only [State.canMake, hnone, hall]
    rfl
  rw [hfails] at h
  split at h <;> cases h

/-- Where an entry that can be made is put: where it stands, or in a free way of its set; `e` is what the change is made to. -/
theorem State.makeLodge_granted (h : s.canMake kind k = vGranted) :
    ∃ i e, (s.lodgeIdx kind k = some i ∨ s.lodgeIdx kind k = none ∧ i / 8 = lodgeSet k ∧ (s.lodgeAt i).kind = 0) ∧
      (e.kind = kind ∧ e.key = k) ∧ ∀ f, s.makeLodge kind k f = s.putLodge i (f e) := by
  cases hidx : s.lodgeIdx kind k with
  | some i => exact ⟨i, s.lodgeAt i, .inl rfl, State.lodgeIdx_holds hidx, fun f => by simp only [State.makeLodge, hidx]⟩
  | none =>
    obtain ⟨i, hi⟩ := State.canMake_freeWay h hidx
    have hset : i / 8 = lodgeSet k := by
      obtain ⟨w, hw, rfl⟩ := List.mem_map.mp (List.mem_of_find?_eq_some hi)
      have := List.mem_range.mp hw
      omega
    exact ⟨i, { kind := kind, key := k, part := BitVec.ofNat 4 (s.segOwner (keySeg k)) },
      .inr ⟨rfl, hset, of_decide_eq_true (List.find?_some (p := fun i => decide ((s.lodgeAt i).kind = 0)) hi)⟩,
      ⟨rfl, rfl⟩, fun f => by simp only [State.makeLodge, hidx, hi]⟩

end

/-! ### PL_OPEN, PL_COMMIT and PL_DROP (R260 to R262) -/

section
variable {s : State} {p : Pkt} (hcheck : s.plCheck p true = stOk)
include hcheck

/-- A PL_OPEN that is granted makes the entry, with the lowest free frame of its pool. -/
theorem State.plOpen_granted {f : Nat} (hhome : s.comesHome (pageKey p.addr) (word64 p.data 0) = false)
    (hquota : s.overQuota (pageKey p.addr) = false) (hmake : s.canMake (plEntry (word64 p.data 0)) (pageKey p.addr) = vGranted)
    (hframe : s.freeFrame (plSpad (word64 p.data 0)) = some f) (hhot : plSpad (word64 p.data 0) = true ∨ s.pins.hot = 0)
    (hown : plEntry (word64 p.data 0) = kGuest → s.ownMove (pageKey p.addr) = none) :
    s.plOpen p =
      (s.makeLodge (plEntry (word64 p.data 0)) (pageKey p.addr) fun e =>
        { e with busy := true, spad := plSpad (word64 p.data 0), chip := BitVec.ofNat 11 (s.hashChip (pageKey p.addr))
                 frame := BitVec.ofNat 20 f }).reply p {} (leBytes 8 vGranted) := by
  have hcool : (!plSpad (word64 p.data 0) && decide (s.pins.hot ≠ 0)) = false := by
    rcases hhot with h | h <;> simp [h]
  have hmove : (if plEntry (word64 p.data 0) = kGuest then s.ownMove (pageKey p.addr) else none) = none :=
    ite_eq_right_iff.mpr hown
  simp only [State.plOpen, hcheck, hhome, hquota, hmake, hframe, hcool, hmove]
  simp

section
variable (hhome : s.comesHome (pageKey p.addr) (word64 p.data 0) = false)
  (hown : plEntry (word64 p.data 0) = kGuest → s.ownMove (pageKey p.addr) = none)
include hhome hown

/-- A PL_COMMIT of a page that stays away, and that does not move between the pools of this chip, goes by the BUSY entry. -/
theorem State.plCommit_away :
    s.plCommit p =
      if ((s.entry (plEntry (word64 p.data 0)) (pageKey p.addr)).filter (·.busy)).isSome then
        (s.modLodge (plEntry (word64 p.data 0)) (pageKey p.addr) fun e => { e with busy := false }).reply p {} []
      else s.refuse p stBadaddr := by
  have hmove : (if plEntry (word64 p.data 0) = kGuest then s.ownMove (pageKey p.addr) else none) = none :=
    ite_eq_right_iff.mpr hown
  simp only [State.plCommit, hcheck, hhome, hmove]
  cases (s.entry (plEntry (word64 p.data 0)) (pageKey p.addr)).filter (·.busy) <;> rfl

theorem State.plCommit_clears {i : Nat} (hidx : s.lodgeIdx (plEntry (word64 p.data 0)) (pageKey p.addr) = some i)
    (hbusy : (s.lodgeAt i).busy = true) : s.plCommit p = (s.putLodge i { s.lodgeAt i with busy := false }).reply p {} [] := by
  rw [State.plCommit_away hcheck hhome hown, if_pos (by simp [State.entry_eq_some hidx, hbusy])]
  simp only [State.modLodge, hidx]

theorem State.plCommit_refused
    (hidle : ∀ i, s.lodgeIdx (plEntry (word64 p.data 0)) (pageKey p.addr) = some i → (s.lodgeAt i).busy = false) :
    s.plCommit p = s.refuse p stBadaddr := by
  rw [State.plCommit_away hcheck hhome hown, if_neg]
  cases hidx : s.lodgeIdx (plEntry (word64 p.data 0)) (pageKey p.addr) with
  | none => simp [State.entry, hidx]
  | some i => simp [State.entry_eq_some hidx, hidle i hidx]

end

theorem State.plDrop_replica (h : isReplKind (plKind (word64 p.data 0)) = true ∨ plKind (word64 p.data 0) = kUnrepl) :
    s.plDrop p = (s.freeLodge kReplica (pageKey p.addr)).reply p {} [] := by
  simp [State.plDrop, hcheck, h]

theorem State.plDrop_guest (hrepl : isReplKind (plKind (word64 p.data 0)) = false) (hunrepl : plKind (word64 p.data 0) ≠ kUnrepl)
    (hsrc : p.src ≠ s.chip) (hhome : s.comesHome (pageKey p.addr) (word64 p.data 0) = false) :
    s.plDrop p = (s.freeLodge kGuest (pageKey p.addr)).reply p {} [] := by
  simp [State.plDrop, hcheck, hrepl, hunrepl, hsrc, hhome]

end

/-! ### What sending leaves: of the groups, the queues, the clocks and the registers -/

/-- `t` has the groups, queues, clocks and plain registers of `s`. -/
structure SameGroups (s t : State) : Prop where
  groups : t.groups = s.groups
  queues : t.queues = s.queues
  clk : t.clk = s.clk
  win : t.win = s.win

theorem SameGroups.refl (s : State) : SameGroups s s := ⟨rfl, rfl, rfl, rfl⟩

theorem SameGroups.trans {s t u : State} (h : SameGroups s t) (h' : SameGroups t u) : SameGroups s u :=
  ⟨h'.groups.trans h.groups, h'.queues.trans h.queues, h'.clk.trans h.clk, h'.win.trans h.win⟩

theorem Watched.sameGroups {s t : State} (h : Watched s t) : SameGroups s t := by
  obtain ⟨_, _, _, _, rfl⟩ := h
  exact ⟨rfl, rfl, rfl, rfl⟩

theorem SameGroups.ite {s t u : State} {c : Prop} [Decidable c] (ht : SameGroups s t) (hu : SameGroups s u) :
    SameGroups s (if c then t else u) := by
  split <;> assumption

theorem SameGroups.grp {s t : State} (h : SameGroups s t) (g : Nat) : t.grp g = s.grp g := by simp only [State.grp, h.groups]

theorem SameGroups.stall {s t : State} (h : SameGroups s t) : t.stall = s.stall := by simp only [State.stall, State.reg, h.win]

theorem foldl_sameGroups {α : Type} (l : List α) {f : State → α → State} (s : State) (hf : ∀ a r, SameGroups r (f r a)) :
    SameGroups s (l.foldl f s) := by
  induction l generalizing s with
  | nil => exact .refl s
  | cons a l ih => exact (hf a s).trans (ih (f s a))

/-! ### Carrier commands leave the groups as they are -/

theorem State.issueAcc_sameGroups (s : State) (a : Acc) : SameGroups s (s.issueAcc a) := by
  unfold State.issueAcc
  dsimp only
  have hcredits : SameGroups s (a.channels.foldl (fun s c => s.modCrd a.port c (· - 1)) s) :=
    foldl_sameGroups _ _ fun c r => ⟨rfl, rfl, rfl, rfl⟩
  refine .trans (.ite ?write ?read) (State.emits_watched _ _).sameGroups
  case read => exact hcredits.trans ⟨rfl, rfl, rfl, rfl⟩
  case write =>
    split
    · refine .trans ?_ (State.count_watched _ _ _ _ _ _).sameGroups
      exact hcredits.trans ⟨rfl, rfl, rfl, rfl⟩
    · exact hcredits.trans ⟨rfl, rfl, rfl, rfl⟩

theorem State.tryIssue_sameGroups {s t : State} {a : Acc} (h : s.tryIssue a = some t) : SameGroups s t := by
  unfold State.tryIssue at h
  split at h
  · cases h
    refine .trans ?_ (State.issueAcc_sameGroups _ a)
    exact ⟨rfl, rfl, rfl, rfl⟩
  · cases h

theorem issueAll_sameGroups {l : List Acc} {s t : State} (h : issueAll l s = some t) : SameGroups s t := by
  induction l generalizing s with
  | nil =>
    cases h
    exact .refl _
  | cons a l ih =>
    obtain ⟨u, hu, ht⟩ := Option.bind_eq_some_iff.mp h
    exact (State.tryIssue_sameGroups hu).trans (ih ht)

theorem pumpGo_sameGroups (l : List Acc) (s : State) : SameGroups s (pumpGo l s) := by
  induction l generalizing s with
  | nil => exact .refl s
  | cons a l ih =>
    refine .trans (.ite ?_ (.refl s)) (ih _)
    cases h : issueAll (s.together a) s with
    | none => exact .refl s
    | some t => exact issueAll_sameGroups h

theorem State.startJob_sameGroups (s : State) (what : JobFor) (reads : List (Nat × Nat)) (writes : List (Nat × Bytes)) (key : Nat)
    (atom obs : Bool) : SameGroups s (s.startJob what reads writes key atom obs) := by
  refine .trans ?_ (pumpGo_sameGroups _ _)
  exact ⟨rfl, rfl, rfl, rfl⟩

/-! ### Notices leave the groups as they are -/

theorem State.sipLink_sameGroups (s : State) (chip : Nat) : SameGroups s (s.sipLink chip).2 := by
  unfold State.sipLink
  dsimp only
  split
  · exact .refl s
  · exact ⟨rfl, rfl, rfl, rfl⟩

theorem State.sipSend_sameGroups (s : State) (p : Pkt) : SameGroups s (s.sipSend p) := by
  have hlink := s.sipLink_sameGroups p.dst.toNat
  unfold State.sipSend
  dsimp only
  split
  · exact .ite (hlink.trans ⟨rfl, rfl, rfl, rfl⟩) (.ite hlink (hlink.trans ⟨rfl, rfl, rfl, rfl⟩))
  · exact hlink

theorem State.sipSpread_sameGroups (s : State) (g : Nat) (op : BitVec 8) (ctl : Word) (from_ : Option Nat) :
    SameGroups s (s.sipSpread g op ctl from_) :=
  .ite (.refl s) (foldl_sameGroups _ _ fun _ r => r.sipSend_sameGroups _)

/-! ### Groups and their chunks -/

section
variable (s : State) {g j num : Nat}

theorem State.grp_modGrp (f : Grp → Grp) : (s.modGrp g f).grp g = f (s.grp g) := Tab.get_put_same _ _ _ _

theorem State.grp_modGrp_ne (f : Grp → Grp) (h : j ≠ g) : (s.modGrp g f).grp j = s.grp j := Tab.get_put_ne _ _ h

theorem State.slot_modSlot {f : SChunk → SChunk} (hf : ∀ k, (f k).num = k.num) :
    ((s.modSlot g num f).grp g).slot num = ((s.grp g).slot num).map f := by
  rw [State.modSlot, State.grp_modGrp]
  unfold Grp.slot
  induction (s.grp g).slots with
  | nil => rfl
  | cons k l ih => by_cases hk : k.num = num <;> simp_all

variable {s}

theorem State.work_slot {w : Work} (hw : s.work_ g num = some w) : (s.grp g).slot num = some w.k := by
  unfold State.work_ at hw
  split at hw
  case h_1 hslot =>
    cases hw
    exact hslot
  case h_2 => cases hw

/-- A contribution whose CL_DONE has not come is not complete. -/
theorem State.clComplete_open {key : Nat} (hopen : ∀ k, (s.grp g).slot num = some k → (k.brd.get {} key).done = none) :
    s.clComplete g num false key = s := by
  unfold State.clComplete
  cases hw : s.work_ g num with
  | none => rfl
  | some w => simp [hopen w.k (State.work_slot hw)]

end

/-- A chunk with `n` more bytes of the sender in column `j`, on their way to staging. -/
def SChunk.takePart (k : SChunk) (j n : Nat) : SChunk :=
  { k with wr := k.wr + 1, brd := k.brd.put {} j { k.brd.get {} j with bytes := (k.brd.get {} j).bytes + n } }

theorem SChunk.takePart_num (j n : Nat) (k : SChunk) : (k.takePart j n).num = k.num := rfl

theorem SChunk.takePart_done (k : SChunk) (j n : Nat) : ((k.takePart j n).brd.get {} j).done = (k.brd.get {} j).done := by
  simp [SChunk.takePart]

/-- The data of a part counts in the contribution of its sender and goes to staging; without its CL_DONE nothing is complete. -/
theorem State.clData_part {s t : State} {p : Pkt} {w : Work} {b : Bytes} (hw : s.work_ (clGroup p) (clChunk p) = some w)
    (hdone : (w.k.brd.get {} (clSub p)).done = none)
    (hb : b = slice p.data 0 (min p.data.length ((w.part (if w.c.agt then clSub p else w.col)).2 - clOfs p)))
    (ht : t = (s.modSlot (clGroup p) (clChunk p) fun k => k.takePart (clSub p) p.data.length).startJob
      (.smv (clGroup p) (clChunk p) .stage 0) []
      (if b = [] then [] else [(regionB w.t (clGroup p) w.k w.col (clSub p) + clOfs p, b)])) :
    s.clData p false = t := by
  have hopen : ∀ k, (t.grp (clGroup p)).slot (clChunk p) = some k → (k.brd.get {} (clSub p)).done = none := by
    intro k hk
    rw [ht, (State.startJob_sameGroups _ _ _ _ _ _ _).grp, State.slot_modSlot _ (SChunk.takePart_num _ _), State.work_slot hw] at hk
    cases hk
    exact (w.k.takePart_done _ _).trans hdone
  calc s.clData p false = t.clComplete (clGroup p) (clChunk p) false (clSub p) := by
        subst hb ht
        simp only [State.clData, hw]
        rfl
    _ = t := State.clComplete_open hopen

/-! ### Operands and notices of the sip path (R340, R374) -/

theorem State.sipGo_idle {s : State} {g : Nat} (h : (s.grp g).sipOp = none) : s.sipGo g = s := by
  simp [State.sipGo, h]

/-- An operand of an operation that this member has not begun is kept at its child's place. -/
theorem State.sipOpRx_waits {s : State} {p : Pkt} {i : Nat} (hup : sipDown p = false)
    (hchild : s.childIdx (sipGroup p) p.src.toNat = some i) (hmember : tRelay s.sipTab (sipGroup p) = false)
    (hidle : (s.grp (sipGroup p)).sipOp = none) :
    s.sipOpRx p = s.modGrp (sipGroup p) fun d =>
      { d with arr := Tab.insert d.arr i { op := p.op, ctl := sipCtl p, seq := sipSeqOf p, data := sipData p } } := by
  generalize ht : (s.modGrp (sipGroup p) fun d =>
    { d with arr := Tab.insert d.arr i { op := p.op, ctl := sipCtl p, seq := sipSeqOf p, data := sipData p } }) = t
  have hrest : (t.grp (sipGroup p)).sipOp = none := by
    rw [← ht, State.grp_modGrp]
    exact hidle
  have hrelay : tRelay t.sipTab (sipGroup p) = false := by
    rw [← ht]
    exact hmember
  simp [State.sipOpRx, hup, hchild, ht, hrest, hrelay, State.sipGo_idle hrest]

/-- A deadline as a slow-member notice moves it (R340). -/
def State.slowed (s : State) (t : Nat) : Nat :=
  min (max (t + s.stall) (s.clk.core + ms5 100)) (max (s.clk.core + 4 * s.stall) (s.clk.core + ms5 100))

theorem SameGroups.slowed {s t : State} (h : SameGroups s t) : t.slowed = s.slowed := by
  funext x
  simp only [State.slowed, h.stall, h.clk]

theorem State.slowLimit_eq (s : State) (g : Nat) : s.slowLimit g = s.modGrp g fun d => { d with limit := d.limit.map s.slowed } := rfl

/-- A slow-member notice moves the deadline of its group, and leaves the other groups and the queues. -/
theorem State.sipSlowRx_moves (s : State) (p : Pkt) :
    ((s.sipSlowRx p).grp (sipGroup p)).limit = (s.grp (sipGroup p)).limit.map s.slowed ∧
      (∀ g, g ≠ sipGroup p → (s.sipSlowRx p).grp g = s.grp g) ∧ (s.sipSlowRx p).queues = s.queues := by
  have hsent := s.sipSpread_sameGroups (sipGroup p) 5 (sipCtl p) (some p.src.toNat)
  unfold State.sipSlowRx
  rw [State.slowLimit_eq, State.grp_modGrp, hsent.grp, hsent.slowed]
  exact ⟨rfl, fun g hg => (State.grp_modGrp_ne _ _ hg).trans (hsent.grp g), hsent.queues⟩

/-! ### The obligation -/

/-- Settles O50: each row comes to what its packet does, and each packet's clauses are its outcomes. -/
theorem packetRows : Obligations.PacketRows := by
  unfold Obligations.PacketRows
  refine ⟨fun src s hadmits e he p hp hopen =>
      does_of_eq (placementRows_exec he hopen) (State.plRow_head hadmits hp e.2.2),
    fun src s hheld => does_of_eq (exec_plOpen_held hheld) rfl,
    fun src s hadmits e he p hp => ⟨fun htake => does_of_eq (collectiveRows_exec he s) (State.clRow_takes hadmits hp htake),
      fun f hdrop => does_of_eq (collectiveRows_exec he s) (State.clRow_discards hadmits hp hdrop)⟩,
    fun src s hrun e he p hp => ⟨fun htake hgen => does_of_eq (sipRows_exec he s) (State.sipRow_takes hrun hp rfl htake hgen),
      fun htake hgen => does_of_eq (sipRows_exec he s) (State.sipRow_adopts hrun hp rfl htake hgen),
      fun f hdrop => does_of_eq (sipRows_exec he s) (State.sipRow_discards hrun hp rfl hdrop)⟩,
    fun p s hcheck => ⟨?opened, ?committed, ?dropped⟩,
    fun p w s hw hdone => State.clData_part hw hdone rfl rfl,
    fun p i s hup hchild hmember hidle => State.sipOpRx_waits hup hchild hmember hidle,
    fun p s => s.sipSlowRx_moves p⟩
  case opened =>
    intro f hhome hquota hmake hframe hhot hown
    obtain ⟨i, e, hplace, ⟨hkind, hkey⟩, hput⟩ := State.makeLodge_granted hmake
    refine ⟨_, i, (State.plOpen_granted hcheck hhome hquota hmake hframe hhot hown).trans (by rw [hput]), hplace, ?_⟩
    rw [State.lodgeAt_putLodge]
    exact ⟨hkind, hkey, rfl, rfl, rfl, fun j hj => State.lodgeAt_putLodge_ne _ _ hj, rfl, rfl⟩
  case committed =>
    exact fun hhome hown => ⟨fun i hidx hbusy => ⟨_, State.plCommit_clears hcheck hhome hown hidx hbusy, State.lodgeAt_putLodge _ _,
      fun j hj => State.lodgeAt_putLodge_ne _ _ hj, rfl, rfl⟩, State.plCommit_refused hcheck hhome hown⟩
  case dropped =>
    rintro kind (⟨rfl, hrepl⟩ | ⟨rfl, hrepl, hunrepl, hsrc, hhome⟩)
    · exact ⟨_, State.plDrop_replica hcheck hrepl, fun i => State.lodgeAt_freeLodge _, State.freeLodge_frame _⟩
    · exact ⟨_, State.plDrop_guest hcheck hrepl hunrepl hsrc hhome, fun i => State.lodgeAt_freeLodge _, State.freeLodge_frame _⟩

end Sys2Proof.Machine
end

section
/-! SUPPORT. The instruction word and the fields an instruction does not use (R282, R297): a word reads back as its class, its opcode
and its fields, and every instruction but those of lanes and links checks its unused fields first, with the obligation about them. -/

namespace Sys2Proof.Machine
open Sys2Proof.Safety

/-! ### The instruction word (Table 12.1) -/

section
variable {cls op : Nat} {w : Fields}

theorem wordFields_insnWord : wordFields (insnWord cls op w) = w := by
  obtain ⟨d, a, b, c, f, x, y⟩ := w
  simp only [wordFields, insnWord, Fields.mk.injEq]
  refine ⟨?d, ?a, ?b, ?c, ?f, ?x, ?y⟩
  all_goals
    ext i hi
    simp only [BitVec.getElem_extractLsb', BitVec.getLsbD_append]
    grind

theorem insnWord_class : (insnWord cls op w).extractLsb' 124 4 = BitVec.ofNat 4 cls := by
  ext i hi
  simp only [insnWord, BitVec.getElem_extractLsb', BitVec.getLsbD_append]
  grind

theorem insnWord_op : (insnWord cls op w).extractLsb' 116 8 = BitVec.ofNat 8 op := by
  ext i hi
  simp only [insnWord, BitVec.getElem_extractLsb', BitVec.getLsbD_append]
  grind

theorem wordClass_insnWord (h : cls < 16) : wordClass (insnWord cls op w) = cls := by
  have hbits := congrArg BitVec.toNat (insnWord_class (cls := cls) (op := op) (w := w))
  rwa [BitVec.extractLsb'_toNat, BitVec.toNat_ofNat, Nat.mod_eq_of_lt h] at hbits

theorem wordOp_insnWord (h : op < 256) : wordOp (insnWord cls op w) = op := by
  have hbits := congrArg BitVec.toNat (insnWord_op (cls := cls) (op := op) (w := w))
  rwa [BitVec.extractLsb'_toNat, BitVec.toNat_ofNat, Nat.mod_eq_of_lt h] at hbits

end

/-! ### An instruction checks the fields it does not use first (R282)

`h` says that such a field is not zero. Some checks ask for more than that; the first one to fail is then the same. -/

section
variable {s : State} {q : Nat} {w : Fields}

theorem State.legal_unused {k : State → State} {only c : Bool} (h : only = false) (hc : c = true → only = true) :
    s.legal q c k = s.execFault q qfIllegal :=
  State.legal_no (Bool.eq_false_iff.mpr fun htrue => Bool.false_ne_true (h.symm.trans (hc htrue))) s q k

theorem insnPuti_unused (h : w.only true false true false 0 0x3F = false) : insnPuti q w s = s.execFault q qfIllegal := by
  unfold insnPuti
  exact State.legal_unused h (by simp +contextual)

theorem State.atomic_unused {op : AtomOp} (h : w.only true true true (decide (op = .acas)) 0 0x1F3 = false) :
    s.atomic op q w = s.execFault q qfIllegal := by
  unfold State.atomic
  exact State.legal_unused h (by simp +contextual)

theorem insnWait_unused (h : w.only false true false false 7 0xFFF yAll = false) : insnWait q w s = s.execFault q qfIllegal := by
  unfold insnWait
  exact State.legal_unused h (by simp +contextual)

theorem State.collective_unused {agt : Bool} (h : w.only false true true true 0 0x1F1FF 0xFFF = false) :
    s.collective agt q w = s.execFault q qfIllegal := by
  unfold State.collective
  exact State.legal_unused h (by simp +contextual)

theorem insnSipred_unused (h : w.only true true false false 3 0x3FFFF = false) : insnSipred q w s = s.execFault q qfIllegal := by
  unfold insnSipred
  exact State.legal_unused h (by simp +contextual)

theorem insnSipbar_unused (h : w.only false false false false 0 0x1FF = false) : insnSipbar q w s = s.execFault q qfIllegal := by
  unfold insnSipbar
  exact State.legal_no h s q _

theorem insnScale_unused (h : w.only true true true true 0 0xF1FF = false) : insnScale q w s = s.execFault q qfIllegal := by
  unfold insnScale
  exact State.legal_unused h (by simp +contextual)

theorem State.place1_unused {kind : Nat} (h : w.only true true (decide (kind ≠ kUnpin)) false 3 0x7FF0FFF = false) :
    s.place1 kind q w = s.execFault q qfIllegal := by
  unfold State.place1
  exact State.legal_no h s q _

theorem insnTload_unused (h : w.only false true true true 0 0xFF = false) : insnTload q w s = s.execFault q qfIllegal := by
  unfold insnTload
  exact State.legal_unused h (by simp +contextual)

theorem insnTcommit_unused (h : w.only false false false false 0 0xFF = false) : insnTcommit q w s = s.execFault q qfIllegal := by
  unfold insnTcommit
  exact State.legal_unused h (by simp +contextual)

end

/-! ### The instructions by class (Table 12.5)

The rows of a class stand in a list of their own: instruction, class, opcode, and the fields that may be other than zero. -/

/-- The row `e` of an instruction, its class, its opcode and whether its unused fields are zero: its command runs it as the word of
that class and opcode, and it faults ILLEGAL where they are not. -/
def FaultsUnused (n : StwId) (w : Fields) (e : Instr × Nat × Nat × Bool) : Prop :=
  ∀ s : State, ∃ body, exec e.1 s = .next (s.insnRow n.val (insnWord e.2.1 e.2.2.1 w) body).kick ∧
    (e.2.2.2 = false → ∀ q t, body q t = t.execFault q qfIllegal)

theorem FaultsUnused.of_body {n : StwId} {w : Fields} {c : Instr} {cls op : Nat} {only : Bool} {body : Nat → State → State}
    (hexec : ∀ s, exec c s = .next (s.insnRow n.val (insnWord cls op w) body).kick)
    (hbody : only = false → ∀ q t, body q t = t.execFault q qfIllegal) : FaultsUnused n w (c, cls, op, only) :=
  fun s => ⟨body, hexec s, hbody⟩

theorem FaultsUnused.of_legal {n : StwId} {w : Fields} {c : Instr} {cls op : Nat} {only : Bool} {k : Nat → State → State}
    (hexec : ∀ s, exec c s = .next (s.insnRow n.val (insnWord cls op w) fun q t => t.legal q only (k q)).kick) :
    FaultsUnused n w (c, cls, op, only) :=
  .of_body hexec fun h q t => State.legal_no h t q _

theorem FaultsUnused.does {n : StwId} {q : Nat} {w : Fields} {e : Instr × Nat × Nat × Bool} {s : State} (h : FaultsUnused n w e)
    (hrun : s.pick n.val = .run q (insnWord e.2.1 e.2.2.1 w)) (hno : e.2.2.2 = false) :
    Does e.1 s ((s.begin n.val q (insnWord e.2.1 e.2.2.1 w)).execFault q qfIllegal) := by
  obtain ⟨body, hexec, hbody⟩ := h s
  exact does_of_eq hexec ((State.insnRow_run hrun body).trans (hbody hno q _))

def controlChecks (n : StwId) (w : Fields) : List (Instr × Nat × Nat × Bool) :=
  [(.setg n w, 0, 0, w.only true false false false 0 0 yAll), (.addg n w, 0, 1, w.only true true true false 1 0 yAll),
    (.jmp n w, 0, 2, w.only false false false false 0 destMask), (.bnz n w, 0, 3, w.only false true false false 1 destMask yAll),
    (.loop n w, 0, 4, w.only false true false false 0 destMask), (.halt n w, 0, 5, w.only false false false false 0 0),
    (.yield n w, 0, 6, w.only false false false false 0 0)]

def moveChecks (n : StwId) (w : Fields) : List (Instr × Nat × Nat × Bool) :=
  [(.copy n w, 1, 0, w.only true true true false 0 0), (.put n w, 1, 1, w.only true true true false 0 0),
    (.get n w, 1, 2, w.only true true true false 0 0), (.puti n w, 1, 3, w.only true false true false 0 0x3F),
    (.fill n w, 1, 4, w.only true true true false 1 0)]

def atomicChecks (n : StwId) (w : Fields) : List (Instr × Nat × Nat × Bool) :=
  [(.aadd n w, 2, 0, w.only true true true false 0 0x1F3), (.amin n w, 2, 1, w.only true true true false 0 0x1F3),
    (.amax n w, 2, 2, w.only true true true false 0 0x1F3), (.aand n w, 2, 3, w.only true true true false 0 0x1F3),
    (.aor n w, 2, 4, w.only true true true false 0 0x1F3), (.axor n w, 2, 5, w.only true true true false 0 0x1F3),
    (.aswp n w, 2, 6, w.only true true true false 0 0x1F3), (.acas n w, 2, 7, w.only true true true true 0 0x1F3)]

def syncChecks (n : StwId) (w : Fields) : List (Instr × Nat × Nat × Bool) :=
  [(.sig n w, 3, 0, w.only false true false false 3 0xFFF yAll), (.wait n w, 3, 1, w.only false true false false 7 0xFFF yAll),
    (.rsig n w, 3, 2, w.only false true false false 3 0x7FF0FFF yAll), (.fence n w, 3, 3, w.only false false false false 0 0)]

def groupChecks (n : StwId) (w : Fields) : List (Instr × Nat × Nat × Bool) :=
  [(.rsc n w, 4, 0, w.only false true true true 0 0x1F1FF 0xFFF), (.agt n w, 4, 1, w.only false true true true 0 0x1F1FF 0xFFF),
    (.sipred n w, 4, 2, w.only true true false false 3 0x3FFFF), (.sipbar n w, 4, 3, w.only false false false false 0 0x1FF),
    (.scale n w, 4, 4, w.only true true true true 0 0xF1FF)]

def placeChecks (n : StwId) (w : Fields) : List (Instr × Nat × Nat × Bool) :=
  [(.pin n w, 5, 0, w.only true true true false 3 0x7FF0FFF), (.unpin n w, 5, 1, w.only true true false false 3 0x7FF0FFF),
    (.migr n w, 5, 2, w.only true true true false 3 0x7FF0FFF), (.repl n w, 5, 3, w.only true true true false 3 0x7FF0FFF),
    (.unrepl n w, 5, 4, w.only true true true false 3 0x7FF0FFF), (.hint n w, 5, 5, w.only false true true false 0 0)]

def tableChecks (n : StwId) (w : Fields) : List (Instr × Nat × Nat × Bool) :=
  [(.tload n w, 6, 0, w.only false true true true 0 0xFF), (.tcommit n w, 6, 1, w.only false false false false 0 0xFF)]

def traceChecks (n : StwId) (w : Fields) : List (Instr × Nat × Nat × Bool) :=
  [(.taste n w, 8, 0, w.only false true false false 0 (2 ^ 32 - 1)), (.mark n w, 8, 1, w.only false true false false 0 (2 ^ 32 - 1))]

section
variable (n : StwId) (w : Fields)

theorem controlChecks_faultUnused : ∀ e ∈ controlChecks n w, FaultsUnused n w e := by
  simp only [controlChecks, List.forall_mem_cons]
  exact ⟨.of_legal fun _ => rfl, .of_legal fun _ => rfl, .of_legal fun _ => rfl, .of_legal fun _ => rfl, .of_legal fun _ => rfl,
    .of_legal fun _ => rfl, .of_legal fun _ => rfl, List.forall_mem_nil _⟩

theorem moveChecks_faultUnused : ∀ e ∈ moveChecks n w, FaultsUnused n w e := by
  simp only [moveChecks, List.forall_mem_cons]
  exact ⟨.of_legal fun _ => rfl, .of_legal fun _ => rfl, .of_legal fun _ => rfl, .of_body (fun _ => rfl) fun h _ _ => insnPuti_unused h,
    .of_legal fun _ => rfl, List.forall_mem_nil _⟩

theorem atomicChecks_faultUnused : ∀ e ∈ atomicChecks n w, FaultsUnused n w e := by
  simp only [atomicChecks, List.forall_mem_cons]
  exact ⟨.of_body (fun _ => rfl) fun h _ _ => State.atomic_unused h, .of_body (fun _ => rfl) fun h _ _ => State.atomic_unused h,
    .of_body (fun _ => rfl) fun h _ _ => State.atomic_unused h, .of_body (fun _ => rfl) fun h _ _ => State.atomic_unused h,
    .of_body (fun _ => rfl) fun h _ _ => State.atomic_unused h, .of_body (fun _ => rfl) fun h _ _ => State.atomic_unused h,
    .of_body (fun _ => rfl) fun h _ _ => State.atomic_unused h, .of_body (fun _ => rfl) fun h _ _ => State.atomic_unused h,
    List.forall_mem_nil _⟩

theorem syncChecks_faultUnused : ∀ e ∈ syncChecks n w, FaultsUnused n w e := by
  simp only [syncChecks, List.forall_mem_cons]
  exact ⟨.of_legal fun _ => rfl, .of_body (fun _ => rfl) fun h _ _ => insnWait_unused h, .of_legal fun _ => rfl, .of_legal fun _ => rfl,
    List.forall_mem_nil _⟩

theorem groupChecks_faultUnused : ∀ e ∈ groupChecks n w, FaultsUnused n w e := by
  simp only [groupChecks, List.forall_mem_cons]
  exact ⟨.of_body (fun _ => rfl) fun h _ _ => State.collective_unused h, .of_body (fun _ => rfl) fun h _ _ => State.collective_unused h,
    .of_body (fun _ => rfl) fun h _ _ => insnSipred_unused h, .of_body (fun _ => rfl) fun h _ _ => insnSipbar_unused h,
    .of_body (fun _ => rfl) fun h _ _ => insnScale_unused h, List.forall_mem_nil _⟩

theorem placeChecks_faultUnused : ∀ e ∈ placeChecks n w, FaultsUnused n w e := by
  simp only [placeChecks, List.forall_mem_cons]
  exact ⟨.of_body (fun _ => rfl) fun h _ _ => State.place1_unused h, .of_body (fun _ => rfl) fun h _ _ => State.place1_unused h,
    .of_body (fun _ => rfl) fun h _ _ => State.place1_unused h, .of_body (fun _ => rfl) fun h _ _ => State.place1_unused h,
    .of_body (fun _ => rfl) fun h _ _ => State.place1_unused h, .of_legal fun _ => rfl, List.forall_mem_nil _⟩

theorem tableChecks_faultUnused : ∀ e ∈ tableChecks n w, FaultsUnused n w e := by
  simp only [tableChecks, List.forall_mem_cons]
  exact ⟨.of_body (fun _ => rfl) fun h _ _ => insnTload_unused h, .of_body (fun _ => rfl) fun h _ _ => insnTcommit_unused h,
    List.forall_mem_nil _⟩

theorem traceChecks_faultUnused : ∀ e ∈ traceChecks n w, FaultsUnused n w e := by
  simp only [traceChecks, List.forall_mem_cons]
  exact ⟨.of_legal fun _ => rfl, .of_legal fun _ => rfl, List.forall_mem_nil _⟩

end

/-- The rows of all classes but the one of lanes and links, in the order of Table 12.5. -/
def insnChecks (n : StwId) (w : Fields) : List (Instr × Nat × Nat × Bool) :=
  controlChecks n w ++ (moveChecks n w ++ (atomicChecks n w ++ (syncChecks n w ++ (groupChecks n w ++ (placeChecks n w ++
    (tableChecks n w ++ traceChecks n w))))))

theorem insnChecks_faultUnused (n : StwId) (w : Fields) : ∀ e ∈ insnChecks n w, FaultsUnused n w e := by
  simp only [insnChecks, List.forall_mem_append]
  exact ⟨controlChecks_faultUnused n w, moveChecks_faultUnused n w, atomicChecks_faultUnused n w, syncChecks_faultUnused n w,
    groupChecks_faultUnused n w, placeChecks_faultUnused n w, tableChecks_faultUnused n w, traceChecks_faultUnused n w⟩

/-- Settles O45: the rows are those of the eight classes, and each checks its unused fields before all else. -/
theorem unusedFieldsFault : Obligations.UnusedFieldsFault := by
  unfold Obligations.UnusedFieldsFault
  intro n q w s e he hrun hno
  exact (insnChecks_faultUnused n w e he).does hrun hno

end Sys2Proof.Machine
end

section
/-! SUPPORT. The writes of a queue's descriptor, Q_CTL and the doorbells (R271 to R273, R277 to R279, R295): one lemma per outcome, and
the obligations about them. -/

namespace Sys2Proof.Machine
open Sys2Proof.Safety

/-! ### Cached lines (R281) -/

/-- Dropping ring lines changes the carrier's jobs and the stewards alone. -/
theorem State.dropLines_eq (s : State) (q : Nat) (bad : Nat → Bool) : ∃ j w, s.dropLines q bad = { s with jobs := j, stws := w } := by
  refine forEach_preserves (P := fun t => ∃ j w, t = { s with jobs := j, stws := w }) ?_ stewardIds ⟨_, s.stws, rfl⟩
  rintro n _ ⟨j, w, rfl⟩
  split
  · exact ⟨j, _, rfl⟩
  · exact ⟨j, w, rfl⟩

/-! ### Binding (R271 to R273) -/

section
variable {s : State} {q w : Nat} {v : Word}

theorem State.rebind_restless (hbound : (s.queue q).st ≠ .unbound) (hrest : s.resting q = false) :
    s.rebind q w v = s.setQueue q { s.queue q with bindErr := 6 } := by
  simp [State.rebind, hbound, hrest]

theorem State.rebind_stands (hunbound : (s.queue q).st = .unbound) (hstands : w ≠ 0 ∨ ((s.queue q).withWord w v).valid = false) :
    s.rebind q w v = s.setQueue q ((s.queue q).withWord w v) := by
  by_cases hw : w = 0
  · simp [State.rebind, hunbound, hw, hw ▸ hstands.resolve_left (not_not_intro hw)]
  · simp [State.rebind, hunbound, hw]

theorem State.rebind_unbinds (hbound : (s.queue q).st ≠ .unbound) (hrest : s.resting q = true)
    (hinvalid : ((s.queue q).withWord 0 v).valid = false) :
    s.rebind q 0 v = (s.setQueue q ((s.queue q).withWord 0 v)).unbind q := by
  simp [State.rebind, hbound, hrest, hinvalid]

theorem State.rebind_checked_unbound (hunbound : (s.queue q).st = .unbound) (hvalid : ((s.queue q).withWord 0 v).valid = true) :
    s.rebind q 0 v =
      let n := (s.queue q).withWord 0 v
      if s.bindErr q n = 0 then s.bindQueue q n
      else s.setQueue q { n with bind := n.bind &&& 0x7FFFFFFFFFFFFFFF, bindErr := BitVec.ofNat 4 (s.bindErr q n) } := by
  simp [State.rebind, hunbound, hvalid]

theorem State.rebind_checked_bound (hbound : (s.queue q).st ≠ .unbound) (hrest : s.resting q = true)
    (hvalid : w = 0 → ((s.queue q).withWord w v).valid = true) :
    s.rebind q w v =
      let n := (s.queue q).withWord w v
      let u := (s.setQueue q n).unbind q
      if s.bindErr q n = 0 then s.bindQueue q n
      else u.setQueue q { u.queue q with bind := n.bind &&& 0x7FFFFFFFFFFFFFFF, bindErr := BitVec.ofNat 4 (s.bindErr q n) } := by
  have hstays : ¬ (w = 0 ∧ ((s.queue q).withWord w v).valid = false) := fun h => Bool.false_ne_true (h.2.symm.trans (hvalid h.1))
  simp [State.rebind, hbound, hrest, hstays]

theorem State.unbind_queue : (s.unbind q).queue q =
    { bind := (s.queue q).bind &&& 0x7FFFFFFFFFFFFFFF, ring := (s.queue q).ring, save := (s.queue q).save, dbRej := (s.queue q).dbRej } :=
  Tab.get_put_same _ _ _ _

theorem State.unbind_queue_ne {r : Nat} (h : r ≠ q) : (s.unbind q).queue r = s.queue r := by
  obtain ⟨j, w, hdrop⟩ := s.dropLines_eq q fun _ => true
  unfold State.unbind
  dsimp only
  rw [hdrop, State.queue_setQueue_ne _ _ h]
  rfl

theorem State.bindQueue_queue (d : Queue) : (s.bindQueue q d).queue q =
    { bind := d.bind, ring := d.ring, save := d.save, st := .idle, nextSeq := d.nextSeq, fresh := some (List.replicate 16 0) } :=
  Tab.get_put_same _ _ _ _

theorem State.bindQueue_frame (d : Queue) :
    (∀ r, r ≠ q → (s.bindQueue q d).queue r = s.queue r) ∧ (s.bindQueue q d).parts = s.parts ∧ (s.bindQueue q d).syncs = s.syncs := by
  obtain ⟨j, w, hdrop⟩ := s.dropLines_eq q fun _ => true
  unfold State.bindQueue
  rw [hdrop]
  exact ⟨fun r hr => State.queue_setQueue_ne _ _ hr, rfl, rfl⟩

theorem Queue.valid_of_cleared {d : Queue} {x : Word} (h : d.bind = x &&& 0x7FFFFFFFFFFFFFFF) : d.valid = false := by
  simp [Queue.valid, bit, h]

theorem Queue.withWord_valid_cleared (d : Queue) (x : Word) : (d.withWord 0 (x &&& 0x7FFFFFFFFFFFFFFF)).valid = false := by
  simp [Queue.valid, Queue.withWord, bindMask, bit]

/-- Word 0 is the only one that VALID stands in. -/
theorem Queue.valid_of_zero {d : Queue} {word : Fin 3} {data : Word} (h : word = 0 → (d.withWord 0 data).valid = true)
    (hzero : word.val = 0) : (d.withWord word.val data).valid = true := by
  rw [hzero]
  exact h (Fin.ext hzero)

end

/-- A write of a descriptor's word is answered, and a struck descriptor stays struck but for word 0. -/
theorem answers_queueBind {q : QueueId} {word : Fin 3} {data : Word} {s u : State} (hopen : Open s)
    (h : s.rebind q.val word.val data = u) :
    Answers (.queueBind q word data) s
      (if (s.queue q.val).bad && decide (word ≠ 0) then u.modQueue q.val fun d => { d with bad := true } else u) := by
  subst h
  refine answers_of_mgWrite hopen rfl ?_
  simp only [State.writeBind, ne_eq, Fin.ext_iff, Fin.val_zero]

theorem answers_queueBind_zero {q : QueueId} {data : Word} {s u : State} (hopen : Open s) (h : s.rebind q.val 0 data = u) :
    Answers (.queueBind q 0 data) s u := by
  simpa using answers_queueBind (word := 0) hopen h

theorem answers_queueUnbind {q : QueueId} {s u : State} (hopen : Open s)
    (h : s.rebind q.val 0 ((s.queue q.val).bind &&& 0x7FFFFFFFFFFFFFFF) = u) : Answers (.queueUnbind q) s u := by
  subst h
  refine answers_of_mgWrite hopen rfl ?_
  simp [State.writeBind]

/-- Settles O30: each clause is one outcome of a write of the descriptor. -/
theorem queueBinding : Obligations.QueueBinding := by
  unfold Obligations.QueueBinding
  refine ⟨?written, fun q d s => ?left⟩
  case left =>
    rw [State.bindQueue_queue]
    exact ⟨rfl, rfl, rfl, rfl, rfl, rfl, rfl, State.bindQueue_frame d⟩
  intro q s hopen stays
  refine ⟨fun data hunbound hvalid => ⟨?binds, ?refuses⟩, ?restless, ?stands, ?rebinds, ?unbinds, ?invalid, ?unbind⟩
  case binds =>
    exact fun hok => answers_queueBind_zero hopen ((State.rebind_checked_unbound hunbound hvalid).trans (if_pos hok))
  case refuses =>
    rintro _ hbad rfl
    exact answers_queueBind_zero hopen ((State.rebind_checked_unbound hunbound hvalid).trans (if_neg hbad))
  case restless => exact fun word data hbound hrest => answers_queueBind hopen (State.rebind_restless hbound hrest)
  case stands =>
    exact fun word data hword hunbound => answers_queueBind hopen (State.rebind_stands hunbound (.inl (Fin.val_ne_zero_iff.mpr hword)))
  case rebinds =>
    intro word data hbound hrest hvalid hok
    exact answers_queueBind hopen ((State.rebind_checked_bound hbound hrest (Queue.valid_of_zero hvalid)).trans (if_pos hok))
  case unbinds =>
    rintro word data _ hbound hrest hvalid hbad rfl
    exact ⟨answers_queueBind hopen ((State.rebind_checked_bound hbound hrest (Queue.valid_of_zero hvalid)).trans (if_neg hbad)),
      congrArg Queue.st State.unbind_queue⟩
  case invalid =>
    exact fun data hunbound hinvalid => answers_queueBind_zero hopen (State.rebind_stands hunbound (.inr hinvalid))
  case unbind =>
    intro hbound hrest
    refine ⟨_, answers_queueUnbind hopen (State.rebind_unbinds hbound hrest ((s.queue q.val).withWord_valid_cleared _)), ?_⟩
    rw [State.unbind_queue, State.queue_setQueue]
    exact ⟨rfl, Queue.valid_of_cleared rfl, rfl, fun r hr => by rw [State.unbind_queue_ne hr, State.queue_setQueue_ne _ _ hr]⟩

/-! ### Q_CTL (R279, R295) -/

section
variable {s : State} {q : Nat}

/-- A write of Q_CTL with one bit set is that bit's action. -/
theorem State.writeQctl_one (hwhole : (s.queue q).bad = false) :
    s.writeQctl q (BitVec.ofNat 64 (2 ^ 63)) = s.doStart q ∧ s.writeQctl q (BitVec.ofNat 64 (2 ^ 62)) = s.restartQueue q ∧
      s.writeQctl q (BitVec.ofNat 64 (2 ^ 61)) = s.doClear q ∧ s.writeQctl q (BitVec.ofNat 64 (2 ^ 60)) = s.doSkip q ∧
      s.writeQctl q (BitVec.ofNat 64 (2 ^ 59)) = s.doHalt q := by
  simp [State.writeQctl, bit, hwhole]

theorem State.doStart_program (hidle : (s.queue q).st = .idle) (hprogram : (s.queue q).program = true) :
    s.doStart q = s.startProgram q 0 := by
  simp [State.doStart, hidle, hprogram]

theorem State.doStart_fifo (hidle : (s.queue q).st = .idle) (hfifo : (s.queue q).program = false) :
    s.doStart q = if (s.queue q).cnt ≠ (s.queue q).tail then s.setQueue q { s.queue q with st := .ready } else s := by
  simp [State.doStart, hidle, hfifo]

theorem State.doStart_halted (h : (s.queue q).st = .halted) :
    s.doStart q = (s.setQueue q { s.queue q with halt := false }).resumeQueue q := by
  simp [State.doStart, h]

theorem State.doStart_none (hidle : (s.queue q).st ≠ .idle) (hhalted : (s.queue q).st ≠ .halted) : s.doStart q = s := by
  cases hst : (s.queue q).st
  case idle => exact absurd hst hidle
  case halted => exact absurd hst hhalted
  all_goals simp only [State.doStart, hst]

theorem State.restartQueue_whole (hbound : (s.queue q).st ≠ .unbound) (hwhole : (s.queue q).bad = false) :
    s.restartQueue q =
      let u := (s.abandon q).dropLines q fun _ => true
      if (s.queue q).program then u.startProgram q 0
      else (u.setQueue q { u.queue q with
        pc := ((u.queue q).pc + ((u.queue q).tail - (u.queue q).cnt).toNat) % max (u.queue q).size 1
        cnt := (u.queue q).tail, head := (u.queue q).tail }).enterIdle q :=
  if_neg (by simp [hbound, hwhole])

theorem State.doHalt_ready (h : (s.queue q).st = .ready) : s.doHalt q = (s.setQueue q { s.queue q with st := .halted }).leave q := by
  simp [State.doHalt, h]

theorem State.doHalt_sync {o c : Nat} {v : Word} (h : (s.queue q).st = .waiting) (hpark : (s.queue q).park = .sync o c v) :
    s.doHalt q = ((s.unwait q).modQueue q fun d => { d with st := .halted, park := .none }).leave q := by
  simp [State.doHalt, h, hpark]

theorem State.doHalt_waiting (h : (s.queue q).st = .waiting) (hpark : ∀ o c v, (s.queue q).park ≠ .sync o c v) :
    s.doHalt q = s.setQueue q { s.queue q with halt := true } := by
  cases hp : (s.queue q).park
  case sync o c v => exact absurd hp (hpark o c v)
  all_goals simp only [State.doHalt, h, hp]

theorem State.doHalt_active (h : (s.queue q).st = .active) : s.doHalt q = s.setQueue q { s.queue q with halt := true } := by
  simp [State.doHalt, h]

theorem State.doHalt_none
    (h : (s.queue q).st = .faulted ∨ (s.queue q).st = .halted ∨ (s.queue q).st = .idle ∨ (s.queue q).st = .unbound) :
    s.doHalt q = s := by
  obtain h | h | h | h := h <;> simp [State.doHalt, h]

end

theorem answers_qctl {c : Instr} {q : QueueId} {i : Nat} {s t u : State} (hopen : Open s) (hexec : exec c s = .next (s.qctlRow q.val i))
    (hact : s.writeQctl q.val (BitVec.ofNat 64 (2 ^ i)) = t) (h : t = u) : Answers c s u :=
  answers_of_mgWrite hopen hexec (hact.trans h)

/-- Settles O31: each clause is one outcome of one action. -/
theorem queueControl : Obligations.QueueControl := by
  unfold Obligations.QueueControl
  intro q s hopen hwhole
  obtain ⟨hstart, hrestart, hclear, hskip, hhalt⟩ := State.writeQctl_one hwhole
  have starts {u} (h : s.doStart q.val = u) : Answers (.start q) s u := answers_qctl hopen rfl hstart h
  have restarts {u} (h : s.restartQueue q.val = u) : Answers (.restart q) s u := answers_qctl hopen rfl hrestart h
  have clears {u} (h : s.doClear q.val = u) : Answers (.queueClear q) s u := answers_qctl hopen rfl hclear h
  have skips {u} (h : s.doSkip q.val = u) : Answers (.skip q) s u := answers_qctl hopen rfl hskip h
  have halts {u} (h : s.doHalt q.val = u) : Answers (.queueHalt q) s u := answers_qctl hopen rfl hhalt h
  exact ⟨fun hidle hprogram => starts (State.doStart_program hidle hprogram),
    fun hidle hfifo hmore => starts ((State.doStart_fifo hidle hfifo).trans (if_pos hmore)),
    fun hidle hfifo hdone => starts ((State.doStart_fifo hidle hfifo).trans (if_neg (not_not_intro hdone))),
    fun hidle hhalted => starts (State.doStart_none hidle hhalted),
    fun hhalted => starts (State.doStart_halted hhalted),
    fun hbound hprogram => restarts ((State.restartQueue_whole hbound hwhole).trans (if_pos hprogram)),
    fun hbound hfifo => restarts ((State.restartQueue_whole hbound hwhole).trans (if_neg (ne_true_of_eq_false hfifo))),
    fun hfaulted => clears (if_pos hfaulted),
    fun hfaulted => clears (if_neg hfaulted),
    fun hhalted hmore => skips (if_pos ⟨hhalted, hmore⟩),
    fun hnone => skips (if_neg fun h => hnone.elim (absurd h.1) fun hdone => h.2.elim (ne_true_of_eq_false hdone.1) (absurd hdone.2)),
    fun o c v hwaiting hpark => halts (State.doHalt_sync hwaiting hpark),
    fun hwaiting hpark => halts (State.doHalt_waiting hwaiting hpark),
    fun hready => halts (State.doHalt_ready hready),
    fun hactive => halts (State.doHalt_active hactive),
    fun hrests => halts (State.doHalt_none hrests)⟩

/-! ### Doorbells (R277, R278, R291) -/

section
variable {s : State} {q : Nat} {v : BitVec 32}

theorem State.doDoorbell_reaches {p : Option PartId} (howns : ∀ r, p = some r → s.ownsQueue r.val q = true) :
    s.doDoorbell q (p.map (·.val)) v = (s.crossEvents mgXing .doorbell 1).ring q v := by
  obtain ⟨x, hcross⟩ := s.crossEvents_eq mgXing .doorbell 1
  cases p with
  | none => rfl
  | some r =>
    have hreaches : (s.crossEvents mgXing .doorbell 1).ownsQueue r.val q = true := by
      rw [hcross]
      exact howns r rfl
    exact if_pos hreaches

theorem State.doDoorbell_foreign {p : PartId} (hforeign : s.ownsQueue p.val q = false) :
    s.doDoorbell q (some p.val) v = s.crossEvents mgXing .doorbell 1 := by
  obtain ⟨x, hcross⟩ := s.crossEvents_eq mgXing .doorbell 1
  have hmisses : (s.crossEvents mgXing .doorbell 1).ownsQueue p.val q = false := by
    rw [hcross]
    exact hforeign
  exact if_neg (ne_true_of_eq_false hmisses)

/-- Events that cross leave the queues, the partitions and the sync objects. -/
theorem State.crossEvents_frame (s : State) (x : Nat) (ch : EvCh) (n : Nat) :
    (s.crossEvents x ch n).queue = s.queue ∧ (s.crossEvents x ch n).parts = s.parts ∧ (s.crossEvents x ch n).syncs = s.syncs := by
  obtain ⟨c, hcross⟩ := s.crossEvents_eq x ch n
  rw [hcross]
  exact ⟨rfl, rfl, rfl⟩

theorem State.ring_unbound (h : (s.queue q).st = .unbound) : s.ring q v = s.setQueue q { s.queue q with dbRej := true } :=
  if_pos h

theorem State.ring_program (hbound : (s.queue q).st ≠ .unbound) (hprogram : (s.queue q).program = true) :
    s.ring q v = if (s.queue q).st = .idle then s.startProgram q v else s.setQueue q { s.queue q with tail := v, pend := true } := by
  simp [State.ring, hbound, hprogram]

/-- The entries a doorbell publishes are within the ring, and none of those published is taken back (R277). -/
def Queue.publishes (d : Queue) (v : BitVec 32) : Prop := (v - d.head).toNat ≤ d.size ∧ (d.tail - d.head).toNat ≤ (v - d.head).toNat

theorem State.ring_fifo_takes (hbound : (s.queue q).st ≠ .unbound) (hfifo : (s.queue q).program = false) (h : (s.queue q).publishes v) :
    ∃ lines, s.ring q v = (s.dropLines q lines).setQueue q
      { s.queue q with tail := v, st := if (s.queue q).st = .idle ∧ (s.queue q).cnt ≠ v then .ready else (s.queue q).st } :=
  ⟨_, (if_neg hbound).trans ((if_neg (ne_true_of_eq_false hfifo)).trans (if_pos h))⟩

theorem State.ring_fifo_refuses (hbound : (s.queue q).st ≠ .unbound) (hfifo : (s.queue q).program = false)
    (h : ¬ (s.queue q).publishes v) : s.ring q v = s.setQueue q { s.queue q with dbRej := true } :=
  (if_neg hbound).trans ((if_neg (ne_true_of_eq_false hfifo)).trans (if_neg h))

end

theorem answers_doorbell {q : QueueId} {p : Option PartId} {v : BitVec 32} {s t u : State} (hopen : Open s)
    (hring : s.doDoorbell q.val (p.map (·.val)) v = t) (h : t = u) : Answers (.doorbell q p v) s u := by
  cases p with
  | none => exact answers_of_mgWrite hopen rfl (hring.trans h)
  | some r => exact answers_of_mgWrite hopen rfl (hring.trans h)

/-- Settles O32: each clause is one outcome of a doorbell, rung on a state that has counted its event. -/
theorem doorbells : Obligations.Doorbells := by
  unfold Obligations.Doorbells
  intro q v s hopen w
  have reaches {p : Option PartId} {u} (howns : ∀ r, p = some r → s.ownsQueue r.val q.val = true) (h : w.ring q.val v = u) :
      Answers (.doorbell q p v) s u := answers_doorbell hopen (State.doDoorbell_reaches howns) h
  have foreign (p : PartId) (hforeign : s.ownsQueue p.val q.val = false) : Answers (.doorbell q (some p) v) s w :=
    answers_doorbell hopen (State.doDoorbell_foreign hforeign) rfl
  obtain ⟨hqueue, hparts, hsyncs⟩ : w.queue = s.queue ∧ w.parts = s.parts ∧ w.syncs = s.syncs := s.crossEvents_frame mgXing .doorbell 1
  rw [← hqueue, ← hparts, ← hsyncs]
  refine ⟨fun p howns hprogram hidle => ?idle, fun p howns hprogram hbusy hbound => ?busy,
    fun p howns hfifo hbound hring htail => ?takes, fun p howns hfifo hbound hrefused => ?refuses, fun hunbound => ?unbound, foreign⟩
  case idle =>
    have hbound : (w.queue q.val).st ≠ .unbound := fun h => QSt.noConfusion (hidle.symm.trans h)
    exact reaches howns ((State.ring_program hbound hprogram).trans (if_pos hidle))
  case busy => exact reaches howns ((State.ring_program hbound hprogram).trans (if_neg hbusy))
  case takes =>
    obtain ⟨lines, htakes⟩ := State.ring_fifo_takes hbound hfifo ⟨hring, htail⟩
    obtain ⟨j, stws, hdrop⟩ := w.dropLines_eq q.val lines
    rw [hdrop] at htakes
    exact ⟨_, reaches howns htakes, State.queue_setQueue _ _ _, fun r hr => State.queue_setQueue_ne _ _ hr, rfl, rfl⟩
  case refuses => exact reaches howns (State.ring_fifo_refuses hbound hfifo hrefused)
  case unbound => exact reaches (fun _ hnone => nomatch hnone) (State.ring_unbound hunbound)

end Sys2Proof.Machine
end

section
/-! SUPPORT. The stewards (R281, R283, R284): STW_CTL at a boundary and while an instruction runs, the choice, and a ring line that
comes, with the obligation about them. -/

namespace Sys2Proof.Machine
open Sys2Proof.Safety

/-! ### STW_CTL (R283, Table 11.4) -/

/-- What a write of STW_CTL leaves in the register. -/
def stwCtl (en : Bool) (pool : BitVec 4) : Word := fields [(63, 1, b2n en), (0, 4, pool.toNat)] &&& 0x800000000000000F

theorem stwCtl_fields : ∀ (en : Bool) (pool : BitVec 4), bit (stwCtl en pool) 63 = en ∧ bits (stwCtl en pool) 0 4 = pool.toNat := by
  decide

section
variable {s : State} {n : Nat}

/-- At a boundary EN 0 puts every context back, and POOL those of the queues outside it. -/
theorem State.stwBoundary_eq {en : Bool} {pool : Nat} (hen : (s.stw n).en = en) (hpool : (s.stw n).pool = pool) :
    s.stwBoundary n = forEach ((s.stw n).ctxs.map fun c => c.2.queue)
      (fun q v => if en = false ∨ (v.queue q).pool ≠ pool then v.leave q else v) s := by
  subst hen hpool
  simp only [State.stwBoundary, Bool.or_eq_true, Bool.not_eq_true', decide_eq_true_eq]

theorem State.writeStwCtl_running (v : Word) (h : (s.stw n).cur.isSome = true) :
    s.writeStwCtl n v = s.setStw n { s.stw n with ctl := v &&& 0x800000000000000F } := by
  simp [State.writeStwCtl, State.modStw, h]

theorem State.writeStwCtl_boundary (v : Word) (h : (s.stw n).cur = none) :
    s.writeStwCtl n v = (s.setStw n { s.stw n with ctl := v &&& 0x800000000000000F }).stwBoundary n := by
  simp [State.writeStwCtl, State.modStw, h]

end

/-! ### The steward's choice (R284, R286) -/

theorem exec_stewardChoose (n : StwId) (s : State) : exec (.stewardChoose n) s = .next (s.stewardChoose n.val).kick := rfl

section
variable {s : State} {n q : Nat}

theorem State.stewardChoose_none (h : s.pick n = .none) : s.stewardChoose n = s := by
  simp only [State.stewardChoose, h]

theorem State.stewardChoose_claim (h : s.pick n = .claim q) : s.stewardChoose n = s.claim n q := by
  simp only [State.stewardChoose, h]

/-- A steward runs an instruction by its class and its opcode. -/
theorem State.stewardChoose_listed {cls op : Nat} {w : Fields} {f : Nat → Fields → State → State} (hcls : cls < 16) (hop : op < 256)
    (h : s.pick n = .run q (insnWord cls op w)) (hbody : insnBody cls op = some f) :
    s.stewardChoose n = f q w (s.begin n q (insnWord cls op w)) := by
  simp only [State.stewardChoose, h, wordClass_insnWord hcls, wordOp_insnWord hop, wordFields_insnWord, hbody]

theorem State.stewardChoose_unlisted {cls op : Nat} {w : Fields} (hcls : cls < 16) (hop : op < 256)
    (h : s.pick n = .run q (insnWord cls op w)) (hbody : insnBody cls op = none) :
    s.stewardChoose n = (s.begin n q (insnWord cls op w)).execFault q qfIllegal := by
  simp only [State.stewardChoose, h, wordClass_insnWord hcls, wordOp_insnWord hop, hbody]

/-! ### Ring lines (R281) -/

/-- A line that has come without an error stands in the cache, and its job is gone. -/
theorem State.lineIn_comes {line : Nat} {j : Job} {l : List Job} (hjobs : s.jobs = j :: l) (hwhat : j.what = .ringLine n q line)
    (hleft : j.left = 0) (hok : j.status = stOk) (hids : ∀ k ∈ l, k.id ≠ j.id) :
    s.lineIn n = State.cacheLine { s with jobs := l } n q line (j.bytes j.base 64) := by
  have hrest : l.filter (fun k => !decide (k.id = j.id)) = l := List.filter_eq_self.mpr (by simpa using hids)
  simp [State.lineIn, hjobs, hwhat, hleft, hok, hrest]

end

theorem exec_ifetchLine {n : StwId} {s : State} (hrun : s.running = true) : exec (.ifetchLine n) s = .next (s.lineIn n.val).kick :=
  congrArg Host.Outcome.next (if_pos hrun)

/-- Settles O33: each clause is one outcome of a write of STW_CTL, of a choice or of a line. -/
theorem stewards : Obligations.Stewards := by
  unfold Obligations.Stewards
  refine ⟨fun n en pool s hopen hruns => ?running, fun n en pool s hopen hrests => ?boundary,
    fun n q s hpick => does_of_eq (exec_stewardChoose n s) (State.stewardChoose_claim hpick),
    fun n q cls op w f s hcls hop hpick hbody =>
      does_of_eq (exec_stewardChoose n s) (State.stewardChoose_listed hcls hop hpick hbody),
    fun n q cls op w s hcls hop hpick hbody =>
      does_of_eq (exec_stewardChoose n s) (State.stewardChoose_unlisted hcls hop hpick hbody),
    fun n s hpick => does_of_eq (exec_stewardChoose n s) (State.stewardChoose_none hpick),
    fun n q line j l s hrun hjobs hwhat hleft hok hids =>
      does_of_eq (exec_ifetchLine hrun) (State.lineIn_comes hjobs hwhat hleft hok hids)⟩
  case running =>
    obtain ⟨hen, hpool⟩ := stwCtl_fields en pool
    refine ⟨_, answers_of_mgWrite hopen rfl (State.writeStwCtl_running _ hruns), ?_⟩
    rw [State.stw_setStw]
    exact ⟨hen, hpool, rfl, fun m hm => State.stw_setStw_ne _ _ hm⟩
  case boundary =>
    obtain ⟨hen, hpool⟩ := stwCtl_fields en pool
    refine ⟨stwCtl en pool, _, rfl, ?_⟩
    have hstw := State.stw_setStw s n.val { s.stw n.val with ctl := stwCtl en pool }
    have hboundary := State.stwBoundary_eq ((congrArg Stw.en hstw).trans hen) ((congrArg Stw.pool hstw).trans hpool)
    rw [hstw] at hboundary ⊢
    exact ⟨hen, hpool, answers_of_mgWrite hopen rfl ((State.writeStwCtl_boundary _ hrests).trans hboundary)⟩

end Sys2Proof.Machine
end

section
/-! SUPPORT. Sync objects (R287, R288): what a write of SYNC_CTL does, and what an update that nothing waits for changes, with the
obligation about them. -/

namespace Sys2Proof.Machine
open Sys2Proof.Safety

section
variable {s : State} {n : Nat}

/-- A write of SYNC_CTL that is refused: it would pass the partition's quota, free an object with waiters, or move an allocated one
to another partition. -/
def State.syncCtlBad (s : State) (n : Nat) (alloc : Bool) (p : BitVec 4) : Prop :=
  (alloc = true ∧ (s.sync n).alloc = false ∧ s.syncFull n p.toNat = true) ∨
    (alloc = false ∧ (s.sync n).alloc = true ∧ (s.sync n).waiters ≠ []) ∨ ((s.sync n).alloc = true ∧ (s.sync n).part ≠ p)

theorem State.writeSyncCtl_bad {alloc : Bool} {p : BitVec 4} (h : s.syncCtlBad n alloc p) :
    s.writeSyncCtl n alloc p = s.setSync n { s.sync n with rej := true } :=
  congrArg (s.setSync n) (if_pos (by simpa [State.syncCtlBad, and_assoc, or_assoc] using h))

theorem State.writeSyncCtl_good {alloc : Bool} {p : BitVec 4} (h : ¬ s.syncCtlBad n alloc p) :
    s.writeSyncCtl n alloc p = s.setSync n { s.sync n with alloc := alloc, part := p, rej := false } :=
  congrArg (s.setSync n) (if_neg fun hbad => h (by simpa [State.syncCtlBad, and_assoc, or_assoc] using hbad))

/-! ### An update that nothing waits for (R288) -/

theorem Watched.sync {t : State} (h : Watched s t) (m : Nat) : t.sync m = s.sync m := by
  obtain ⟨_, _, _, _, rfl⟩ := h
  rfl

theorem State.releaseWaiters_setSync {o : Sync} (h : o.waiters = []) : (s.setSync n o).releaseWaiters n = s.setSync n o := by
  obtain ⟨value, alloc, part, rej, waiters, bad⟩ := o
  dsimp only at h
  subst h
  simp [State.releaseWaiters, forEach]

/-- With no menu no entry tastes, and the update's triggers change only what is watched. -/
theorem State.update_unwaited (set : Bool) (v : Word) (hwhole : (s.sync n).bad = false) (hnone : (s.sync n).waiters = [])
    (hmenu : s.tables.menu = []) :
    Watched (s.setSync n { s.sync n with value := if set then v else (s.sync n).value + v }) (s.update n set v) := by
  unfold State.update
  dsimp only
  rw [if_neg (ne_true_of_eq_false hwhole),
    State.releaseWaiters_setSync (o := { s.sync n with value := if set then v else (s.sync n).value + v }) hnone]
  refine forEach_preserves (P := Watched _) (fun i t ht => ?_) _ (State.fireWhere_watched _ _)
  have hoff : bit (t.menuWord i 0) 63 = false := by
    obtain ⟨o, l, p, z, rfl⟩ := ht
    simp [State.menuWord, State.setSync, hmenu, Tab.get, bit]
  simpa only [hoff, Bool.false_and, Bool.false_eq_true, if_false] using ht

end

/-- Settles O34: each clause is one outcome of a write, and an update that nothing waits for sets the value alone. -/
theorem syncObjects : Obligations.SyncObjects := by
  unfold Obligations.SyncObjects
  refine ⟨fun n s hopen => ⟨fun alloc p => ⟨?takes, ?refuses⟩, ?sets, ?adds, ?foreign⟩, fun n set v s hwhole hnone hmenu => ?frame⟩
  case takes => exact fun hgood => answers_of_mgWrite hopen rfl (State.writeSyncCtl_good hgood)
  case refuses => exact fun hbad => answers_of_mgWrite hopen rfl (State.writeSyncCtl_bad hbad)
  case sets => exact fun v => answers_of_mgWrite hopen rfl rfl
  case adds => exact fun p v howned => answers_of_mgWrite hopen rfl (if_pos howned)
  case foreign => exact fun p v hforeign => answers_of_mgWrite hopen rfl (if_neg (ne_true_of_eq_false hforeign))
  case frame =>
    have hwatched := State.update_unwaited set v hwhole hnone hmenu
    rw [hwatched.sync, State.sync_setSync]
    refine ⟨rfl, rfl, fun m hm => ?_, ?_⟩
    · rw [hwatched.sync, State.sync_setSync_ne _ _ hm]
    · obtain ⟨o, l, p, z, hupdate⟩ := hwatched
      rw [hupdate]
      exact ⟨rfl, rfl, rfl, rfl, rfl⟩

end Sys2Proof.Machine
end

section
/-! SUPPORT. How an instruction that a steward chooses runs (R282, R284, R298, R299): its row and its operand checks; what retiring
changes; and the control instructions, with the obligations about them. -/

namespace Sys2Proof.Machine
open Sys2Proof.Safety

/-! ### An instruction's row (R284) -/

/-- An instruction that is the steward's choice does what its body does of the block once the steward has begun it. -/
theorem does_insn {c : Instr} {n : StwId} {q : Nat} {word : BitVec 128} {s u : State} {body : Nat → State → State}
    (hexec : ∀ t, exec c t = .next (t.insnRow n.val word body).kick) (hpick : s.pick n.val = .run q word)
    (h : body q (s.begin n.val q word) = u) : Does c s u :=
  does_of_eq (hexec s) ((State.insnRow_run hpick body).trans h)

/-- One whose word passes its check goes on with what follows that check (R282). -/
theorem does_legal {c : Instr} {n : StwId} {q : Nat} {word : BitVec 128} {s u : State} {ok : State → Bool} {k : Nat → State → State}
    (hexec : ∀ t, exec c t = .next (t.insnRow n.val word fun q t => t.legal q (ok t) (k q)).kick) (hpick : s.pick n.val = .run q word)
    (hok : ok (s.begin n.val q word) = true) (h : k q (s.begin n.val q word) = u) : Does c s u :=
  does_insn hexec hpick ((State.legal_yes hok _ q _).trans h)

/-! ### Operand checks (R299, Table 12.2) -/

section
variable {s : State} {q x : Nat} {l : List Nat} {k : State → State}

theorem firstBad_cons_ok (h : x = stOk) : firstBad (x :: l) = firstBad l := by
  simp [firstBad, h]

theorem firstBad_cons_bad (h : x ≠ stOk) : firstBad (x :: l) = x := by
  simp [firstBad, h]

theorem State.checked_cons_ok (h : x = stOk) : s.checked q (x :: l) k = s.checked q l k := by
  unfold State.checked
  rw [firstBad_cons_ok h]

theorem State.checked_cons_bad (h : x ≠ stOk) : s.checked q (x :: l) k = s.execFault q qfRequest x :=
  State.checked_bad (firstBad_cons_bad h) h s q k

end

theorem lengthCheck_short {v : Word} (h : v.toNat < 2 ^ 40) : lengthCheck v = stOk :=
  if_pos (by rw [bits, Nat.shiftRight_eq_div_pow, Nat.div_eq_of_lt h, Nat.zero_mod])

theorem lengthCheck_long {v : Word} (h : bits v 40 24 ≠ 0) : lengthCheck v = stMalformed := if_neg h

theorem bits_length_ne_zero {v : Word} (h : 2 ^ 40 ≤ v.toNat) : bits v 40 24 ≠ 0 := by
  have hv := v.isLt
  simp only [bits, Nat.shiftRight_eq_div_pow]
  omega

theorem lenOf_short {v : Word} (h : v.toNat < 2 ^ 40) : lenOf v = v.toNat := Nat.mod_eq_of_lt h

/-! ### What retiring changes (R284, R298) -/

section
variable {s t : State} {q n slot : Nat} {c : Ctx}

theorem State.ctxOf_iff : s.ctxOf q = some (n, slot, c) ↔
    ∃ l r, stewardIds = l ++ n :: r ∧ (s.stw n).ctxs.find? (fun e => e.2.queue = q) = some (slot, c) ∧
      ∀ m ∈ l, (s.stw m).ctxs.find? (fun e => e.2.queue = q) = none := by
  simp only [State.ctxOf, List.findSome?_eq_some_iff, Option.map_eq_some_iff, Option.map_eq_none_iff]
  constructor
  · rintro ⟨l, m, r, hids, ⟨⟨_, _⟩, hfind, heq⟩, hnone⟩
    cases heq
    exact ⟨l, r, hids, hfind, hnone⟩
  · rintro ⟨l, r, hids, hfind, hnone⟩
    exact ⟨l, n, r, hids, ⟨_, hfind, rfl⟩, hnone⟩

/-- A queue's context is found where it was, when no other steward has changed. -/
theorem State.ctxOf_of_found {c' : Ctx} (hctx : s.ctxOf q = some (n, slot, c)) (hothers : ∀ m, m ≠ n → t.stw m = s.stw m)
    (hfind : (t.stw n).ctxs.find? (fun e => e.2.queue = q) = some (slot, c')) : t.ctxOf q = some (n, slot, c') := by
  obtain ⟨l, r, hids, hwas, hnone⟩ := State.ctxOf_iff.mp hctx
  refine State.ctxOf_iff.mpr ⟨l, r, hids, hfind, fun m hm => ?_⟩
  have hne : m ≠ n := fun h => Option.some_ne_none _ (hwas.symm.trans (h ▸ hnone m hm))
  rw [hothers m hne]
  exact hnone m hm

end

/-- Contexts with the registers of one of them written. -/
def ctxsWith (ctxs : List (Nat × Ctx)) (slot : Nat) (c : Ctx) (regs : List Word) : List (Nat × Ctx) :=
  ctxs.map fun e => if e.1 = slot then (slot, { c with regs := regs }) else e

/-- Written registers are found with the queue's context, which stands in a slot of its own. -/
theorem find_ctxsWith {ctxs : List (Nat × Ctx)} {q slot : Nat} {c : Ctx} (hslots : (ctxs.map (·.1)).Nodup)
    (hfind : ctxs.find? (fun e => e.2.queue = q) = some (slot, c)) (regs : List Word) :
    (ctxsWith ctxs slot c regs).find? (fun e => e.2.queue = q) = some (slot, { c with regs := regs }) := by
  have hqueue : c.queue = q := by simpa using List.find?_some hfind
  have hsame : ∀ e ∈ ctxs, e.1 = slot → e = (slot, c) := fun e he heq =>
    List.inj_on_of_nodup_map hslots he (List.mem_of_find?_eq_some hfind) heq
  have hcongr : ctxs.find? ((fun e => decide (e.2.queue = q)) ∘ fun e => if e.1 = slot then (slot, { c with regs := regs }) else e) =
      ctxs.find? (fun e => e.2.queue = q) := by
    refine List.find?_congr fun e he => ?_
    by_cases heq : e.1 = slot
    · simp [hsame e he heq]
    · simp [heq]
  rw [ctxsWith, List.find?_map, hcongr, hfind]
  simp

/-- Releasing entries moves HEAD_CNT alone. -/
theorem Queue.release_eq (d : Queue) : ∃ h, d.release = { d with head := h } := by
  unfold Queue.release
  by_cases hprogram : d.program = true
  · exact ⟨d.head, if_pos hprogram⟩
  · rw [if_neg hprogram]
    dsimp only
    split
    · split_ifs <;> exact ⟨_, rfl⟩
    · exact ⟨_, rfl⟩

theorem Watched.queue {s t : State} (h : Watched s t) (q : Nat) : t.queue q = s.queue q := by
  obtain ⟨_, _, _, _, rfl⟩ := h
  rfl

theorem Watched.setQueue {s t : State} (h : Watched s t) (q : Nat) (d : Queue) : Watched (s.setQueue q d) (t.setQueue q d) := by
  obtain ⟨o, l, p, z, rfl⟩ := h
  exact ⟨o, l, p, z, rfl⟩

/-- Completed instructions that leave the queue change nothing of it but its list and HEAD_CNT. -/
theorem State.settleHead_eq (s : State) (q : Nat) :
    ∃ insns h, s.settleHead q = s.setQueue q { s.queue q with insns := insns, head := h } := by
  obtain ⟨h, hrelease⟩ := Queue.release_eq
    { s.queue q with insns := (s.queue q).insns.filter fun i => !i.retired || s.insnOpen q i.seq }
  exact ⟨_, h, congrArg (s.setQueue q) hrelease⟩

/-- A queue whose present instruction is retired, with PC `dist` entries on. -/
def Queue.passEntries (d : Queue) (dist : Nat) : Queue :=
  { d with insns := d.insns.map fun i => if i.retired then i else { i with retired := true }
           pc := (d.pc + dist) % max d.size 1, cnt := d.cnt + BitVec.ofNat 32 dist }

theorem State.passEntries_settled (s : State) (q dist : Nat) :
    ∃ d : Queue, d.pc = ((s.queue q).pc + dist) % max (s.queue q).size 1 ∧ d.cnt = (s.queue q).cnt + BitVec.ofNat 32 dist ∧
      (s.modQueue q fun d => d.passEntries dist).settleHead q = s.setQueue q d := by
  obtain ⟨_, _, hhead⟩ := State.settleHead_eq (s.modQueue q fun d => d.passEntries dist) q
  rw [hhead, State.modQueue, State.queue_setQueue, State.setQueue_setQueue]
  exact ⟨_, rfl, rfl, rfl⟩

section
variable {s : State} {q n slot : Nat} {c : Ctx}

theorem State.retire_eq {l : List (Nat × Word)} (hctx : (s.writeRegs q l).ctxOf q = some (n, slot, c)) (dist : Nat) :
    s.retire q l dist = (((((s.writeRegs q l).modStw n fun w => { w with retired := satAdd w.retired 1 }).count 6 0 n
      (some (s.queue q).part)).count 7 0 q (some (s.queue q).part)).modQueue q fun d => d.passEntries dist).settleHead q := by
  unfold State.retire
  dsimp only
  rw [hctx]
  rfl

/-- A steward that has written a register of one of its contexts and counts the instruction as retired. -/
def Stw.retiredWith (w : Stw) (slot : Nat) (c : Ctx) (r : Nat) (v : Word) : Stw :=
  { w with ctxs := ctxsWith w.ctxs slot c (c.regs.set r v), retired := satAdd w.retired 1 }

theorem State.writeRegs_resident (hctx : s.ctxOf q = some (n, slot, c)) (hloaded : c.loading = false) (r : Nat) (v : Word) :
    s.writeRegs q [(r, v)] = s.setStw n { s.stw n with ctxs := ctxsWith (s.stw n).ctxs slot c (c.regs.set r v) } := by
  simp [State.writeRegs, State.modStw, hctx, hloaded, ctxsWith]

/-- The context a queue holds once its registers are written. -/
theorem State.ctxOf_written {w : Stw} {regs : List Word} (hctx : s.ctxOf q = some (n, slot, c))
    (hslots : ((s.stw n).ctxs.map (·.1)).Nodup) (hw : w.ctxs = ctxsWith (s.stw n).ctxs slot c regs) :
    (s.setStw n w).ctxOf q = some (n, slot, { c with regs := regs }) := by
  obtain ⟨_, _, _, hfind, _⟩ := State.ctxOf_iff.mp hctx
  refine State.ctxOf_of_found hctx (fun m hm => State.stw_setStw_ne _ _ hm) ?_
  rw [State.stw_setStw, hw]
  exact find_ctxsWith hslots hfind regs

/-- Retiring with a register write changes the steward of the context, the queue, and what is watched. -/
theorem State.retire_watched (hctx : s.ctxOf q = some (n, slot, c)) (hloaded : c.loading = false)
    (hslots : ((s.stw n).ctxs.map (·.1)).Nodup) (r dist : Nat) (v : Word) :
    ∃ d : Queue, d.pc = ((s.queue q).pc + dist) % max (s.queue q).size 1 ∧ d.cnt = (s.queue q).cnt + BitVec.ofNat 32 dist ∧
      Watched ((s.setStw n ((s.stw n).retiredWith slot c r v)).setQueue q d) (s.retire q [(r, v)] dist) := by
  have hwritten := State.writeRegs_resident hctx hloaded r v
  have hretire := State.retire_eq (s := s) (l := [(r, v)]) (hwritten ▸ State.ctxOf_written hctx hslots rfl) dist
  rw [hwritten, State.modStw, State.stw_setStw, State.setStw_setStw] at hretire
  have hcounted := ((s.setStw n ((s.stw n).retiredWith slot c r v)).count_watched 6 0 n (some (s.queue q).part) 1).trans
    (State.count_watched _ 7 0 q (some (s.queue q).part) 1)
  obtain ⟨d, hpc, hcnt, hpass⟩ := State.passEntries_settled (State.count (State.count
    (s.setStw n ((s.stw n).retiredWith slot c r v)) 6 0 n (some (s.queue q).part)) 7 0 q (some (s.queue q).part)) q dist
  rw [hcounted.queue q] at hpc hcnt
  exact ⟨d, hpc, hcnt, (hretire.trans hpass) ▸ hcounted.setQueue q d⟩

end

/-- Settles O36: retiring changes the context's register, the steward's count, the queue and what is watched, each field by field. -/
theorem retireWritesOneRegister : Obligations.RetireWritesOneRegister := by
  unfold Obligations.RetireWritesOneRegister
  intro q r dist v n slot c s hctx hloaded hlen hr hslots
  obtain ⟨d, hpc, hcnt, hwatched⟩ := State.retire_watched hctx hloaded hslots r dist v
  obtain ⟨o, l, p, z, hretire⟩ := hwatched
  have hwritten : (s.retire q [(r, v)] dist).ctxOf q = some (n, slot, { c with regs := c.regs.set r v }) := by
    rw [hretire]
    exact State.ctxOf_written (w := (s.stw n).retiredWith slot c r v) hctx hslots rfl
  have hreg (k : Nat) : (s.retire q [(r, v)] dist).greg q k = (c.regs.set r v).getD k 0 := by
    simp only [State.greg, hwritten]
  have hwas (k : Nat) : s.greg q k = c.regs.getD k 0 := by
    simp only [State.greg, hctx]
  have hqueue : (s.retire q [(r, v)] dist).queue q = d := by
    rw [hretire]
    exact State.queue_setQueue _ _ _
  have hstw : (s.retire q [(r, v)] dist).stw n = (s.stw n).retiredWith slot c r v := by
    rw [hretire]
    exact State.stw_setStw _ _ _
  refine ⟨?register, fun k _ hk => ?others, hqueue.symm ▸ hpc, hqueue.symm ▸ hcnt, fun p hp => ?queues, congrArg Stw.retired hstw,
    fun m hm => ?stewards, ?frame⟩
  case register => rw [hreg, List.getD_eq_getElem?_getD, List.getElem?_set_self (hlen ▸ hr), Option.getD_some]
  case others => rw [hreg, hwas, List.getD_eq_getElem?_getD, List.getElem?_set_ne hk.symm, ← List.getD_eq_getElem?_getD]
  case queues =>
    rw [hretire]
    exact State.queue_setQueue_ne _ _ hp
  case stewards =>
    rw [hretire]
    exact State.stw_setStw_ne _ _ hm
  case frame =>
    rw [hretire]
    exact ⟨rfl, rfl, rfl, rfl, rfl, rfl⟩

/-! ### Control (R302, Table 12.6) -/

section
variable {s : State} {q x : Nat} {writes : List (Nat × Word)}

theorem State.jump_outside (h : (s.queue q).size ≤ x) : s.jump q x writes = s.execFault q qfFlow := if_pos h

/-- Entries from PC forward to ring index `x`, counted round the ring. -/
def Queue.ahead (d : Queue) (x : Nat) : Nat := (x + d.size - d.pc) % d.size

theorem State.jump_inside (h : x < (s.queue q).size) : s.jump q x writes =
    if !(s.queue q).program && (decide ((s.queue q).ahead x = 0) ||
      decide (((s.queue q).tail - (s.queue q).cnt).toNat ≤ (s.queue q).ahead x)) then s.execFault q qfFlow
    else s.finish q writes ((s.queue q).ahead x) := by
  unfold State.jump
  dsimp only
  rw [max_eq_left (by omega : 1 ≤ (s.queue q).size)]
  exact if_neg (not_le.mpr h)

theorem State.jump_program (h : x < (s.queue q).size) (hprogram : (s.queue q).program = true) :
    s.jump q x writes = s.finish q writes ((s.queue q).ahead x) := by
  rw [State.jump_inside h, hprogram]
  exact if_neg Bool.false_ne_true

/-- A FIFO queue goes to an entry ahead that is published. -/
theorem State.jump_published (h : x < (s.queue q).size)
    (hahead : 0 < (s.queue q).ahead x ∧ (s.queue q).ahead x < ((s.queue q).tail - (s.queue q).cnt).toNat) :
    s.jump q x writes = s.finish q writes ((s.queue q).ahead x) := by
  rw [State.jump_inside h]
  exact if_neg (by simp only [Bool.and_eq_true, Bool.or_eq_true, decide_eq_true_eq]; omega)

theorem State.jump_unpublished (h : x < (s.queue q).size) (hfifo : (s.queue q).program = false)
    (hahead : ¬ (0 < (s.queue q).ahead x ∧ (s.queue q).ahead x < ((s.queue q).tail - (s.queue q).cnt).toNat)) :
    s.jump q x writes = s.execFault q qfFlow := by
  rw [State.jump_inside h, hfifo]
  refine if_pos ?_
  simp only [Bool.not_false, Bool.true_and, Bool.or_eq_true, decide_eq_true_eq]
  omega

end

/-- Settles O35: each clause is one outcome of one instruction, and a transfer goes by the place of its entry. -/
theorem controlInsns : Obligations.ControlInsns := by
  unfold Obligations.ControlInsns
  refine ⟨fun n q w s => ⟨?setg, ?addg, ?jmp, ?bnz, ?loop, ?halt, ?yield⟩, fun q x writes s =>
    ⟨State.jump_outside, State.jump_program, fun h hfifo => ⟨State.jump_published h, State.jump_unpublished h hfifo⟩⟩⟩
  case setg => exact fun hpick honly => does_legal (fun _ => rfl) hpick honly rfl
  case addg => exact fun hpick honly => does_legal (fun _ => rfl) hpick honly rfl
  case jmp => exact fun hpick honly => does_legal (fun _ => rfl) hpick honly rfl
  case bnz =>
    intro hpick honly b m
    have hdoes {c u} (hbits : decide (b.gA q w &&& m ≠ 0) = c)
        (h : (if c != w.flag 0 then b.jump q w.dest [] else b.finish q []) = u) : Does (.bnz n w) s u :=
      does_legal (fun _ => rfl) hpick honly (by subst hbits; exact h)
    exact ⟨fun hflag hbits => hdoes (decide_eq_true hbits) (by simp [hflag]),
      fun hflag hbits => hdoes (decide_eq_false (not_not_intro hbits)) (by simp [hflag]),
      fun hflag hbits => hdoes (decide_eq_true hbits) (by simp [hflag]),
      fun hflag hbits => hdoes (decide_eq_false (not_not_intro hbits)) (by simp [hflag])⟩
  case loop =>
    intro hpick honly b
    exact ⟨fun hmore => does_legal (fun _ => rfl) hpick honly (if_pos hmore),
      fun hlast => does_legal (fun _ => rfl) hpick honly (if_neg (not_lt.mpr hlast))⟩
  case halt =>
    intro hpick honly u
    exact ⟨fun hfifo => does_legal (fun _ => rfl) hpick honly (if_neg (ne_true_of_eq_false hfifo)),
      fun hprogram => does_legal (fun _ => rfl) hpick honly (if_pos hprogram)⟩
  case yield =>
    intro hpick honly b x hctx
    refine does_legal (fun _ => rfl) hpick honly ?_
    simp only [b, hctx]

end Sys2Proof.Machine
end

section
/-! SUPPORT. The move instructions (R303, R304, Table 12.7): an instruction that has just begun, a move's operand checks and its pieces,
with the obligation about them. -/

namespace Sys2Proof.Machine
open Sys2Proof.Safety

/-! ### The present instruction at the end of the list (R284) -/

/-- The queue's present instruction is `i`, the last of its list, after those of `l`, which have retired. -/
structure State.PresentLast (s : State) (q : Nat) (l : List Insn) (i : Insn) : Prop where
  insns : (s.queue q).insns = l ++ [i]
  before : ∀ j ∈ l, j.retired = true
  unretired : i.retired = false

section
variable {s : State} {q : Nat} {l : List Insn} {i : Insn}

/-- An instruction that a steward begins stands last and has done nothing yet. -/
theorem State.begin_presentLast {n : Nat} {word : BitVec 128} (h : (s.queue q).present = none) :
    ∃ l i, (s.begin n q word).PresentLast q l i ∧ i.off = 0 := by
  refine ⟨(s.queue q).insns, { seq := (s.queue q).nextSeq, pc := (s.queue q).pc, cnt := (s.queue q).cnt, word := word },
    ⟨?_, fun j hj => ?_, rfl⟩, rfl⟩
  · unfold State.begin
    dsimp only
    rw [h]
    exact congrArg Queue.insns (State.queue_setQueue _ _ _)
  · simpa using List.find?_eq_none.mp h j hj

theorem State.PresentLast.present (h : s.PresentLast q l i) : (s.queue q).present = some i := by
  have hnone : l.find? (fun j => !j.retired) = none := List.find?_eq_none.mpr fun j hj => by simp [h.before j hj]
  simp [Queue.present, h.insns, List.find?_append, hnone, h.unretired]

/-- A change of the present instruction changes the last one of the list. -/
theorem State.PresentLast.modInsn_eq (h : s.PresentLast q l i) (f : Insn → Insn) :
    s.modInsn q f = s.setQueue q { s.queue q with insns := l ++ [f i] } := by
  have hbefore : (l.map fun j => if j.retired then j else f j) = l :=
    (List.map_congr_left fun j hj => if_pos (h.before j hj)).trans (List.map_id' l)
  simp [State.modInsn, State.modQueue, h.insns, hbefore, h.unretired]

theorem State.PresentLast.modInsn (h : s.PresentLast q l i) {f : Insn → Insn} (hf : (f i).retired = false) :
    (s.modInsn q f).PresentLast q l (f i) := by
  rw [h.modInsn_eq]
  exact ⟨congrArg Queue.insns (State.queue_setQueue _ _ _), h.before, hf⟩

/-- Of two changes that leave it present the second sees what the first one made. -/
theorem State.PresentLast.modInsn_modInsn (h : s.PresentLast q l i) {f g k : Insn → Insn} (hf : (f i).retired = false)
    (hk : g (f i) = k i) : (s.modInsn q f).modInsn q g = s.modInsn q k := by
  rw [(h.modInsn hf).modInsn_eq, h.modInsn_eq, h.modInsn_eq, hk, State.setQueue_setQueue, State.queue_setQueue]

end

/-! ### Moves and their pieces (R299, R303) -/

section
variable {s : State} {q : Nat} {l : List Insn} {i : Insn} {d c len : Word} {checks : List Nat} {fd fs : Bool}
  {piece : Insn → Word → Word → Nat → State → State}

/-- The bytes of a piece: those to the end of the move, and no further than the next 2 MiB boundary of each fabric address. -/
def pieceLen (fd fs : Bool) (d c : Word) (n : Nat) : Nat :=
  let k := if fd then min n (toPage d) else n
  if fs then min k (toPage c) else k

theorem State.movePiece_present (h : (s.queue q).present = some i) :
    s.movePiece q fd fs piece =
      let d := i.dst + BitVec.ofNat 64 i.off
      let c := i.src + BitVec.ofNat 64 i.off
      let k := pieceLen fd fs d c (i.len - i.off)
      piece i d c k (s.modInsn q fun i => { i with off := i.off + k }) := by
  unfold State.movePiece
  rw [h]
  rfl

/-- A move that has come some way goes on with its next piece. -/
theorem State.move_continues (h : (s.queue q).present = some i) (hoff : i.off ≠ 0) :
    s.move q d c len checks fd fs piece = s.movePiece q fd fs piece := by
  unfold State.move
  rw [h]
  exact if_pos hoff

/-- A move that begins checks its length, then its operands. -/
theorem State.move_begins (h : (s.queue q).present = some i) (hoff : i.off = 0) :
    s.move q d c len checks fd fs piece = s.checked q [lengthCheck len] fun s =>
      if len = 0 then s.finish q []
      else s.checked q checks fun s =>
        (s.modInsn q fun i => { i with dst := d, src := c, len := len.toNat }).movePiece q fd fs piece := by
  unfold State.move
  rw [h]
  exact if_neg (not_not_intro hoff)

theorem State.move_long (h : (s.queue q).present = some i) (hoff : i.off = 0) (hlen : bits len 40 24 ≠ 0) :
    s.move q d c len checks fd fs piece = s.execFault q qfRequest stMalformed := by
  rw [State.move_begins h hoff, lengthCheck_long hlen]
  exact State.checked_cons_bad (by decide)

theorem State.move_empty (h : (s.queue q).present = some i) (hoff : i.off = 0) (hlen : len = 0) :
    s.move q d c len checks fd fs piece = s.finish q [] := by
  subst hlen
  rw [State.move_begins h hoff, lengthCheck_short (by decide), State.checked_cons_ok rfl]
  rfl

/-- A length that is one, and not zero, leaves the operands to be checked. -/
theorem State.move_measured (h : (s.queue q).present = some i) (hoff : i.off = 0) (hpos : 0 < len.toNat) (hlen : len.toNat < 2 ^ 40) :
    s.move q d c len checks fd fs piece = s.checked q checks fun s =>
      (s.modInsn q fun i => { i with dst := d, src := c, len := len.toNat }).movePiece q fd fs piece := by
  have hne : len ≠ 0 := fun hzero => hpos.ne' (congrArg BitVec.toNat hzero)
  rw [State.move_begins h hoff, lengthCheck_short hlen, State.checked_cons_ok rfl]
  exact if_neg hne

/-- The first piece of a move starts at its operands. -/
theorem State.move_first (h : s.PresentLast q l i) (hoff : i.off = 0) (n : Nat) :
    (s.modInsn q fun i => { i with dst := d, src := c, len := n }).movePiece q fd fs piece =
      piece { i with dst := d, src := c, len := n } d c (pieceLen fd fs d c n)
        (s.modInsn q fun i => { i with dst := d, src := c, len := n, off := pieceLen fd fs d c n }) := by
  rw [State.movePiece_present (h.modInsn h.unretired).present]
  dsimp only
  rw [hoff, Nat.sub_zero, BitVec.add_zero, BitVec.add_zero, h.modInsn_modInsn h.unretired (by rw [hoff, Nat.zero_add])]

theorem State.move_refused {x : Nat} (h : (s.queue q).present = some i) (hoff : i.off = 0) (hpos : 0 < len.toNat)
    (hlen : len.toNat < 2 ^ 40) (hbad : firstBad checks = x) (hx : x ≠ stOk) :
    s.move q d c len checks fd fs piece = s.execFault q qfRequest x :=
  (State.move_measured h hoff hpos hlen).trans (State.checked_bad hbad hx s q _)

/-- A move whose operands pass every check sends its first piece. -/
theorem State.move_goes (h : s.PresentLast q l i) (hoff : i.off = 0) (hpos : 0 < len.toNat) (hlen : len.toNat < 2 ^ 40)
    (hok : firstBad checks = stOk) :
    s.move q d c len checks fd fs piece = piece { i with dst := d, src := c, len := len.toNat } d c (pieceLen fd fs d c len.toNat)
      (s.modInsn q fun i => { i with dst := d, src := c, len := len.toNat, off := pieceLen fd fs d c len.toNat }) :=
  ((State.move_measured h.present hoff hpos hlen).trans (State.checked_ok hok s q _)).trans (State.move_first h hoff _)

end

/-! ### The move instructions (R304, Table 12.7) -/

/-- COPY, PUT and GET with their opcodes. -/
def movesOfLength (n : StwId) (w : Fields) : List (Instr × Nat) := [(.copy n w, 0), (.put n w, 1), (.get n w, 2)]

/-- COPY, PUT and GET are moves of the length that B names. -/
theorem movesOfLength_move {n : StwId} {w : Fields} {e : Instr × Nat} (he : e ∈ movesOfLength n w)
    (honly : w.only true true true false 0 0 = true) : ∃ body : Nat → State → State,
      (∀ t, exec e.1 t = .next (t.insnRow n.val (insnWord 1 e.2 w) body).kick) ∧
      ∀ q s, ∃ d c checks fd fs piece, body q s = s.move q d c (s.gB q w) checks fd fs piece := by
  fin_cases he <;> exact ⟨_, fun _ => rfl, fun q s => ⟨_, _, _, _, _, _, State.legal_yes honly s q _⟩⟩

section
variable {s : State} {q : Nat} {w : Fields}

theorem State.issueCheck_reserved {part n r : Nat} {a : Word} (h : 2 ≤ bits a 56 8) : s.issueCheck part a n r = stBadaddr := by
  have hrack : rackGlobal a = false := decide_eq_false (by omega)
  have hsel : bits a 56 8 ≠ 0 := by omega
  simp [State.issueCheck, hrack, hsel]

end

/-- Settles O37: a later piece, and for each instruction its length, its checks and its first piece. -/
theorem moveInsns : Obligations.MoveInsns := by
  unfold Obligations.MoveInsns
  refine ⟨fun q dst src len checks fd fs piece i s hpresent hoff =>
    (State.move_continues hpresent hoff).trans (State.movePiece_present hpresent), fun n q w s hnone => ?_⟩
  have hbegun (op : Nat) := State.begin_presentLast (n := n.val) (word := insnWord 1 op w) hnone
  refine ⟨fun e he hpick honly => ?lengths, ?overlap, ?copy, ?put, ?get, ?puti, ?fill⟩
  case lengths =>
    obtain ⟨l, i, hlast, hoff⟩ := hbegun e.2
    obtain ⟨body, hexec, hbody⟩ := movesOfLength_move he honly
    obtain ⟨_, _, _, _, _, _, hmove⟩ := hbody q (s.begin n.val q (insnWord 1 e.2 w))
    exact ⟨fun hzero => does_insn hexec hpick (hmove.trans (State.move_empty hlast.present hoff hzero)),
      fun hlong => does_insn hexec hpick (hmove.trans (State.move_long hlast.present hoff hlong))⟩
  case overlap =>
    intro hpick honly b d c k hpos hlen hspace hd hc
    obtain ⟨l, i, hlast, hoff⟩ := hbegun 0
    have hover : overlaps (b.gD q w) (b.gA q w) k = true := decide_eq_true ⟨hspace, hd, hc⟩
    exact does_legal (fun _ => rfl) hpick honly (State.move_refused hlast.present hoff hpos hlen
      (by rw [lenOf_short hlen, if_pos hover]; rfl) (by decide))
  case copy =>
    intro hpick honly b d c k hpos hlen hover hdst hsrc m
    obtain ⟨l, i, hlast, hoff⟩ := hbegun 0
    exact does_legal (fun _ => rfl) hpick honly (State.move_goes hlast hoff hpos hlen
      (by rw [lenOf_short hlen, firstBad_cons_ok (if_neg (ne_true_of_eq_false hover)), firstBad_cons_ok hdst, firstBad_cons_ok hsrc]; rfl))
  case put =>
    intro hpick honly b d c k hpos hlen hdst hsrc m u
    obtain ⟨l, i, hlast, hoff⟩ := hbegun 1
    exact does_legal (fun _ => rfl) hpick honly (State.move_goes hlast hoff hpos hlen
      (by rw [lenOf_short hlen, firstBad_cons_ok hdst, firstBad_cons_ok hsrc]; rfl))
  case get =>
    intro hpick honly b d c k hpos hlen hdst hsrc m u
    obtain ⟨l, i, hlast, hoff⟩ := hbegun 2
    exact does_legal (fun _ => rfl) hpick honly (State.move_goes hlast hoff hpos hlen
      (by rw [lenOf_short hlen, firstBad_cons_ok hdst, firstBad_cons_ok hsrc]; rfl))
  case puti =>
    intro hpick k hlegal b d
    refine ⟨fun hzero => does_legal (fun _ => rfl) hpick hlegal (if_pos hzero),
      fun hpos hline hdst => does_legal (fun _ => rfl) hpick hlegal ((if_neg hpos.ne').trans (State.checked_ok ?_ _ _ _))⟩
    rw [firstBad_cons_ok (if_pos hline), firstBad_cons_ok hdst]
    rfl
  case fill =>
    intro hpick honly b d k
    obtain ⟨l, i, hlast, hoff⟩ := hbegun 4
    refine ⟨fun hzero => ?zero, fun hlong => ?long, fun hpos hlen hsel => ?flat, fun hpos hlen hsel => ?reserved,
      fun hpos hlen hrack hdst => ?goes⟩
    case zero => exact does_legal (fun _ => rfl) hpick honly (State.move_empty hlast.present hoff (BitVec.eq_of_toNat_eq hzero))
    case long => exact does_legal (fun _ => rfl) hpick honly (State.move_long hlast.present hoff (bits_length_ne_zero hlong))
    case flat =>
      exact does_legal (fun _ => rfl) hpick honly (State.move_refused hlast.present hoff hpos hlen
        (by rw [if_pos hsel]; rfl) (by decide))
    case reserved =>
      have hnonzero : bits d 56 8 ≠ 0 := by omega
      exact does_legal (fun _ => rfl) hpick honly (State.move_refused hlast.present hoff hpos hlen
        (by rw [firstBad_cons_ok (if_neg hnonzero), State.issueCheck_reserved hsel]; rfl) (by decide))
    case goes =>
      have hnonzero : bits d 56 8 ≠ 0 := (of_decide_eq_true hrack).trans_ne one_ne_zero
      exact does_legal (fun _ => rfl) hpick honly (State.move_goes hlast hoff hpos hlen
        (by rw [lenOf_short hlen, firstBad_cons_ok (if_neg hnonzero), firstBad_cons_ok hdst]; rfl))

end Sys2Proof.Machine
end

section
/-! SUPPORT. The atomic, sync and placement instructions (R305, R307, R310, R311, Tables 12.8 to 12.10): what they ask and where they wait,
with the obligations about them. -/

namespace Sys2Proof.Machine
open Sys2Proof.Safety

/-! ### A queue whose request is sent goes on (R301) -/

section
variable {s : State} {q : Nat} {i : Insn}

/-- An instruction that parks for an answer is no SLIP. -/
theorem isSlip_of_parks {word : BitVec 128} (h : parks word = true) : isSlip word = false := by
  simp only [parks, isSlip, decide_eq_true_eq, decide_eq_false_iff_not] at h ⊢
  omega

/-- An active queue whose present instruction parks and has asked waits for the answer once no request of it is left to send. -/
theorem State.settleQueue_parks (hactive : ((s.settleHead q).queue q).st = .active)
    (hpresent : ((s.settleHead q).queue q).present = some i) (hparks : parks i.word = true) (hasked : i.off ≠ 0) :
    s.settleQueue q = if (s.settleHead q).unsent q i.seq = true then s.settleHead q else (s.settleHead q).parkQueue q .answer := by
  unfold State.settleQueue
  dsimp only
  rw [hactive, hpresent]
  simp [isSlip_of_parks hparks, hparks, hasked]

theorem State.settleQueue_sent (hwaiting : ((s.settleHead q).queue q).st = .waiting) (hpark : ((s.settleHead q).queue q).park = .sending)
    (hpresent : ((s.settleHead q).queue q).present = some i) (hsent : (s.settleHead q).unsent q i.seq = false) :
    s.settleQueue q = (s.settleHead q).finish q [] := by
  unfold State.settleQueue
  dsimp only
  rw [hwaiting, hpark, hpresent]
  exact if_neg (ne_true_of_eq_false hsent)

end

/-! ### Atomics (R305) -/

/-- The atomic instructions with their operations and opcodes. -/
def atomicRows (n : StwId) (w : Fields) : List (Instr × AtomOp × Nat) :=
  [(.aadd n w, .aadd, 0), (.amin n w, .amin, 1), (.amax n w, .amax, 2), (.aand n w, .aand, 3), (.aor n w, .aor, 4), (.axor n w, .axor, 5),
    (.aswp n w, .aswp, 6), (.acas n w, .acas, 7)]

theorem atomicRows_exec {n : StwId} {w : Fields} {e : Instr × AtomOp × Nat} (he : e ∈ atomicRows n w) :
    e.2.1.num = e.2.2 ∧ ∀ t, exec e.1 t = .next (t.insnRow n.val (insnWord 2 e.2.2 w) fun q t => t.atomic e.2.1 q w).kick := by
  fin_cases he <;> exact ⟨rfl, fun _ => rfl⟩

section
variable {s : State} {q : Nat} {w : Fields} {op : AtomOp}

/-- An atomic's operand: of its size and aligned to it, and one that its partition may change. -/
theorem State.atomic_eq (hlegal : (w.only true true true (decide (op = .acas)) 0 0x1F3 &&
      atomAccepts op (bits w.x 4 4) (bits w.x 0 2) (bit w.x 8)) = true) :
    s.atomic op q w = s.checked q [if (s.gA q w).toNat % 2 ^ bits w.x 0 2 = 0 then stOk else stMalformed,
        s.issueCheck (s.queue q).part (s.gA q w) (2 ^ bits w.x 0 2) 2] fun s =>
      ((s.fabReq q (s.gA q w) (2 ^ bits w.x 0 2) (0x88 + op.num) (0x98 + op.num)
        (leBytes 16 (bits w.x 0 2 <<< 12 + bits w.x 4 4 <<< 15 + b2n (bit w.x 8) <<< 19) ++
          leBytes 8 ((s.gB q w).toNat % 2 ^ (8 * 2 ^ bits w.x 0 2)) ++
          leBytes 8 (if op = .acas then (s.gC q w).toNat % 2 ^ (8 * 2 ^ bits w.x 0 2) else 0)) .plain true true).modReq s.nextId
        fun r => { r with pkt := { r.pkt with len := 32 } }).requested q := by
  unfold State.atomic
  exact State.legal_yes hlegal s q _

end

/-- Settles O38: an instruction that has asked, and the outcomes of an atomic's checks. -/
theorem atomicInsns : Obligations.AtomicInsns := by
  unfold Obligations.AtomicInsns
  refine ⟨fun q i s => ?asked, fun n q w s e he hpick hlegal => ?asks⟩
  case asked =>
    intro t hactive hpresent hparks hasked
    have hsettle := State.settleQueue_parks hactive hpresent hparks hasked
    exact ⟨fun hsent => hsettle.trans (if_neg (ne_true_of_eq_false hsent)), fun hunsent => hsettle.trans (if_pos hunsent)⟩
  case asks =>
    intro b k
    obtain ⟨hnum, hexec⟩ := atomicRows_exec he
    have hatomic := State.atomic_eq (s := b) (q := q) hlegal
    rw [hnum] at hatomic
    refine ⟨fun haligned hcheck => does_insn hexec hpick (hatomic.trans (State.checked_ok ?_ b q _)),
      fun haligned hcheck => does_insn hexec hpick (hatomic.trans (State.checked_bad ?_ hcheck b q _)),
      fun hunaligned => does_insn hexec hpick (hatomic.trans (State.checked_bad ?_ (by decide) b q _))⟩
    · rw [firstBad_cons_ok (if_pos haligned), firstBad_cons_ok hcheck]
      rfl
    · rw [firstBad_cons_ok (if_pos haligned), firstBad_cons_bad hcheck]
    · rw [if_neg hunaligned]
      rfl

/-! ### Sync (R289, R307) -/

theorem waitHolds_iff (v x : Word) : (waitHolds 0 v x = true ↔ x.toNat ≤ v.toNat) ∧ (waitHolds 1 v x = true ↔ v = x) ∧
    (waitHolds 2 v x = true ↔ v ≠ x) :=
  ⟨decide_eq_true_iff, decide_eq_true_iff, decide_eq_true_iff⟩

/-- Settles O39: each instruction by its object and by what is still to be written, and a request that is sent. -/
theorem syncInsns : Obligations.SyncInsns := by
  unfold Obligations.SyncInsns
  refine ⟨fun n q w s => ⟨?sig, ?wait, ?rsig, ?fence⟩, fun q i s => State.settleQueue_sent, waitHolds_iff⟩
  case sig =>
    intro hpick honly b o
    refine ⟨fun hforeign => ?foreign, fun howned hwhole hwritten => ?written, fun howned hwhole hwaits => ?waits⟩
    case foreign => exact does_legal (fun _ => rfl) hpick honly (State.owned_no hforeign _)
    case written => exact does_legal (fun _ => rfl) hpick honly ((State.owned_yes howned hwhole _).trans (if_pos hwritten))
    case waits =>
      exact does_legal (fun _ => rfl) hpick honly ((State.owned_yes howned hwhole _).trans (if_neg (ne_true_of_eq_false hwaits)))
  case wait =>
    intro hpick hlegal b o v
    refine ⟨fun hforeign => ?foreign, fun howned hwhole hholds => ?holds, fun howned hwhole hwaits => ?waits⟩
    case foreign => exact does_legal (fun _ => rfl) hpick hlegal (State.owned_no hforeign _)
    case holds => exact does_legal (fun _ => rfl) hpick hlegal ((State.owned_yes howned hwhole _).trans (if_pos hholds))
    case waits =>
      exact does_legal (fun _ => rfl) hpick hlegal ((State.owned_yes howned hwhole _).trans (if_neg (ne_true_of_eq_false hwaits)))
  case rsig =>
    intro hpick honly b v
    exact ⟨fun hwritten => does_legal (fun _ => rfl) hpick honly (if_pos hwritten),
      fun hwaits => does_legal (fun _ => rfl) hpick honly (if_neg (ne_true_of_eq_false hwaits))⟩
  case fence =>
    intro hpick honly b
    exact ⟨fun hquiet => does_legal (fun _ => rfl) hpick honly (if_pos hquiet),
      fun hopen => does_legal (fun _ => rfl) hpick honly (if_neg (ne_true_of_eq_false hopen))⟩

/-! ### Placement (R310 to R312) -/

section
variable {s : State} {q : Nat} {a : Word}

theorem State.placeCheck_flat (h : bits a 56 8 = 0) : s.placeCheck q a = stMalformed := if_pos h

theorem State.placeCheck_unreadable (hsel : bits a 56 8 ≠ 0) (hread : s.issueCheck (s.queue q).part a 1 0 ≠ stOk) :
    s.placeCheck q a = s.issueCheck (s.queue q).part a 1 0 := (if_neg hsel).trans (if_pos hread)

theorem State.placeCheck_readable (hsel : bits a 56 8 ≠ 0) (hread : s.issueCheck (s.queue q).part a 1 0 = stOk) :
    s.placeCheck q a =
      if (s.queue q).part = 0 ∨ s.segOwner (keySeg (pageKey a)) = (s.queue q).part then stOk else stDenied :=
  (if_neg hsel).trans (if_neg (not_not_intro hread))

end

/-- The placement instructions of one PL_ASK with their kinds and opcodes. -/
def placeRows (n : StwId) (w : Fields) : List (Instr × Nat × Nat) :=
  [(.pin n w, kPin, 0), (.unpin n w, kUnpin, 1), (.migr n w, kMigr, 2), (.repl n w, kRepl, 3), (.unrepl n w, kUnrepl, 4)]

theorem placeRows_exec {n : StwId} {w : Fields} {e : Instr × Nat × Nat} (he : e ∈ placeRows n w) (t : State) :
    exec e.1 t = .next (t.insnRow n.val (insnWord 5 e.2.2 w) fun q t => t.place1 e.2.1 q w).kick := by
  fin_cases he <;> rfl

section
variable {s : State} {q kind : Nat} {w : Fields}

/-- The chip a placement is for. -/
def State.placeTarget (s : State) (q kind : Nat) (w : Fields) : Word := if kind = kUnpin then 0 else s.gB q w

/-- The PL_ASK of a placement instruction, which is its one request. -/
def State.place1Ask (s : State) (q kind : Nat) (w : Fields) (a t : Word) : State :=
  (s.placeAsk q (pageKey a) (fields [(60, 4, kind), (49, 11, t.toNat), (48, 1, b2n (w.flag 0)), (47, 1, b2n (w.flag 1)),
    (35, 12, bits w.x 0 12), (24, 11, bits w.x 16 11), (23, 1, b2n (decide ((s.queue q).part = 0)))])).requested q

/-- A placement instruction with good operands asks, once its object is found to be its partition's if it is of this chip. -/
theorem State.place1_checked (honly : w.only true true (decide (kind ≠ kUnpin)) false 3 0x7FF0FFF = true)
    (htarget : bits (s.placeTarget q kind w) 11 53 = 0) (hcheck : s.placeCheck q (s.gA q w) = stOk) :
    s.place1 kind q w =
      if bits w.x 16 11 = s.chip.toNat then
        s.owned q (bits w.x 0 12) fun s' => s'.place1Ask q kind w (s.gA q w) (s.placeTarget q kind w)
      else s.place1Ask q kind w (s.gA q w) (s.placeTarget q kind w) := by
  have htgt : (if decide (kind ≠ kUnpin) = true then s.gB q w else 0) = s.placeTarget q kind w := by
    simp only [decide_eq_true_eq, ite_not]
    rfl
  unfold State.place1
  dsimp only
  rw [State.legal_yes honly, htgt, State.checked_ok (by rw [if_pos htarget, firstBad_cons_ok rfl, firstBad_cons_ok hcheck]; rfl)]
  rfl

end

/-- Settles O41: a placement's operand and object, HINT's pages, and the check of an operand. -/
theorem placementInsns : Obligations.PlacementInsns := by
  unfold Obligations.PlacementInsns
  refine ⟨fun n q w s => ⟨fun e he hpick honly => ?place, ?hint⟩, fun q a s => ⟨State.placeCheck_flat, State.placeCheck_unreadable,
    fun hsel hread => ⟨fun howner => (State.placeCheck_readable hsel hread).trans (if_pos howner),
      fun hforeign => (State.placeCheck_readable hsel hread).trans (if_neg hforeign)⟩⟩⟩
  case place =>
    intro b a t htarget hcheck
    have hplace := State.place1_checked honly htarget hcheck
    refine ⟨fun hobject => does_insn (placeRows_exec he) hpick (hplace.trans ?_),
      fun hhere hforeign => does_insn (placeRows_exec he) hpick ((hplace.trans (if_pos hhere)).trans (State.owned_no hforeign _))⟩
    by_cases hhere : bits w.x 16 11 = b.chip.toNat
    · obtain ⟨howned, hwhole⟩ := hobject hhere
      exact (if_pos hhere).trans (State.owned_yes howned hwhole _)
    · exact if_neg hhere
  case hint =>
    intro hpick honly b k
    refine ⟨fun hzero => ?none, fun hsome hcheck => ?asks, fun hsome hcheck => ?refused⟩
    case none => exact does_legal (fun _ => rfl) hpick honly (if_pos (congrArg BitVec.toNat hzero))
    case asks =>
      exact does_legal (fun _ => rfl) hpick honly ((if_neg fun hzero => hsome (BitVec.eq_of_toNat_eq hzero)).trans
        (State.checked_ok (firstBad_cons_ok hcheck) b q _))
    case refused =>
      exact does_legal (fun _ => rfl) hpick honly ((if_neg fun hzero => hsome (BitVec.eq_of_toNat_eq hzero)).trans
        (State.checked_bad (firstBad_cons_bad hcheck) hcheck b q _))

end Sys2Proof.Machine
end

section
/-! SUPPORT. The collective and table instructions (R308, R309, R313, R314, Table 12.11): the group's own queue, its tree, and the operands
of each, with the obligations about them. -/

namespace Sys2Proof.Machine
open Sys2Proof.Safety

/-! ### Collectives (R308, R309) -/

section
variable {s : State} {q g : Nat} {w : Fields} {k : State → State}

theorem State.commOnly_own (hcomm : (s.queue q).comm = true) (hgroup : (s.queue q).group = g) : s.commOnly q g k = k s :=
  if_pos ⟨hcomm, hgroup⟩

theorem State.commOnly_other (h : ¬ ((s.queue q).comm = true ∧ (s.queue q).group = g)) :
    s.commOnly q g k = s.execFault q qfGroup := if_neg h

/-- A queue that is not the group's own and a group without a tree fault GROUP alike. -/
theorem State.commTree_fault (h : ¬ ((s.queue q).comm = true ∧ (s.queue q).group = g ∧ tValid s.sipTab g = true)) :
    (s.commOnly q g fun t => t.treeOnly q g k) = s.execFault q qfGroup := by
  by_cases hown : (s.queue q).comm = true ∧ (s.queue q).group = g
  · exact (State.commOnly_own hown.1 hown.2).trans (if_neg fun htree => h ⟨hown.1, hown.2, htree⟩)
  · exact State.commOnly_other hown

theorem State.commTree_goes (hcomm : (s.queue q).comm = true) (hgroup : (s.queue q).group = g) (htree : tValid s.sipTab g = true) :
    (s.commOnly q g fun t => t.treeOnly q g k) = k s := (State.commOnly_own hcomm hgroup).trans (if_pos htree)

/-- Operands that are checked only where there are elements. -/
theorem firstBad_unless {c : Prop} [Decidable c] {l : List Nat} (h : c ∨ firstBad l = stOk) :
    firstBad (if c then [] else l) = stOk := by
  split
  · rfl
  · next hc => exact h.resolve_left hc

/-- What RSC and AGT check of their operands: nothing where there are no elements. -/
def State.collChecks (s : State) (q : Nat) (w : Fields) : List Nat :=
  let n := (s.gC q w).toNat
  let len := (n * (s.fmt (bits w.x 12 4)).width + 7) / 8
  if n = 0 then []
  else [lengthCheck (s.gC q w),
    if decide (s.gA q w ≠ s.gB q w) && decide ((s.gA q w).toNat < (s.gB q w).toNat + len ∧ (s.gB q w).toNat < (s.gA q w).toNat + len)
    then stMalformed else stOk,
    s.localCheck (s.queue q).part (s.gA q w) len 0, s.localCheck (s.queue q).part (s.gB q w) len 1]

/-- The collective that an RSC or AGT hands to its group. -/
def State.collOf (s : State) (q : Nat) (w : Fields) (agt : Bool) : Coll :=
  { queue := q, seq := s.seqOf q, pc := (s.queue q).pc, cnt := (s.queue q).cnt, agt := agt, fmt := bits w.x 12 4, sgn := bit w.x 16
    src := (s.gA q w).toNat, dst := (s.gB q w).toNat, count := (s.gC q w).toNat, obj := bits w.y 0 12
    priv := decide ((s.queue q).prio = 0) }

theorem State.collChecks_ok {n len : Nat} (hn : (s.gC q w).toNat = n) (hlen : (n * (s.fmt (bits w.x 12 4)).width + 7) / 8 = len)
    (h : n = 0 ∨ n < 2 ^ 40 ∧
      (s.gA q w = s.gB q w ∨ ¬ ((s.gA q w).toNat < (s.gB q w).toNat + len ∧ (s.gB q w).toNat < (s.gA q w).toNat + len)) ∧
      s.localCheck (s.queue q).part (s.gA q w) len 0 = stOk ∧ s.localCheck (s.queue q).part (s.gB q w) len 1 = stOk) :
    firstBad (s.collChecks q w) = stOk := by
  subst hn hlen
  refine firstBad_unless (h.imp_right fun ⟨hshort, happart, hsrc, hdst⟩ => ?_)
  rw [firstBad_cons_ok (lengthCheck_short hshort), firstBad_cons_ok (if_neg ?_), firstBad_cons_ok hsrc, firstBad_cons_ok hdst]
  · rfl
  · simpa only [Bool.and_eq_true, decide_eq_true_eq, not_and_or, ne_eq, not_not] using happart

theorem State.collective_other {agt : Bool} (h : (w.only false true true true 0 0x1F1FF 0xFFF && s.fmtValid (bits w.x 12 4)) = true)
    (hother : ¬ ((s.queue q).comm = true ∧ (s.queue q).group = bits w.x 0 9 ∧ gValid s.smvTab (bits w.x 0 9) = true ∧
      gPart s.smvTab (bits w.x 0 9) = (s.queue q).part)) : s.collective agt q w = s.execFault q qfGroup := by
  unfold State.collective
  refine (State.legal_yes h s q _).trans ?_
  by_cases hown : (s.queue q).comm = true ∧ (s.queue q).group = bits w.x 0 9
  · refine (State.commOnly_own hown.1 hown.2).trans (if_pos ?_)
    by_contra hgroup
    simp only [not_or, Bool.not_eq_false, not_not] at hgroup
    exact hother ⟨hown.1, hown.2, hgroup⟩
  · exact State.commOnly_other hown

theorem State.collective_joins {agt : Bool} (h : (w.only false true true true 0 0x1F1FF 0xFFF && s.fmtValid (bits w.x 12 4)) = true)
    (hcomm : (s.queue q).comm = true) (hgroup : (s.queue q).group = bits w.x 0 9) (hvalid : gValid s.smvTab (bits w.x 0 9) = true)
    (hpart : gPart s.smvTab (bits w.x 0 9) = (s.queue q).part) (howned : s.syncOwned (bits w.y 0 12) (s.queue q).part = true)
    (hwhole : (s.sync (bits w.y 0 12)).bad = false) (hok : firstBad (s.collChecks q w) = stOk) :
    s.collective agt q w = (s.modGrp (bits w.x 0 9) fun d => { d with wait := some (s.collOf q w agt) }).parkQueue q .answer := by
  have hgood : ¬ (gValid s.smvTab (bits w.x 0 9) = false ∨ gPart s.smvTab (bits w.x 0 9) ≠ (s.queue q).part) := by
    simp [hvalid, hpart]
  unfold State.collective
  exact (State.legal_yes h s q _).trans ((State.commOnly_own hcomm hgroup).trans ((if_neg hgood).trans
    ((State.owned_yes howned hwhole _).trans (State.checked_ok hok s q _))))

end

/-- RSC and AGT with their opcodes. -/
def groupRows (n : StwId) (w : Fields) : List (Instr × Bool × Nat) := [(.rsc n w, false, 0), (.agt n w, true, 1)]

theorem groupRows_exec {n : StwId} {w : Fields} {e : Instr × Bool × Nat} (he : e ∈ groupRows n w) (t : State) :
    exec e.1 t = .next (t.insnRow n.val (insnWord 4 e.2.2 w) fun q t => t.collective e.2.1 q w).kick := by
  fin_cases he <;> rfl

/-- Settles O40: for each instruction any other queue or group, and what its own asks for. -/
theorem collectiveInsns : Obligations.CollectiveInsns := by
  unfold Obligations.CollectiveInsns
  refine fun n q w s => ⟨fun e he hpick => ?collective, ?sipred, ?sipbar, ?scale⟩
  case collective =>
    intro b g code k len hlegal
    refine ⟨fun hother => does_insn (groupRows_exec he) hpick (State.collective_other hlegal hother),
      fun hcomm hgroup hvalid hpart howned hwhole hoperands => does_insn (groupRows_exec he) hpick
        (State.collective_joins (agt := e.2.1) hlegal hcomm hgroup hvalid hpart howned hwhole
          (State.collChecks_ok rfl rfl hoperands))⟩
  case sipred =>
    intro hpick b g ty k hlegal
    refine ⟨fun hother => does_legal (fun _ => rfl) hpick hlegal (State.commTree_fault hother),
      fun hcomm hgroup htree => ⟨fun hzero => ?none, fun hpos => ?asks⟩⟩
    case none => exact does_legal (fun _ => rfl) hpick hlegal ((State.commTree_goes hcomm hgroup htree).trans (if_pos hzero))
    case asks => exact does_legal (fun _ => rfl) hpick hlegal ((State.commTree_goes hcomm hgroup htree).trans (if_neg hpos.ne'))
  case sipbar =>
    intro hpick honly b
    exact ⟨fun hother => does_legal (fun _ => rfl) hpick honly (State.commTree_fault hother),
      fun hcomm hgroup htree => does_legal (fun _ => rfl) hpick honly (State.commTree_goes hcomm hgroup htree)⟩
  case scale =>
    intro hpick b g code k len hlegal
    refine ⟨fun hother => does_legal (fun _ => rfl) hpick hlegal (State.commTree_fault hother),
      fun hcomm hgroup htree hoperands => does_legal (fun _ => rfl) hpick hlegal ((State.commTree_goes hcomm hgroup htree).trans
        (State.checked_ok (firstBad_unless (hoperands.imp_right fun ⟨hshort, hread, hwrite⟩ => ?_)) b q _))⟩
    rw [firstBad_cons_ok (lengthCheck_short hshort), firstBad_cons_ok hread, firstBad_cons_ok hwrite]
    rfl

/-! ### Tables (R313, R314, Table 12.11) -/

theorem codeOk_of_range {w : Fields} (hlow : 1 ≤ bits w.x 0 8) (hhigh : bits w.x 0 8 ≤ 9) : codeOk w = true :=
  decide_eq_true ⟨hlow, hhigh⟩

section
variable {s : State} {q : Nat} {w : Fields} {k : State → State}

theorem State.tableOnly_p0 (h : (s.queue q).part = 0) : s.tableOnly q k = k s := if_pos h

theorem State.tableOnly_other (h : (s.queue q).part ≠ 0) : s.tableOnly q k = s.execFault q qfConfig := if_neg h

/-- A TLOAD of P0 whose length is one: its words within the bank, then its source. -/
theorem insnTload_measured (hlegal : (w.only false true true true 0 0xFF && codeOk w) = true) (hpart : (s.queue q).part = 0)
    (hshort : (s.gB q w).toNat < 2 ^ 40) : insnTload q w s =
      let code := bits w.x 0 8
      let n := (s.gB q w).toNat
      let o := (s.gC q w).toNat
      if n = 0 then s.finish q []
      else if n % 8 ≠ 0 ∨ o % 8 ≠ 0 ∨ bankExtent code < o + n then s.execFault q qfConfig
      else s.checked q [s.localCheck 0 (s.gA q w) n 0] fun u =>
        (u.modInsn q fun i => { i with dst := BitVec.ofNat 64 (bankBase code + o), src := s.gA q w, len := n }).startJob
          (.tload q (u.seqOf q)) [((s.gA q w).toNat, n)] [] := by
  unfold insnTload
  exact (State.legal_yes hlegal s q _).trans ((State.tableOnly_p0 hpart).trans
    (State.checked_ok (firstBad_cons_ok (lengthCheck_short hshort)) s q _))

end

/-- Settles O42: the queue's partition, then the outcomes of a load by its length, its words and its source. -/
theorem tableInsns : Obligations.TableInsns := by
  unfold Obligations.TableInsns
  intro n q w s hlow hhigh
  have hcode := codeOk_of_range hlow hhigh
  refine ⟨?tload, ?tcommit⟩
  case tload =>
    intro hpick honly b a k o
    have hlegal : (w.only false true true true 0 0xFF && codeOk w) = true := by rw [honly, hcode]; rfl
    refine ⟨fun hpart => ?other, fun hpart hzero => ?none, fun hpart hlong => ?long,
      fun hpart hpos hshort hwords hofs hbank => ⟨fun hread => ?reads, fun hread => ?unread⟩, fun hpart hpos hshort hout => ?outside⟩
    case other => exact does_legal (fun _ => rfl) hpick hlegal (State.tableOnly_other hpart)
    case none =>
      exact does_insn (fun _ => rfl) hpick ((insnTload_measured hlegal hpart (by omega)).trans (if_pos hzero))
    case long =>
      exact does_legal (fun _ => rfl) hpick hlegal ((State.tableOnly_p0 hpart).trans (State.checked_bad
        (by rw [lengthCheck_long (bits_length_ne_zero hlong)]; rfl) (by decide) b q _))
    case outside =>
      exact does_insn (fun _ => rfl) hpick ((insnTload_measured hlegal hpart hshort).trans ((if_neg hpos.ne').trans
        (if_pos (by omega))))
    all_goals
      have hinside : ¬ (k % 8 ≠ 0 ∨ o % 8 ≠ 0 ∨ bankExtent (bits w.x 0 8) < o + k) := by omega
      have hloads := (insnTload_measured hlegal hpart hshort).trans ((if_neg hpos.ne').trans (if_neg hinside))
    case reads => exact does_insn (fun _ => rfl) hpick (hloads.trans (State.checked_cons_ok hread))
    case unread => exact does_insn (fun _ => rfl) hpick (hloads.trans (State.checked_cons_bad hread))
  case tcommit =>
    intro hpick honly b
    have hlegal : (w.only false false false false 0 0xFF && codeOk w) = true := by rw [honly, hcode]; rfl
    exact ⟨fun hpart => does_legal (fun _ => rfl) hpick hlegal (State.tableOnly_other hpart),
      fun hpart => does_legal (fun _ => rfl) hpick hlegal (State.tableOnly_p0 hpart)⟩

end Sys2Proof.Machine
end

section
/-! SUPPORT. The lane and link instructions (R316, Table 12.12), and TASTE and MARK (R317): who may run them and what each one does, with
the obligations about them. -/

namespace Sys2Proof.Machine
open Sys2Proof.Safety

/-! ### Lanes and links (R316) -/

/-- A lane or link instruction of P0 whose word passes its check goes on with what follows that check. -/
theorem does_p0 {c : Instr} {n : StwId} {q : Nat} {word : BitVec 128} {s u : State} {ok : Bool} {k : Nat → State → State}
    (hexec : ∀ t, exec c t = .next (t.insnRow n.val word fun q t => t.p0Only q fun t => t.legal q ok (k q)).kick)
    (hpick : s.pick n.val = .run q word) (hpart : ((s.begin n.val q word).queue q).part = 0) (hok : ok = true)
    (h : k q (s.begin n.val q word) = u) : Does c s u :=
  does_insn hexec hpick ((State.p0Only_p0 hpart _).trans ((State.legal_yes hok _ q _).trans h))

/-- The lane and link instructions with their opcodes. -/
def laneRows (n : StwId) (w : Fields) : List (Instr × Nat) :=
  [(.slipInstr n w, 0), (.eqset n w, 1), (.eyescan n w, 2), (.prbs n w, 3), (.train n w, 4), (.linkset n w, 5)]

theorem laneRows_exec {n : StwId} {w : Fields} {e : Instr × Nat} (he : e ∈ laneRows n w) :
    ∃ k : Nat → State → State, ∀ t, exec e.1 t = .next (t.insnRow n.val (insnWord 7 e.2 w) fun q t => t.p0Only q (k q)).kick := by
  fin_cases he <;> exact ⟨_, fun _ => rfl⟩

section
variable {s : State} {q : Nat} {w : Fields} {k : State → State}

/-- A NOTIFY goes on with an object of the queue's partition, and one that is not asked for needs none. -/
theorem State.notifies_owned
    (h : w.flag 1 = true → s.syncOwned (bits w.x 16 12) (s.queue q).part = true ∧ (s.sync (bits w.x 16 12)).bad = false) :
    s.notifies q w k = k s := by
  unfold State.notifies
  split
  · next hflag => exact State.owned_yes (h hflag).1 (h hflag).2 k
  · rfl

theorem State.notifies_foreign (hflag : w.flag 1 = true) (h : s.syncOwned (bits w.x 16 12) (s.queue q).part = false) :
    s.notifies q w k = s.execFault q qfSyncOwner := (if_pos hflag).trans (State.owned_no h k)

end

/-- Settles O43: each instruction of P0 by its flags and its object, and those of any other partition. -/
theorem laneInsns : Obligations.LaneInsns := by
  unfold Obligations.LaneInsns
  refine ⟨fun n q w s => ⟨?slip, ?slipNotify, ?eqset, ?eyescan, ?prbs, ?train, ?linkset⟩, fun n q w s e he hpick hpart => ?other⟩
  case slip =>
    intro hpick hlegal b hpart hflag
    refine does_p0 (fun _ => rfl) hpick hpart hlegal ((State.notifies_owned fun h => Bool.noConfusion (hflag.symm.trans h)).trans ?_)
    simp only [hflag, Bool.false_eq_true, if_false]
    rfl
  case slipNotify =>
    intro hpick hlegal b hpart hflag u
    refine ⟨fun howned hwhole => does_p0 (fun _ => rfl) hpick hpart hlegal
        ((State.notifies_owned fun _ => ⟨hpart.symm ▸ howned, hwhole⟩).trans ?_),
      fun hforeign => does_p0 (fun _ => rfl) hpick hpart hlegal (State.notifies_foreign hflag (hpart.symm ▸ hforeign))⟩
    simp only [hflag, if_true]
    rfl
  case eqset =>
    intro hpick hlegal b hpart u
    exact does_p0 (fun _ => rfl) hpick hpart hlegal rfl
  case eyescan =>
    intro hpick hlegal b hpart v u
    exact ⟨fun hobject => does_p0 (fun _ => rfl) hpick hpart hlegal
      (State.notifies_owned fun hflag => ⟨hpart.symm ▸ (hobject hflag).1, (hobject hflag).2⟩),
      fun hflag hforeign => does_p0 (fun _ => rfl) hpick hpart hlegal (State.notifies_foreign hflag (hpart.symm ▸ hforeign))⟩
  case prbs =>
    intro hpick hlegal b k hpart
    refine ⟨fun hflag => ?starts, fun hflag => ?counts⟩
    case starts =>
      refine does_p0 (fun _ => rfl) hpick hpart hlegal ?_
      simp only [hflag, Bool.false_eq_true, if_false]
      rfl
    case counts =>
      refine does_p0 (fun _ => rfl) hpick hpart hlegal ?_
      simp only [hflag, if_true]
      rfl
  case train =>
    intro hpick hlegal b hpart
    exact does_p0 (fun _ => rfl) hpick hpart hlegal rfl
  case linkset =>
    intro hpick a honly haddr b hpart
    have hlegal : (w.only true true false false 1 0xFF007FFF && (linksetAddr w).isSome) = true := by rw [honly, haddr]; rfl
    refine ⟨fun hflag => does_p0 (fun _ => rfl) hpick hpart hlegal ((if_pos hflag).trans ?_),
      fun hflag => does_p0 (fun _ => rfl) hpick hpart hlegal ((if_neg (ne_true_of_eq_false hflag)).trans ?_)⟩
    all_goals rw [haddr]; rfl
  case other =>
    obtain ⟨k, hexec⟩ := laneRows_exec he
    exact does_insn hexec hpick (State.p0Only_other hpart _)

/-! ### TASTE and MARK (R317) -/

theorem finish_congr {s t : State} {q : Nat} (h : s = t) : s.finish q [] = t.finish q [] := congrArg (fun u : State => u.finish q []) h

/-- Settles O44: a taste by the partition's right and its entry, a mark by the trace and its source. -/
theorem observationInsns : Obligations.ObservationInsns := by
  unfold Obligations.ObservationInsns
  refine fun n q w s => ⟨?taste, ?mark⟩
  case taste =>
    intro hpick honly b p
    refine ⟨fun hpart hdenied => does_legal (fun _ => rfl) hpick honly (finish_congr (if_pos ⟨hpart, hdenied⟩)),
      fun hallowed => ⟨fun i hfind => ?entry, fun hnone => ?noEntry⟩⟩
    all_goals
      have hgoes : ¬ (p ≠ 0 ∧ (b.part p).tasteOk = false) := fun ⟨hpart, hdenied⟩ =>
        hallowed.elim hpart fun hok => Bool.noConfusion (hdenied.symm.trans hok)
      refine does_legal (fun _ => rfl) hpick honly ((finish_congr (if_neg hgoes)).trans ?_)
    case entry => rw [hfind]
    case noEntry => rw [hnone]
  case mark =>
    intro hpick honly b
    refine ⟨fun hoff => does_legal (fun _ => rfl) hpick honly (finish_congr (if_pos (by rw [hoff]; rfl))),
      fun hon hsrc => does_legal (fun _ => rfl) hpick honly ((finish_congr (if_neg (by rw [hon]; decide))).trans ?recorded),
      fun hon hsrc => does_legal (fun _ => rfl) hpick honly ((finish_congr (if_neg (by rw [hon]; decide))).trans ?unrecorded)⟩
    case recorded => rw [if_pos hsrc]
    case unrecorded => rw [if_neg (ne_true_of_eq_false hsrc)]

end Sys2Proof.Machine
end

section
/-! SUPPORT. Tenancy (R383): what a write of SEC_PART_CTL does to the partitions, the invariant it keeps, and the obligations about
partitions. -/

namespace Sys2Proof.Machine
open Sys2Proof.Safety

/-! ### Words of fields -/

theorem bit_or {w : Nat} (x y : BitVec w) (i : Nat) : bit (x ||| y) i = (bit x i || bit y i) := BitVec.getLsbD_or

/-- Bit `i` of a word of fields is that of a field which covers it. -/
theorem bit_fields (l : List (Nat × Nat × Nat)) {i : Nat} (hi : i < 64) :
    bit (fields l) i = l.any fun f => decide (f.1 ≤ i ∧ i < f.1 + f.2.1) && f.2.2.testBit (i - f.1) := by
  have hfield (f : Nat × Nat × Nat) : bit (BitVec.ofNat 64 ((f.2.2 % 2 ^ f.2.1) <<< f.1)) i =
      (decide (f.1 ≤ i ∧ i < f.1 + f.2.1) && f.2.2.testBit (i - f.1)) := by
    simp only [bit, BitVec.getLsbD_ofNat, hi, decide_true, Bool.true_and, Nat.testBit_shiftLeft, Nat.testBit_mod_two_pow,
      ge_iff_le, Bool.decide_and, Bool.and_assoc]
    by_cases h : f.1 ≤ i
    · simp [h, Nat.sub_lt_iff_lt_add' h]
    · simp [h]
  have hfold (w : Word) : bit (l.foldl (fun w f => w ||| BitVec.ofNat 64 ((f.2.2 % 2 ^ f.2.1) <<< f.1)) w) i =
      (bit w i || l.any fun f => decide (f.1 ≤ i ∧ i < f.1 + f.2.1) && f.2.2.testBit (i - f.1)) := by
    induction l generalizing w with
    | nil => simp
    | cons f l ih => rw [List.foldl_cons, ih, bit_or, hfield, List.any_cons, Bool.or_assoc]
  exact (hfold 0).trans (by simp [bit])

/-! ### SEC_PART_CTL (Table 16.2) -/

/-- The word a write of SEC_PART_CTL carries spells the four fields it was made of. -/
theorem partOf_word (valid bf tasteOk : Bool) (tag : BitVec 16) :
    partOf { valid := valid, bf := bf, tasteOk := tasteOk, tag := tag : Part }.word =
      { valid := valid, bf := bf, tasteOk := tasteOk, tag := tag } := by
  have htag (i : Nat) (hi : i < 16) : bit (Part.word { valid := valid, bf := bf, tasteOk := tasteOk, tag := tag }) i = tag[i] := by
    rw [Part.word, bit_fields _ (by omega)]
    simp [hi, show ¬ 63 ≤ i by omega, show ¬ 62 ≤ i by omega, show ¬ 61 ≤ i by omega, show ¬ 60 ≤ i by omega, BitVec.testBit_toNat]
  unfold partOf
  congr 1
  case e_valid => rw [Part.word, bit_fields _ (by decide)]; cases valid <;> simp [b2n]
  case e_bf => rw [Part.word, bit_fields _ (by decide)]; cases bf <;> simp [b2n]
  case e_tasteOk => rw [Part.word, bit_fields _ (by decide)]; cases tasteOk <;> simp [b2n]
  case e_tag =>
    ext i hi
    simpa [bit, hi] using htag i hi

theorem State.part_writePart (s : State) (p : Nat) (v : Word) :
    (s.writePart p v).part p = if s.partRefused p (partOf v) then { s.part p with rej := true } else partOf v :=
  Tab.get_put_same _ _ _ _

theorem State.part_writePart_ne (s : State) {p r : Nat} (v : Word) (h : r ≠ p) : (s.writePart p v).part r = s.part r :=
  Tab.get_put_ne _ _ h

/-- The three cases of R383. -/
theorem State.partRefused_iff {s : State} {p : Nat} {n : Part} : s.partRefused p n = true ↔
    (s.part p).valid = true ∧ n.valid = true ∧ (s.part p).tag ≠ n.tag ∨
    n.valid = true ∧ (∃ r, r < 16 ∧ r ≠ p ∧ (s.part r).valid = true ∧ (s.part r).tag = n.tag) ∨
    (s.part p).valid = true ∧ n.valid = false ∧ (p = 0 ∨ s.boundQueues p ≠ 0 ∨
      ∃ e ∈ s.syncs, e.2.alloc = true ∧ e.2.part.toNat = p) := by
  simp [State.partRefused, or_assoc, and_assoc]

/-! ### Tenancy -/

theorem tenancy_of_parts {s t : State} (hs : Tenancy s) (h : t.parts = s.parts) : Tenancy t := by
  unfold Tenancy State.part at *
  rwa [h]

theorem tenancy_of_kept {s t : State} (hs : Tenancy s) (h : t.kept = s.kept) : Tenancy t := by
  obtain ⟨-, -, hparts⟩ : t.pending = s.pending ∧ t.fuses = s.fuses ∧ t.parts = s.parts := by
    simpa only [kept_def, Prod.mk.injEq] using h
  exact tenancy_of_parts hs hparts

/-- After a reset P0 alone is valid. -/
theorem State.reset_part_valid {p : Nat} : (State.reset.part p).valid = true ↔ p = 0 := by
  by_cases h : p = 0 <;> simp [State.part, State.reset, Tab.get, h]

theorem tenancy_reset : Tenancy State.reset :=
  ⟨State.reset_part_valid.mpr rfl, fun _ _ _ _ hne hp hr =>
    absurd ((State.reset_part_valid.mp hp).trans (State.reset_part_valid.mp hr).symm) hne⟩

/-- A partition that is valid after a write of SEC_PART_CTL, and its tag: that partition was valid with that tag, or no other
valid one has it. -/
theorem State.part_writePart_valid {s : State} {p : Nat} {v : Word} (h : ((s.writePart p v).part p).valid = true) :
    ((s.part p).valid = true ∧ ((s.writePart p v).part p).tag = (s.part p).tag) ∨
      ∀ r, r < 16 → r ≠ p → (s.part r).valid = true → (s.part r).tag ≠ ((s.writePart p v).part p).tag := by
  rw [State.part_writePart] at h ⊢
  cases hrefused : s.partRefused p (partOf v) with
  | true =>
    rw [hrefused] at h
    exact .inl ⟨h, rfl⟩
  | false =>
    rw [hrefused] at h
    have hok := mt State.partRefused_iff.mpr (Bool.eq_false_iff.mp hrefused)
    push Not at hok
    obtain ⟨-, hunique, -⟩ := hok
    exact .inr (hunique h)

/-- A write of SEC_PART_CTL keeps tenancy: it does not invalidate P0, and a partition it makes valid has a tag of its own. -/
theorem tenancy_writePart {s : State} (hs : Tenancy s) (p : Nat) (v : Word) : Tenancy (s.writePart p v) := by
  obtain ⟨hp0, htags⟩ := hs
  have hwritten {r : Nat} (hp : p < 16) (hr : r < 16) (hne : r ≠ p) (hvp : ((s.writePart p v).part p).valid = true)
      (hvr : ((s.writePart p v).part r).valid = true) : ((s.writePart p v).part r).tag ≠ ((s.writePart p v).part p).tag := by
    rw [State.part_writePart_ne _ _ hne] at hvr ⊢
    rcases State.part_writePart_valid hvp with ⟨hvalid, htag⟩ | hunique
    · rw [htag]
      exact htags r p hr hp hne hvr hvalid
    · exact hunique r hr hne hvr
  refine ⟨?valid, fun a b ha hb hne hva hvb => ?tags⟩
  case valid =>
    by_cases h : p = 0
    · subst h
      rw [State.part_writePart]
      split
      · exact hp0
      next hok =>
        by_contra hvalid
        exact hok (State.partRefused_iff.mpr (.inr (.inr ⟨hp0, Bool.eq_false_iff.mpr hvalid, .inl rfl⟩)))
    · rwa [State.part_writePart_ne _ _ (Ne.symm h)]
  case tags =>
    by_cases h : a = p
    · subst h
      exact (hwritten ha hb (Ne.symm hne) hva hvb).symm
    · by_cases h' : b = p
      · subst h'
        exact hwritten hb ha h hvb hva
      · rw [State.part_writePart_ne _ _ h] at hva ⊢
        rw [State.part_writePart_ne _ _ h'] at hvb ⊢
        exact htags a b ha hb hne hva hvb

theorem lasting_tenancy : Lasting Tenancy where
  of_kept := tenancy_of_kept
  warmReset := fun _ _ => tenancy_of_parts tenancy_reset rfl
  writePart := fun p v hs => tenancy_writePart hs p v

/-- Settles O59: P0 alone is valid at reset. -/
theorem tenancyAtReset : Obligations.TenancyAtReset := tenancy_reset

/-- Settles O58: tenancy lasts through every command, a cold reset brings it about anew, and an idle tick moves time alone. -/
theorem tenancyKept : Obligations.TenancyKept := by
  unfold Obligations.TenancyKept
  intro s t hs hstep
  cases hpending : s.pending with
  | nil =>
    have hidle : step s = .next (s.pass 4) := by simp [step, hpending]
    cases hidle.symm.trans hstep
    exact tenancy_of_parts hs rfl
  | cons c l =>
    rw [step_of_front hpending] at hstep
    by_cases hc : ∃ tm, c = .coldReset tm
    · obtain ⟨tm, rfl⟩ := hc
      cases hstep
      exact tenancy_of_parts tenancy_reset rfl
    · obtain ⟨u, hu, hkept⟩ := lasting_tenancy.exec (not_exists.mp hc) (tenancy_of_parts (t := s.rest l) hs rfl)
      cases hu.symm.trans hstep
      exact hkept

/-! ### Partitions and tags -/

theorem State.tagPart_none {s : State} {tag : BitVec 16} (h : ∀ r, r < 16 → (s.part r).valid = true → (s.part r).tag ≠ tag) :
    s.tagPart tag = none := by
  unfold State.tagPart
  simpa using h

/-- Without a partition the packet is in slot 16 of its VC, whether or not its own shaper is enabled (R197). -/
theorem State.shaperOf_untenanted {s : State} {p : Pkt} (h : s.tagPart p.ptag = none) (k : Nat) : s.shaperOf k p = 80 + (p.vc - 3) := by
  simp [State.shaperOf, h]

/-- A well-laid request with no partition, in an address its segment has, is denied (R214). -/
theorem State.arriveCheck_untenanted {s : State} {p : Pkt} (h : s.tagPart p.ptag = none) (hlaid : p.wellLaid = true)
    (haddr : p.isBf = false → s.segValid (keySeg (pageKey p.addr)) = true ∧
      bits p.addr 0 46 + p.span ≤ s.segPages (keySeg (pageKey p.addr)) * mib2) : s.arriveCheck p = stDenied := by
  unfold State.arriveCheck
  simp only [hlaid, h]
  cases hbf : p.isBf with
  | true => rfl
  | false =>
    obtain ⟨hvalid, hin⟩ := haddr hbf
    simp [hvalid, Nat.not_lt.mpr hin]

theorem secPartCtlWrite_answers {s : State} (h : Open s) (p : PartId) (valid bf tasteOk : Bool) (tag : BitVec 16) :
    Answers (.secPartCtlWrite p valid bf tasteOk tag) s
      (s.writePart p.val { valid := valid, bf := bf, tasteOk := tasteOk, tag := tag : Part }.word) :=
  congrArg Host.Outcome.next (State.mgWrite_open h _ _ _ _)

/-- Settles O24: a write of SEC_PART_CTL is refused in the three cases of R383; a tag of no partition. -/
theorem partitionControl : Obligations.PartitionControl := by
  unfold Obligations.PartitionControl
  refine ⟨fun p valid bf tasteOk tag s hopen => ?write, fun p s h => ?untenanted⟩
  case write =>
    have hword := partOf_word valid bf tasteOk tag
    refine ⟨_, secPartCtlWrite_answers hopen p valid bf tasteOk tag, fun r hr => s.part_writePart_ne _ hr, rfl, rfl, rfl,
      fun hcase => ?_, fun hcase => ?_⟩
    all_goals rw [State.part_writePart, hword]
    · exact if_pos (State.partRefused_iff.mpr hcase)
    · exact if_neg (mt State.partRefused_iff.mp hcase)
  case untenanted =>
    have hnone := State.tagPart_none h
    refine ⟨hnone, fun k => State.shaperOf_untenanted hnone k, fun src hlaid haddr => ?_⟩
    unfold State.admitReq
    rw [State.arriveCheck_untenanted hnone hlaid haddr]
    rfl

end Sys2Proof.Machine
end

section
/-! SUPPORT. Detections (R416 to R421, R427, R428, R470, R477): the sources one handshake records, which of them FC_FIRST takes, and
what of the block a detection changes, with the obligations about the fault collector's record and about escalation. -/

namespace Sys2Proof.Machine
open Sys2Proof.Safety

/-! ### What reporting changes (R427) -/

/-- `t` is `s` but for observation, what is driven, its line coding, the pins, and the packets that wait: those to this chip, those
held, the output queues with the flows' pins, and the Porter's counts. -/
def Reported (s t : State) : Prop := ∃ o l p z w a k f c, t = { s with
  obs := o, sent := l, pins := p, lines := z, own := w, admitQ := a, links := k, flows := f, ptr := c }

theorem Reported.refl (s : State) : Reported s s :=
  ⟨s.obs, s.sent, s.pins, s.lines, s.own, s.admitQ, s.links, s.flows, s.ptr, rfl⟩

theorem Reported.trans {s t u : State} : Reported s t → Reported t u → Reported s u := by
  rintro ⟨_, _, _, _, _, _, _, _, _, rfl⟩ ⟨o, l, p, z, w, a, k, f, c, rfl⟩
  exact ⟨o, l, p, z, w, a, k, f, c, rfl⟩

theorem Reported.ite {s t u : State} {c : Prop} [Decidable c] (ht : Reported s t) (hu : Reported s u) :
    Reported s (if c then t else u) := by
  split <;> assumption

theorem Watched.reported {s t : State} : Watched s t → Reported s t := by
  rintro ⟨o, l, p, z, rfl⟩
  exact ⟨o, l, p, z, s.own, s.admitQ, s.links, s.flows, s.ptr, rfl⟩

theorem forEach_reported {α : Type} (l : List α) {f : α → State → State} (h : ∀ a r, Reported r (f a r)) (s : State) :
    Reported s (forEach l f s) :=
  forEach_preserves (fun a r hr => hr.trans (h a r)) l (.refl s)

theorem State.place_reported (s : State) (p : Pkt) : Reported s (s.place p) := by
  have hown (t : State) (p : Pkt) : Reported t { t with own := t.own ++ [p] } :=
    ⟨t.obs, t.sent, t.pins, t.lines, _, t.admitQ, t.links, t.flows, t.ptr, rfl⟩
  have hlost : Reported s ((s.modPtr fun c => { c with noRoute := satAdd c.noRoute 1 }).count 3 1 0xFFFF none) :=
    .trans ⟨s.obs, s.sent, s.pins, s.lines, s.own, s.admitQ, s.links, s.flows, _, rfl⟩ (State.count_watched _ _ _ _ _ _).reported
  unfold State.place
  refine .ite (hown s p) ?_
  split
  · exact .ite ⟨s.obs, s.sent, s.pins, s.lines, s.own, s.admitQ, _, _, s.ptr, rfl⟩
      ⟨s.obs, s.sent, s.pins, s.lines, s.own, s.admitQ, _, s.flows, s.ptr, rfl⟩
  · exact .ite (hlost.trans (hown _ _)) hlost

theorem State.report_reported (s : State) (p : Pkt) : Reported s (s.report p) := by
  have hheld : Reported s { s with admitQ := s.admitQ ++ [p] } :=
    ⟨s.obs, s.sent, s.pins, s.lines, s.own, _, s.links, s.flows, s.ptr, rfl⟩
  unfold State.report State.send
  exact .ite hheld (.ite (.refl s) (.ite hheld (s.place_reported p)))

/-! ### The record of one handshake (R417, R418) -/

theorem bit_foldl_or (l : List Nat) (w : Word) {m : Nat} (hm : m < 64) :
    bit (l.foldl (fun w n => w ||| BitVec.ofNat 64 (1 <<< n)) w) m = (bit w m || decide (m ∈ l)) := by
  induction l generalizing w with
  | nil => simp
  | cons n l ih =>
    have hone : bit (BitVec.ofNat 64 (1 <<< n)) m = decide (m = n) := by
      simp only [bit, BitVec.getLsbD_ofNat, hm, decide_true, Bool.true_and, Nat.one_shiftLeft, Nat.testBit_two_pow, eq_comm]
    rw [List.foldl_cons, ih, bit_or, hone]
    simp [Bool.or_assoc]

/-- `m` comes after `n` in the choice of FC_FIRST: of lower class, or of the same with a higher bit. -/
def after (n m : Nat) : Prop := srcClass m < srcClass n ∨ srcClass m = srcClass n ∧ n < m

/-- FC_FIRST takes the source that every other comes after (R418). -/
theorem firstOf_eq {l : List Nat} {n : Nat} (hn : n ∈ l) (h : ∀ m ∈ l, m ≠ n → after n m) : firstOf l = some n := by
  have hfold (b : Option Nat) (hb : b = some n ∨ n ∈ l ∧ ∀ m, b = some m → m ≠ n → after n m) :
      l.foldl (fun b n => match b with
        | none => some n
        | some m => if srcClass m < srcClass n ∨ (srcClass m = srcClass n ∧ n < m) then some n else some m) b = some n := by
    clear hn
    induction l generalizing b with
    | nil => simpa using hb
    | cons x l ih =>
      rw [List.foldl_cons]
      refine ih (fun m hm => h m (List.mem_cons_of_mem x hm)) _ ?_
      have hx : x ≠ n → after n x := h x List.mem_cons_self
      unfold after at *
      grind
  exact hfold none (.inr ⟨hn, nofun⟩)

@[simp] theorem State.driveFaultOut_fc (s : State) : s.driveFaultOut.fc = s.fc := by
  unfold State.driveFaultOut
  split <;> rfl

/-- What FC_FIRST holds after sources `l` are detected together. -/
def State.firstAfter (s : State) (l : List Nat) (inj : Bool) : FirstRec :=
  if s.fc.first.valid then { s.fc.first with ovf := true }
  else
    match firstOf l with
    | some n => { valid := true, ovf := decide (1 < l.length), inj := inj, cls := BitVec.ofNat 2 (srcClass n)
                  source := BitVec.ofNat 6 n, time := s.now }
    | none => s.fc.first

/-- A record changes FC_STATUS, FC_FIRST and the pulse, and FAULT_OUT. -/
theorem State.record_eq (s : State) (l : List Nat) (inj : Bool) : ∃ pulse pins, s.record l inj =
    { s with fc := { s.fc with status := l.foldl (fun w n => w ||| BitVec.ofNat 64 (1 <<< n)) 0 ||| s.fc.status
                               first := s.firstAfter l inj, pulse := pulse }
             pins := pins } := by
  unfold State.record State.driveFaultOut
  rw [BitVec.or_comm]
  dsimp only
  split
  · exact ⟨_, s.pins, rfl⟩
  · exact ⟨_, _, rfl⟩

/-- `t` is `s` in the safe state, with no commit under way; of the rest the pins, the onward entries, the E-ports and what is driven
may differ. -/
def SafeEntered (s t : State) : Prop := ∃ pins commit eports sent lines, commit.busy = false ∧ t = { s with
  fc := { s.fc with safe := true }, pins := pins, onward := [], commit := commit, eports := eports, sent := sent, lines := lines }

theorem State.enterSafe_entered {s : State} (h : s.fc.safe = false) : SafeEntered s s.enterSafe := by
  have hports {t : State} (ht : SafeEntered s t) (n : Nat) : SafeEntered s (t.modEPort n EPort.poison) := by
    obtain ⟨p, c, e, o, z, hc, rfl⟩ := ht
    exact ⟨p, c, _, o, z, hc, rfl⟩
  have hlinks {t : State} (ht : SafeEntered s t) (b : BitVec 64) : SafeEntered s (t.onLinks 8 b) := by
    obtain ⟨p, c, e, o, z, hc, rfl⟩ := ht
    exact ⟨p, c, e, _, _, hc, rfl⟩
  unfold State.enterSafe
  rw [if_neg (by simp [h])]
  dsimp only
  exact hlinks (forEach_preserves (P := SafeEntered s) (fun n r hr => hports hr n) (List.range 16)
    ⟨_, _, s.eports, s.sent, s.lines, by split <;> simp_all, rfl⟩) _

/-! ### A detection (R416, R428) -/

/-- The sources of one handshake: those detected, and CONFIG where they put the block into the safe state and end a commit. -/
def State.withConfig (s : State) (l : List Nat) : List Nat :=
  if s.fatal l && s.commit.busy && !l.contains srcConfig then l ++ [srcConfig] else l

/-- A detection records its sources, enters the safe state if one is fatal, and reports. -/
theorem State.raiseAll_reported {s : State} {l : List Nat} (hl : ∀ n ∈ l, srcClass n ≠ 0) (hne : l ≠ []) (inj : Bool) :
    Reported (if s.fatal l then (s.record (s.withConfig l) inj).enterSafe else s.record (s.withConfig l) inj)
      (s.raiseAll l inj) := by
  have hall : (l.filter fun n => decide (srcClass n ≠ 0)) = l := by simpa using hl
  have hloop {s t : State} (h : Reported s t) (l : List Nat) {f : Nat → State → State} (hf : ∀ n r, Reported r (f n r)) :
      Reported s (forEach l f t) := h.trans (forEach_reported l hf t)
  unfold State.raiseAll
  rw [hall, if_neg hne]
  refine hloop (.trans (hloop (.refl _) _ ?counted) (State.fireWhere_watched _ _).reported) _ ?told
  case counted => exact fun n r => (r.count_watched 0xC 0 n none 1).reported
  case told => exact fun n r => .ite (r.report_reported _) (.refl r)

theorem State.raiseAll_reserved {s : State} {l : List Nat} (hl : ∀ n ∈ l, srcClass n = 0) (inj : Bool) : s.raiseAll l inj = s := by
  have hnone : (l.filter fun n => decide (srcClass n ≠ 0)) = [] := by simpa using hl
  unfold State.raiseAll
  rw [hnone]
  rfl

theorem State.fatal_iff {s : State} {l : List Nat} :
    s.fatal l = true ↔ s.fc.safe = false ∧ ∃ n ∈ l, srcClass n = 3 ∨ bit (s.reg 0x10058) n = true := by
  simp [State.fatal]

theorem State.withConfig_eq (s : State) (l : List Nat) : s.withConfig l =
    if s.commit.busy = true ∧ s.fc.safe = false ∧ srcConfig ∉ l ∧ (∃ n ∈ l, srcClass n = 3 ∨ bit (s.reg 0x10058) n = true)
    then l ++ [srcConfig] else l := by
  unfold State.withConfig
  refine if_congr ?_ rfl rfl
  simp only [Bool.and_eq_true, State.fatal_iff, Bool.not_eq_true', List.contains_eq_mem, decide_eq_false_iff_not]
  exact ⟨fun ⟨⟨⟨hsafe, hcause⟩, hbusy⟩, hnew⟩ => ⟨hbusy, hsafe, hnew, hcause⟩,
    fun ⟨hbusy, hsafe, hnew, hcause⟩ => ⟨⟨⟨hsafe, hcause⟩, hbusy⟩, hnew⟩⟩

theorem State.subset_withConfig (s : State) (l : List Nat) : l ⊆ s.withConfig l := by
  rw [State.withConfig_eq]
  split
  · exact List.subset_append_left l _
  · exact List.Subset.refl l

theorem State.withConfig_idle {s : State} (h : s.commit.busy = false ∨ s.fc.safe = true) (l : List Nat) : s.withConfig l = l := by
  rw [State.withConfig_eq]
  exact if_neg (by rcases h with h | h <;> simp [h])

/-- What a detection of sources `l` leaves. -/
structure Detected (s : State) (l : List Nat) (inj : Bool) (t : State) : Prop where
  status : ∀ m, m < 64 → bit t.fc.status m = (bit s.fc.status m || decide (m ∈ s.withConfig l))
  first : t.fc.first = s.firstAfter (s.withConfig l) inj
  safe : t.fc.safe = (s.fc.safe || s.fatal l)
  idle : s.fatal l = true → t.commit.busy = false
  lanes : t.lanes = s.lanes
  parts : t.parts = s.parts
  queues : t.queues = s.queues

theorem State.raiseAll_detected {s : State} {l : List Nat} (hl : ∀ n ∈ l, srcClass n ≠ 0) (hne : l ≠ []) (inj : Bool) :
    Detected s l inj (s.raiseAll l inj) := by
  have hreported := State.raiseAll_reported (s := s) hl hne inj
  obtain ⟨pulse, pins, hrecord⟩ := s.record_eq (s.withConfig l) inj
  have hstatus (m : Nat) (hm : m < 64) : bit ((s.withConfig l).foldl (fun w n => w ||| BitVec.ofNat 64 (1 <<< n)) 0 ||| s.fc.status) m =
      (bit s.fc.status m || decide (m ∈ s.withConfig l)) := by
    rw [bit_or, bit_foldl_or _ _ hm, Bool.or_comm]
    simp [bit]
  cases hfatal : s.fatal l with
  | true =>
    obtain ⟨p, c, e, o, z, hidle, hentered⟩ := State.enterSafe_entered (s := s.record (s.withConfig l) inj)
      (by rw [hrecord]; exact (State.fatal_iff.mp hfatal).1)
    rw [hfatal, if_pos rfl, hentered, hrecord] at hreported
    obtain ⟨_, _, _, _, _, _, _, _, _, ht⟩ := hreported
    rw [ht]
    exact ⟨hstatus, rfl, by simp [hfatal], fun _ => hidle, rfl, rfl, rfl⟩
  | false =>
    rw [hfatal, if_neg (by decide), hrecord] at hreported
    obtain ⟨_, _, _, _, _, _, _, _, _, ht⟩ := hreported
    rw [ht]
    exact ⟨hstatus, rfl, by simp [hfatal], fun h => absurd (hfatal.symm.trans h) (by decide), rfl, rfl, rfl⟩

theorem State.raise_detected {n : Nat} (h : srcClass n ≠ 0) (s : State) : Detected s [n] false (s.raise n) :=
  State.raiseAll_detected (by simpa using h) (by simp) false

/-! ### The capture (R418) -/

theorem State.firstAfter_held {s : State} (h : s.fc.first.valid = true) (l : List Nat) (inj : Bool) :
    s.firstAfter l inj = { s.fc.first with ovf := true } := if_pos h

theorem State.firstAfter_free {s : State} (h : s.fc.first.valid = false) {l : List Nat} {n : Nat} (hfirst : firstOf l = some n) (inj : Bool) :
    s.firstAfter l inj = { valid := true, ovf := decide (1 < l.length), inj := inj, cls := BitVec.ofNat 2 (srcClass n)
                           source := BitVec.ofNat 6 n, time := s.now } := by
  unfold State.firstAfter
  rw [if_neg (by simp [h]), hfirst]

/-- A source that ends a running commit by its class stands before CONFIG. -/
theorem State.withConfig_fatal {s : State} {n : Nat} (hbusy : s.commit.busy = true) (hsafe : s.fc.safe = false) (h : srcClass n = 3) :
    s.withConfig [n] = [n, srcConfig] ∧ firstOf [n, srcConfig] = some n := by
  have hne : srcConfig ≠ n := by
    rintro rfl
    exact absurd h (by decide)
  refine ⟨?_, firstOf_eq (by simp) ?_⟩
  · rw [State.withConfig_eq, if_pos ⟨hbusy, hsafe, by simpa using hne, n, by simp, .inl h⟩]
    rfl
  · have hconfig : after n srcConfig := .inl (by rw [h]; decide)
    simpa using fun _ => hconfig

/-- Settles O27: the record of one detection, with CONFIG where it ends a commit. -/
theorem faultRecorded : Obligations.FaultRecorded := by
  unfold Obligations.FaultRecorded
  intro n s hn
  have h := State.raise_detected hn s
  have hmem : n.val ∈ s.withConfig [n.val] := s.subset_withConfig _ (by simp)
  refine ⟨?rises, fun m hm => ?stays, fun hbusy hsafe hcls => ?ends, fun hidle hfree => ?captured, fun hheld => ?held,
    fun hcls => ?enters, fun hsafe => ?remains, h.lanes, h.parts, h.queues⟩
  case rises => simp [h.status n.val n.isLt, hmem]
  case stays =>
    have hlt : m < 64 := BitVec.lt_of_getLsbD hm
    simp [h.status m hlt, hm]
  case ends =>
    obtain ⟨hall, hfirst⟩ := State.withConfig_fatal hbusy hsafe hcls
    have hfatal : s.fatal [n.val] = true := State.fatal_iff.mpr ⟨hsafe, n.val, by simp, .inl hcls⟩
    refine ⟨by rw [h.status _ (by decide), hall]; simp, h.idle hfatal, fun hfree => ?_⟩
    rw [h.first, hall, State.firstAfter_free hfree hfirst, hcls]
    rfl
  case captured => rw [h.first, State.withConfig_idle hidle, State.firstAfter_free hfree rfl]; rfl
  case held => rw [h.first, State.firstAfter_held hheld]
  case enters =>
    rw [h.safe]
    cases hsafe : s.fc.safe with
    | true => rfl
    | false => exact State.fatal_iff.mpr ⟨hsafe, n.val, by simp, .inl hcls⟩
  case remains => simp [h.safe, hsafe]

theorem fcFirstClear_answers {s : State} (h : Open s) : Answers .fcFirstClear s { s with fc := { s.fc with first := {} } } :=
  answers_of_mgWrite h rfl rfl

/-- Settles O28: what FC_FIRST holds after the sources of one handshake, and what becomes of it. -/
theorem firstCapture : Obligations.FirstCapture := by
  unfold Obligations.FirstCapture
  refine ⟨fun l inj s hl _ hne => ?capture, fun s hopen => fcFirstClear_answers hopen, fun s => ⟨_, rfl, rfl, rfl⟩⟩
  case capture =>
    have h := State.raiseAll_detected (s := s) (fun n hn => (hl n hn).2) hne inj
    have hlt : ∀ n ∈ s.withConfig l, n < 64 := by
      intro n hn
      rw [State.withConfig_eq] at hn
      split at hn
      · rcases List.mem_append.mp hn with hn | hn
        · exact (hl n hn).1
        · rw [List.mem_singleton.mp hn]
          decide
      · exact (hl n hn).1
    rw [← State.withConfig_eq]
    refine ⟨fun n hn => by simp [h.status n (hlt n hn), hn], fun hheld => ?_, fun hfree n hn hafter => ?_⟩
    · rw [h.first, State.firstAfter_held hheld]
    · rw [h.first, State.firstAfter_free hfree (firstOf_eq hn hafter)]

/-- With CONFIG beside it or alone, a source gives FC_FIRST its own class: CONFIG is of the lowest. -/
theorem State.firstOf_withConfig {s : State} {n : Nat} (h : srcClass n ≠ 0) :
    ∃ m, firstOf (s.withConfig [n]) = some m ∧ srcClass m = srcClass n := by
  have hpair : firstOf [n, srcConfig] =
      some (if srcClass n < srcClass srcConfig ∨ srcClass n = srcClass srcConfig ∧ srcConfig < n then srcConfig else n) :=
    (apply_ite some _ _ _).symm
  have hconfig : srcClass srcConfig = 1 := by decide
  rw [State.withConfig_eq]
  split
  · refine ⟨_, hpair, ?_⟩
    split
    · omega
    · rfl
  · exact ⟨n, rfl, rfl⟩

/-- Settles O29: what FC_ESCALATE adds to class F. -/
theorem escalation : Obligations.Escalation := by
  unfold Obligations.Escalation
  intro n s _
  have henters (hcls : srcClass n ≠ 0) (h : srcClass n = 3 ∨ bit (s.reg 0x10058) n = true) : (s.raise n).fc.safe = true := by
    rw [(State.raise_detected hcls s).safe]
    cases hsafe : s.fc.safe with
    | true => rfl
    | false => exact State.fatal_iff.mpr ⟨hsafe, n, by simp, h⟩
  have hreserved (hcls : srcClass n = 0) : s.raise n = s := State.raiseAll_reserved (by simpa using hcls) false
  refine ⟨fun hcls hesc => henters hcls (.inr hesc), fun hcls => henters (by omega) (.inl hcls), fun hcls hesc => ?outside,
    fun hcls hfree => ?cls, hreserved⟩
  case outside =>
    by_cases hzero : srcClass n = 0
    · rw [hreserved hzero]
    · rw [(State.raise_detected hzero s).safe]
      simp [State.fatal, hcls, hesc]
  case cls =>
    obtain ⟨m, hfirst, hm⟩ := State.firstOf_withConfig (s := s) hcls
    rw [(State.raise_detected hcls s).first, State.firstAfter_free hfree hfirst, hm]

end Sys2Proof.Machine
end

section
/-! SUPPORT. The commands of the fault collector (R417, R419, R427, R430): detections with their reactions, injection, what clears the
record, the pulse of ERR_N and the log of FAULTB packets, with the obligation about them. -/

namespace Sys2Proof.Machine
open Sys2Proof.Safety

/-! ### Detections with their instances (Table 17.1) -/

theorem execFaultDetect_eq (l : List (Fin 64 × Nat)) (s : State) :
    exec (.faultDetect l) s = .next (s.detect (l.map fun e => (e.1.val, e.2))).kick := rfl

/-- A detection records its sources together, and then each reacts; HCLK is lost before all else. -/
theorem State.detect_eq (s : State) (l : List (Fin 64 × Nat)) : s.detect (l.map fun e => (e.1.val, e.2)) =
    forEach (l.map fun e => (e.1.val, e.2)) (fun e s => s.react e.1 e.2)
      (State.raiseAll (if ∃ e ∈ l, e.1.val = srcHclkLost then { s with pins := { s.pins with hclkDead := true } } else s)
        (l.map fun e => e.1.val).dedup) := by
  have hlost : ((l.map fun e => (e.1.val, e.2)).any fun e => decide (e.1 = srcHclkLost)) = true ↔ ∃ e ∈ l, e.1.val = srcHclkLost := by
    simp
  unfold State.detect
  rw [List.map_map]
  dsimp only
  rw [if_congr hlost rfl rfl]
  rfl

/-! ### Injection (R430) -/

/-- The word a write of FC_INJECT carries: GO, and the source. -/
theorem injectWord : ∀ src : BitVec 6, bit (fields [(63, 1, 1), (0, 6, src.toNat)]) 63 = true ∧
    bits (fields [(63, 1, 1), (0, 6, src.toNat)]) 0 6 = src.toNat ∧
    fields [(63, 1, 1), (0, 6, src.toNat)] &&& 0x3F = BitVec.ofNat 64 src.toNat := by decide

theorem faultInject_answers {src : BitVec 6} {s u : State} (hopen : Open s)
    (h : s.writeInject (fields [(63, 1, 1), (0, 6, src.toNat)]) = u) : Answers (.faultInject src) s u :=
  answers_of_mgWrite hopen rfl h

theorem State.writeInject_word {s : State} (h : s.mayInject = true) (src : BitVec 6) :
    s.writeInject (fields [(63, 1, 1), (0, 6, src.toNat)]) = (s.setReg 0x10050 (BitVec.ofNat 64 src.toNat)).inject src.toNat := by
  obtain ⟨hgo, hsrc, hword⟩ := injectWord src
  unfold State.writeInject
  rw [hword, hgo, hsrc, h]
  rfl

/-! ### FAULT_OUT (R420) -/

/-- FAULT_OUT is a pin: the rest of the block does not follow FC_STATUS. -/
theorem State.driveFaultOut_eq (s : State) : ∃ pins, s.driveFaultOut = { s with pins := pins } := by
  unfold State.driveFaultOut
  split
  · exact ⟨s.pins, rfl⟩
  · exact ⟨_, rfl⟩

theorem State.faultOut_of_live {s : State} (h : s.pins.hclkDead = false) :
    s.driveFaultOut.pins.faultOut = faultOutOf s.driveFaultOut.fc.status := by
  rw [State.driveFaultOut_fc, State.driveFaultOut, if_neg (ne_true_of_eq_false h)]

theorem State.pins_of_dead {s : State} (h : s.pins.hclkDead = true) : s.driveFaultOut.pins = s.pins := by
  rw [State.driveFaultOut, if_pos h]

/-! ### The pulse of ERR_N (R419) -/

section
variable {s : State} {t dt : Nat} (h : s.fc.pulse = some t)
include h

theorem errPulseEnd_ends (hdue : t + 5 * s.pulseNs ≤ s.clk.up + 5 * dt) :
    exec (.errPulseEnd dt) s = .next { s.passNs dt with fc := { s.fc with pulse := none } } := by
  have hend : (s.passNs dt).pulseEnd = { s.passNs dt with fc := { (s.passNs dt).fc with pulse := none } } := by
    unfold State.pulseEnd
    simp only [show (s.passNs dt).fc.pulse = some t from h]
    exact if_pos hdue
  exact congrArg Host.Outcome.next hend

theorem errPulseEnd_goes_on (hearly : s.clk.up + 5 * dt < t + 5 * s.pulseNs) : exec (.errPulseEnd dt) s = .next (s.passNs dt) := by
  have hgo : (s.passNs dt).pulseEnd = s.passNs dt := by
    unfold State.pulseEnd
    simp only [show (s.passNs dt).fc.pulse = some t from h]
    exact if_neg (Nat.not_le.mpr hearly)
  exact congrArg Host.Outcome.next hgo

end

/-! ### Packets of VC1 for this chip (R427, R452) -/

/-- Taking a packet changes the links and the packets to this chip alone. -/
theorem State.consume_eq (s : State) (src : Nat) (p : Pkt) : ∃ k w, s.consume src p = { s with links := k, own := w } := by
  unfold State.consume
  split
  · split
    · exact ⟨_, s.own, rfl⟩
    · exact ⟨s.links, s.own, rfl⟩
  · exact ⟨s.links, _, rfl⟩

theorem State.consume_fc (s : State) (src : Nat) (p : Pkt) : (s.consume src p).fc = s.fc := by
  obtain ⟨k, w, h⟩ := s.consume_eq src p
  rw [h]

theorem State.consume_p0Tag (s : State) (src : Nat) (p : Pkt) : (s.consume src p).p0Tag = s.p0Tag := by
  obtain ⟨k, w, h⟩ := s.consume_eq src p
  rw [h]
  rfl

theorem State.vc1Row_head {s : State} {src op : Nat} {p : Pkt} (hrun : s.running = true)
    (hp : (s.inboxOf src).find? (fun q => decide (q.op.toNat = op ∧ q.dst = s.chip)) = some p) (act : Pkt → State → State) :
    s.vc1Row src op act = act p (s.consume src p) := by
  unfold State.vc1Row
  rw [hrun, hp]
  rfl

theorem faultb_takes {src : SrcId} {p : Pkt} {s : State} (hrun : s.running = true)
    (hp : (s.inboxOf src.val).find? (fun q => decide (q.op.toNat = 0x23 ∧ q.dst = s.chip)) = some p) :
    Does (.faultb src) s ((s.consume src.val p).takeFaultb p) :=
  does_of_eq rfl (State.vc1Row_head hrun hp fun p s => s.takeFaultb p)

theorem State.takeFaultb_own {s : State} {p : Pkt} (h : p.ptag = s.p0Tag) : s.takeFaultb p =
    { s with fc := { s.fc with count := s.fc.count + 1
                               log := s.fc.log.put [] (s.fc.count.toNat % 16)
                                 [word64 p.data 0, word64 p.data 8, word64 p.data 16, BitVec.ofNat 64 p.src.toNat] } } := if_pos h

theorem State.takeFaultb_foreign {s : State} {p : Pkt} (h : p.ptag ≠ s.p0Tag) :
    s.takeFaultb p = { s with fc := { s.fc with refused := satAdd s.fc.refused 1 } } := if_neg h

/-- Settles O26: each clause is one outcome of a detection, an injection, a write or a FAULTB packet. -/
theorem faultReports : Obligations.FaultReports := by
  unfold Obligations.FaultReports
  refine ⟨⟨fun l s => ?detects, fun src n s => ?reacts, fun src n l s hlate => ?late, fun src s hopen hmay => ?injects,
      fun src s hopen hmay => ?ignores⟩,
    ⟨fun mask s hopen => ?status, fun s hopen => fcFirstClear_answers hopen, fun drive s hopen => ?drive,
      fun dt t s h hdue => errPulseEnd_ends h hdue, fun dt t s h hearly => errPulseEnd_goes_on h hearly⟩,
    fun src p s hrun hp => ⟨fun htag => ?logged, fun htag => ?counted⟩⟩
  case detects => exact does_of_eq (execFaultDetect_eq l s) (s.detect_eq l)
  case reacts =>
    refine ⟨fun hsafe => if_pos hsafe, fun hsafe hcurfew => ?_, fun hsafe hcurfew => ?_⟩
    · exact (if_neg (ne_true_of_eq_false hsafe)).trans (if_pos hcurfew)
    · exact (if_neg (ne_true_of_eq_false hsafe)).trans (if_neg (ne_true_of_eq_false hcurfew))
  case late =>
    unfold State.reactLate
    rw [hlate]
    rfl
  case injects => exact faultInject_answers hopen (State.writeInject_word hmay src)
  case ignores => exact faultInject_answers hopen (if_pos (by simp [hmay]))
  case status =>
    refine ⟨_, answers_of_mgWrite hopen rfl rfl, State.driveFaultOut_fc _, fun hlive => ?live, fun hdead => ?dead, ?frame⟩
    case live => exact State.faultOut_of_live hlive
    case dead => exact State.pins_of_dead hdead
    case frame =>
      obtain ⟨pins, hpins⟩ := State.driveFaultOut_eq { s with fc := { s.fc with status :=
        s.fc.status &&& ~~~(if s.fc.safe then mask &&& ~~~(classMask 3) else mask) } }
      rw [State.clearStatus, hpins]
      exact ⟨rfl, rfl, rfl⟩
  case drive => exact answers_of_mgWrite hopen rfl (by cases drive <;> rfl)
  case logged =>
    have hfc := s.consume_fc src.val p
    refine ⟨_, faultb_takes hrun hp, ?_⟩
    rw [State.takeFaultb_own (htag.trans (s.consume_p0Tag src.val p).symm)]
    dsimp only
    rw [hfc]
    exact ⟨rfl, Tab.get_put_same _ _ _ _, fun i hi => Tab.get_put_ne _ _ hi, rfl⟩
  case counted =>
    refine ⟨_, faultb_takes hrun hp, ?_⟩
    rw [State.takeFaultb_foreign (htag.trans_eq (s.consume_p0Tag src.val p).symm), s.consume_fc src.val p]

end Sys2Proof.Machine
end

section
/-! SUPPORT. Triggers and curfew (R441, R447, R448, R452 to R457): what a record offered to the trace and an entry to curfew change, with
the obligations about the idle tick, firing, exports, power windows, and the causes and the end of curfew. -/

namespace Sys2Proof.Machine
open Sys2Proof.Safety

/-! ### The idle tick (R448) -/

theorem step_idle {s : State} (h : s.pending = []) : step s = .next (s.pass 4) := by
  unfold step
  rw [h]

/-- Settles O2: a tick moves the clocks alone, those of the core and of activity only where they run. -/
theorem idleStepIsTick : Obligations.IdleStepIsTick := by
  unfold Obligations.IdleStepIsTick
  refine fun s h => ⟨(s.pass 4).clk, step_idle h, rfl, rfl, fun hcurfew => ?curfew, fun hheld => ?held⟩
  case curfew => simp [State.pass, hcurfew]
  case held => rcases hheld with h | h <;> simp [State.pass, h]

/-! ### What offering a record can do (R438) -/

/-- A property of the block that stands while the trace buffer's own events are counted, and their records offered. -/
structure Recording (P : State → Prop) : Prop where
  mark : ∀ {s : State}, P s → P (s.setTrace { s.obs.trace with tallied := true })
  bump : ∀ {s : State} (i n : Nat), P s → P (s.bumpCnt i n)
  take : ∀ {s : State} {r : Rec}, r.act = false → P s → P (s.setTrace (s.obs.trace.offer s.now r).1)

section
variable {P : State → Prop} (hP : Recording P) {s : State}
include hP

theorem Recording.tallyCnt (event : Nat) (hs : P s) : P (s.tallyCnt event) := by
  unfold State.tallyCnt
  refine iteInduction (fun _ => hs) fun _ => iteInduction (fun _ => hs) fun _ => ?_
  exact forEach_preserves (fun i _ => hP.bump i 1) _ (hP.mark hs)

theorem Recording.capture {r : Rec} (hr : r.act = false) (hs : P s) : P (s.capture r).1 := by
  have htaken : P (s.setTrace (s.obs.trace.offer s.now { r with tick := s.clk.up }).1) := hP.take hr hs
  unfold State.capture
  exact iteInduction (fun _ => hP.tallyCnt 1 htaken) fun _ => htaken

theorem Recording.tally (event : Nat) (hs : P s) : P (s.tally event) := by
  unfold State.tally
  refine iteInduction (fun _ => hs) fun _ => forEach_preserves (fun i r hr => ?_) _ (hP.tallyCnt event hs)
  exact iteInduction (fun _ => hP.capture rfl hr) fun _ => hr

/-- It stands once a record is offered, if it does where the FIFO has taken or lost that record. -/
theorem Recording.offer {r : Rec} (hs : P s) (hr : P (s.setTrace (s.obs.trace.offer s.now { r with tick := s.clk.up }).1)) :
    P (s.offer r) := by
  unfold State.offer
  exact iteInduction (fun _ => hs) fun _ => iteInduction (fun _ => hP.tally 1 hr) fun _ => hr

theorem Recording.curfewRec (aux : Nat) (hs : P s) : P (s.curfewRec aux) := by
  unfold State.curfewRec
  exact iteInduction (fun _ => hP.offer hs (hP.take rfl hs)) fun _ => hs

end

/-- `t` is `s` but for the trace and the counters. -/
def Traced (s t : State) : Prop := ∃ x c, t = { s with obs := { s.obs with trace := x, cnt := c } }

theorem Traced.setTrace {s t : State} (h : Traced s t) (x : Trace) : Traced s (t.setTrace x) := by
  obtain ⟨_, c, rfl⟩ := h
  exact ⟨x, c, rfl⟩

theorem recording_traced (s : State) : Recording (Traced s) where
  mark := fun h => h.setTrace _
  bump := by
    rintro _ i n ⟨x, c, rfl⟩
    exact ⟨x, _, rfl⟩
  take := fun _ h => h.setTrace _

theorem Traced.refl (s : State) : Traced s s := ⟨s.obs.trace, s.obs.cnt, rfl⟩

theorem State.offer_traced (s : State) (r : Rec) : Traced s (s.offer r) :=
  (recording_traced s).offer (.refl s) ((Traced.refl s).setTrace _)

/-! ### Records stay in the capture FIFO (R438) -/

/-- A record but for its SEQ, which moves up when a record of the same moment joins before it. -/
def Rec.unnumbered (r : Rec) : Rec := { r with seq := 0 }

/-- The records of `l` are all in `m`, perhaps with another SEQ. -/
def Stay (l m : List Rec) : Prop := l.map Rec.unnumbered ⊆ m.map Rec.unnumbered

theorem Stay.refl (l : List Rec) : Stay l l := List.Subset.refl _

theorem Stay.trans {l m k : List Rec} (h : Stay l m) (h' : Stay m k) : Stay l k := List.Subset.trans h h'

/-- A record that joins the FIFO stands between the older ones and those that follow it in rank, whose SEQ moves up. -/
theorem Rec.join_map (r : Rec) (l : List Rec) : ∃ before after, l = before ++ after ∧
    (r.join l).map Rec.unnumbered = before.map Rec.unnumbered ++ r.unnumbered :: after.map Rec.unnumbered := by
  let p : Rec → Bool := fun e => decide (e.tick = r.tick ∧ e.type_ ≠ 4 ∧ r.rank < e.rank)
  obtain ⟨before, hl⟩ : l.rtakeWhile p <:+ l := List.rtakeWhile_suffix p l
  have htake {before after : List Rec} (h : before ++ after = l) : l.take (l.length - after.length) = before := by
    subst h
    simp
  have hseq : Rec.unnumbered ∘ (fun e : Rec => { e with seq := e.seq + 1 }) = Rec.unnumbered := rfl
  refine ⟨before, l.rtakeWhile p, hl.symm, ?_⟩
  change List.map Rec.unnumbered (l.take (l.length - (l.rtakeWhile p).length) ++ _ :: (l.rtakeWhile p).map _) = _
  rw [htake hl, List.map_append, List.map_cons, List.map_map, hseq]
  rfl

theorem Rec.mem_join (r : Rec) (l : List Rec) : r.unnumbered ∈ (r.join l).map Rec.unnumbered := by
  obtain ⟨before, after, -, hjoin⟩ := r.join_map l
  simp [hjoin]

theorem Rec.join_stay (r : Rec) (l : List Rec) : Stay l (r.join l) := by
  obtain ⟨before, after, rfl, hjoin⟩ := r.join_map l
  unfold Stay
  rw [hjoin, List.map_append]
  exact List.append_subset.mpr ⟨List.subset_append_left _ _, List.Subset.trans (List.subset_cons_self _ _) (List.subset_append_right _ _)⟩

/-- A record without a TRACE action moves no record out of the FIFO. -/
theorem Trace.offer_stay (t : Trace) (now : Word) {r : Rec} (h : r.act = false) : Stay t.fifo (t.offer now r).1.fifo := by
  unfold Trace.offer
  split
  · exact .refl _
  · split
    · rw [h]
      exact .refl _
    · split
      · exact Rec.join_stay _ _
      · exact List.map_subset _ (List.subset_append_left _ _)

/-- Where the trace records and has room, it takes the record. -/
theorem Trace.offer_takes {t : Trace} (hrec : t.recording = true) (hroom : t.fifo.length < 63) (now : Word) (r : Rec) :
    (t.offer now r).2 = false ∧
      Rec.unnumbered { r with time := now } ∈ (t.offer now r).1.fifo.map Rec.unnumbered := by
  unfold Trace.offer
  rw [hrec, if_neg (by decide), if_neg (by omega)]
  split
  · exact ⟨rfl, Rec.mem_join { r with seq := t.seq, time := now } t.fifo⟩
  · exact ⟨rfl, List.mem_map.mpr ⟨{ r with seq := t.seq + 1, time := now }, by simp, rfl⟩⟩

/-- Records of the trace buffer's own events move none out of the FIFO. -/
theorem recording_fifo (l : List Rec) : Recording fun s => Stay l s.obs.trace.fifo where
  mark := id
  bump := fun _ _ => id
  take := fun hr h => h.trans (Trace.offer_stay _ _ hr)

/-- Outside curfew a record is in the FIFO once it is offered, where the trace records and has room. -/
theorem State.mem_offer {s : State} (hcurfew : s.obs.curfew.on = false) (hrec : s.obs.trace.recording = true)
    (hroom : s.obs.trace.fifo.length < 63) (r : Rec) :
    Rec.unnumbered { r with time := s.now, tick := s.clk.up } ∈ (s.offer r).obs.trace.fifo.map Rec.unnumbered := by
  obtain ⟨hkept, hmem⟩ := Trace.offer_takes hrec hroom s.now { r with tick := s.clk.up }
  unfold State.offer
  rw [hcurfew, if_neg (by decide)]
  dsimp only
  rw [hkept, if_neg (by decide)]
  exact hmem

/-! ### Entry to curfew (R452, R455) -/

theorem State.enterCurfew_again {s : State} (h : s.obs.curfew.on = true) (cause link : Nat) (origin : BitVec 11) (serial : BitVec 32) :
    s.enterCurfew cause link origin serial = s := if_pos h

/-- Curfew as an entry at milestone time `now` leaves it. -/
def Curfew.entered (c : Curfew) (now : Word) (cause link : Nat) (origin : BitVec 11) (serial : BitVec 32) : Curfew :=
  { c with on := true, cause := BitVec.ofNat 3 cause, link := BitVec.ofNat 5 link, origin := origin, serial := serial, time := now
           entries := satAdd c.entries 1 }

/-- The blocks that an entry sends: four on every link that is not DOWN and whose blocks leave, none in the safe state. -/
def State.entryBlocks (s : State) (origin : BitVec 11) (serial : BitVec 32) : List Emit :=
  if s.fc.safe then []
  else (s.upLinks.filter s.linkSends).flatMap fun n => List.replicate 4 (.control n (curfewBlock 0 origin serial))

theorem State.onLinks_eq (s : State) (n : Nat) (b : BitVec 64) : ∃ z, s.onLinks n b =
    { s with sent := s.sent ++ (s.upLinks.filter s.linkSends).flatMap fun k => List.replicate n (.control k b), lines := z } := ⟨_, rfl⟩

/-- The block in curfew, its record `c`, before the entry blocks are sent. -/
def State.inCurfew (s : State) (c : Curfew) : State :=
  { s with obs := { s.obs with curfew := { c with on := true } }, pins := { s.pins with curfewOut := true } }

/-- An entry offers its record before the block stops. -/
def State.entryOffered (s : State) (c : Curfew) : State := State.curfewRec { s with obs := { s.obs with curfew := c } } 0

theorem State.enterCurfew_eq {s : State} (h : s.obs.curfew.on = false) (cause link : Nat) (origin : BitVec 11) (serial : BitVec 32) :
    ∃ x c z, Stay s.obs.trace.fifo x.fifo ∧ s.enterCurfew cause link origin serial = { s with
      obs := { s.obs with trace := x, cnt := c, curfew := s.obs.curfew.entered s.now cause link origin serial }
      pins := { s.pins with curfewOut := true }, sent := s.sent ++ s.entryBlocks origin serial, lines := z } := by
  let d : Curfew := { s.obs.curfew with
    cause := BitVec.ofNat 3 cause, link := BitVec.ofNat 5 link, origin := origin, serial := serial, time := s.now
    entries := satAdd s.obs.curfew.entries 1 }
  let t : State := { s with obs := { s.obs with curfew := d } }
  have hoffered : s.enterCurfew cause link origin serial =
      (let u := (s.entryOffered d).inCurfew (s.entryOffered d).obs.curfew
       if u.fc.safe then u else u.onLinks 4 (curfewBlock 0 origin serial)) := if_neg (ne_true_of_eq_false h)
  obtain ⟨x, c, hrec⟩ : Traced t (s.entryOffered d) := (recording_traced t).curfewRec 0 (.refl t)
  have hstay : Stay s.obs.trace.fifo (s.entryOffered d).obs.trace.fifo :=
    (recording_fifo _).curfewRec (s := t) 0 (.refl _)
  rw [hrec] at hstay
  let v : State := { s with
    obs := { s.obs with trace := x, cnt := c, curfew := s.obs.curfew.entered s.now cause link origin serial }
    pins := { s.pins with curfewOut := true } }
  have hin : (s.entryOffered d).inCurfew (s.entryOffered d).obs.curfew = v := by
    rw [hrec]
    rfl
  rw [hoffered, hin]
  by_cases hsafe : s.fc.safe = true
  · refine ⟨x, c, s.lines, hstay, Eq.trans (if_pos hsafe) ?_⟩
    rw [State.entryBlocks, if_pos hsafe, List.append_nil]
  · obtain ⟨z, hz⟩ := v.onLinks_eq 4 (curfewBlock 0 origin serial)
    refine ⟨x, c, z, hstay, Eq.trans (if_neg hsafe) (hz.trans ?_)⟩
    rw [State.entryBlocks, if_neg hsafe]
    rfl

/-- An entry to curfew leaves the trigger units and the records of the FIFO. -/
theorem State.enterCurfew_stays (s : State) (cause link : Nat) (origin : BitVec 11) (serial : BitVec 32) :
    (s.enterCurfew cause link origin serial).obs.trig = s.obs.trig ∧
      Stay s.obs.trace.fifo (s.enterCurfew cause link origin serial).obs.trace.fifo := by
  cases h : s.obs.curfew.on with
  | true =>
    rw [State.enterCurfew_again h]
    exact ⟨rfl, .refl _⟩
  | false =>
    obtain ⟨x, c, z, hstay, heq⟩ := State.enterCurfew_eq h cause link origin serial
    rw [heq]
    exact ⟨rfl, hstay⟩

theorem State.enterCurfew_on (s : State) (cause link : Nat) (origin : BitVec 11) (serial : BitVec 32) :
    (s.enterCurfew cause link origin serial).obs.curfew.on = true := by
  cases h : s.obs.curfew.on with
  | true => rwa [State.enterCurfew_again h]
  | false =>
    obtain ⟨x, c, z, -, heq⟩ := State.enterCurfew_eq h cause link origin serial
    rw [heq]
    rfl

/-! ### A unit fires (R441) -/

/-- The TRIGGER record of unit `k`. -/
def triggerRec (k : Nat) (t : Trig) : Rec :=
  { type_ := 5, unit_ := 0xD, inst := 0, aux := BitVec.ofNat 16 k, pay := leBytes 8 t.value.toNat, act := t.trace }

/-- A unit that fires with its record offered, before its CURFEW action. -/
def State.fired (s : State) (k : Nat) : State :=
  (s.setTrigger k { s.trigger k with fired := true, en := false }).offer (triggerRec k (s.trigger k))

theorem State.fireUnit_eq (s : State) (k : Nat) :
    s.fireUnit k = if (s.trigger k).curfew then (s.fired k).enterCurfewOwn 3 else s.fired k := rfl

theorem State.fireUnit_stays (s : State) (k : Nat) :
    (s.fireUnit k).obs.trig = s.obs.trig.put {} k { s.trigger k with fired := true, en := false } ∧
      Stay (s.fired k).obs.trace.fifo (s.fireUnit k).obs.trace.fifo := by
  have hfired : (s.fired k).obs.trig = s.obs.trig.put {} k { s.trigger k with fired := true, en := false } := by
    obtain ⟨x, c, h⟩ := (s.setTrigger k { s.trigger k with fired := true, en := false }).offer_traced (triggerRec k (s.trigger k))
    rw [State.fired, h]
    rfl
  rw [State.fireUnit_eq]
  split
  · obtain ⟨htrig, hstay⟩ := (s.fired k).enterCurfew_stays 3 0 (s.fired k).chip ((s.fired k).obs.curfew.serial + 1)
    exact ⟨htrig.trans hfired, hstay⟩
  · exact ⟨hfired, .refl _⟩

/-- The TRIGGER record is in the FIFO after the unit has fired. -/
theorem State.fireUnit_records {s : State} (hcurfew : s.obs.curfew.on = false) (hrec : s.obs.trace.recording = true)
    (hroom : s.obs.trace.fifo.length < 63) (k : Nat) :
    ∃ q, { triggerRec k (s.trigger k) with seq := q, time := s.now, tick := s.clk.up } ∈ (s.fireUnit k).obs.trace.fifo := by
  obtain ⟨-, hstay⟩ := s.fireUnit_stays k
  have hmem := hstay (State.mem_offer (s := s.setTrigger k { s.trigger k with fired := true, en := false }) hcurfew hrec hroom
    (triggerRec k (s.trigger k)))
  obtain ⟨e, he, heq⟩ := List.mem_map.mp hmem
  refine ⟨e.seq, ?_⟩
  have hrec : { e.unnumbered with seq := e.seq } = e := rfl
  rw [heq] at hrec
  rw [← hrec] at he
  exact he

/-- Settles O54: what firing and entry to curfew change, and what they leave. -/
theorem curfewAndTriggers : Obligations.CurfewAndTriggers := by
  unfold Obligations.CurfewAndTriggers
  refine ⟨fun k s => ?fires, fun cause link origin serial s => ⟨fun h => State.enterCurfew_again h _ _ _ _, fun h => ?enters⟩⟩
  case fires =>
    obtain ⟨htrig, -⟩ := s.fireUnit_stays k.val
    have hunit (j : Nat) : (s.fireUnit k.val).trigger j =
        (s.obs.trig.put {} k.val { s.trigger k.val with fired := true, en := false }).get {} j := by
      rw [State.trigger, htrig]
    have hframe : (s.fireUnit k.val).queues = s.queues ∧ (s.fireUnit k.val).fc = s.fc ∧ (s.fireUnit k.val).links = s.links ∧
        (s.fireUnit k.val).parts = s.parts := by
      obtain ⟨_, _, _, _, h⟩ := s.fireUnit_watched k.val
      rw [h]
      exact ⟨rfl, rfl, rfl, rfl⟩
    refine ⟨by rw [hunit, Tab.get_put_same], by rw [hunit, Tab.get_put_same], fun j hj => ?_, fun hcurfew => ?_,
      fun hoff hrec hroom => ?_, hframe⟩
    · rw [hunit, Tab.get_put_ne _ _ hj]
      rfl
    · rw [State.fireUnit_eq, if_pos hcurfew]
      exact State.enterCurfew_on _ _ _ _ _
    · obtain ⟨q, hq⟩ := State.fireUnit_records hoff hrec hroom k.val
      exact ⟨_, hq, rfl, rfl, rfl, Nat.mod_eq_of_lt (by omega), rfl, rfl, rfl⟩
  case enters =>
    obtain ⟨x, c, z, -, heq⟩ := State.enterCurfew_eq h cause link origin serial
    rw [heq]
    refine ⟨rfl, rfl, fun hsafe => ?_, fun hsafe => ?_, rfl, rfl, rfl, rfl, rfl⟩
    · rw [State.entryBlocks, if_neg (ne_true_of_eq_false hsafe)]
    · rw [State.entryBlocks, if_pos hsafe, List.append_nil]

/-! ### Triggers of milestone time, exports and power windows (R388, R441, R447) -/

/-- For a unit of KIND 0x5 the level is its time. -/
theorem State.trigLevel_time (s : State) (t : Trig) :
    (decide (t.kind = 5) && s.trigLevel t) = (decide (t.kind = 5) && decide (t.value ≤ s.now)) := by
  by_cases h : t.kind = 5
  · simp [State.trigLevel, h]
  · rw [decide_eq_false h]
    rfl

theorem State.exportDue_due {s : State} (hrun : s.running = true) (hen : bit (s.reg 0x20048) 63 = true)
    (hdue : s.obs.exportAt + ms5 (max 1 (bits (s.reg 0x20048) 0 16)) ≤ s.clk.ms) : s.exportDue =
      State.export_ { s with obs := { s.obs with exportAt := s.obs.exportAt + ms5 (max 1 (bits (s.reg 0x20048) 0 16)) } } :=
  if_pos (by rw [hen, hrun]; simpa using hdue)

/-- Settles O53: each clause is one outcome of FIRE, of a timed trigger, of the exports or of a power window. -/
theorem triggersAndWindows : Obligations.TriggersAndWindows := by
  unfold Obligations.TriggersAndWindows
  refine ⟨fun k s hopen => ?fire, fun dt s => ?time, fun dt s hrun hen hdue => ?exports, fun watts dt s => ⟨fun h => ?ends, fun h => ?within⟩⟩
  case fire => exact answers_of_mgWrite hopen rfl (if_neg (ne_true_of_eq_false hopen.2))
  case time => exact does_of_eq rfl (congrArg (s.passNs dt).fireWhere (funext (s.passNs dt).trigLevel_time))
  case exports => exact does_of_eq rfl (State.exportDue_due (s := s.passNs dt) hrun hen hdue)
  case ends => exact congrArg (fun o => Host.Outcome.next { s.passNs dt with obs := o }) (if_pos h)
  case within => exact congrArg (fun o => Host.Outcome.next { s.passNs dt with obs := o }) (if_neg (Nat.not_lt.mpr h))

/-! ### The causes of curfew, and its end (R452 to R457) -/

theorem State.timedEntry_due {s : State} (harmed : bit (s.reg 0x20218) 63 = true) (htime : bits (s.reg 0x20218) 0 63 ≤ s.now.toNat)
    (hoff : s.obs.curfew.on = false) :
    s.timedEntry = (s.enterCurfewOwn 5).setReg 0x20218 (s.reg 0x20218 &&& 0x7FFFFFFFFFFFFFFF) :=
  if_pos (by simp [harmed, htime, hoff])

theorem curfewPacket_takes {src : SrcId} {p : Pkt} {s : State} (hrun : s.running = true)
    (hp : (s.inboxOf src.val).find? (fun q => decide (q.op.toNat = 0x24 ∧ q.dst = s.chip)) = some p) :
    Does (.curfewPacket src) s ((s.consume src.val p).takeCurfewPkt p) :=
  does_of_eq rfl (State.vc1Row_head hrun hp fun p s => s.takeCurfewPkt p)

theorem State.resume_outside {s : State} (h : s.obs.curfew.on = false) : s.resume = s := if_pos (by simp [h])

/-- With nothing held, a resume in the safe state restarts nothing. -/
theorem State.resume_safe {s : State} (hon : s.obs.curfew.on = true) (hnone : s.obs.curfew.hold = []) (hsafe : s.fc.safe = true) :
    s.resume = { s with obs := { s.obs with curfew := { s.obs.curfew with on := false, hold := [] } }
                        pins := { s.pins with curfewOut := false } } := by
  unfold State.resume
  rw [if_neg (by simp [hon]), hnone]
  exact (if_neg Bool.false_ne_true).trans (if_pos hsafe)

theorem State.resumeExpire_due {s : State} {n t : Nat} (hrun : s.running = true) (hwait : (s.link n).ll.resumeWait = some t)
    (hdue : t ≤ s.clk.up) : s.resumeExpire n = s.linkResumed n := by
  unfold State.resumeExpire
  simp only [hwait]
  exact if_pos (by simp [hrun, hdue])

/-- Settles O55: each clause is one cause of curfew, or one end of it. -/
theorem curfewEntriesAndEnds : Obligations.CurfewEntriesAndEnds := by
  unfold Obligations.CurfewEntriesAndEnds
  refine ⟨⟨fun s h => ?go, fun s => rfl, fun dt s harmed htime hoff => ?timed, fun src p s hrun hp => ⟨fun htag => ?arms, fun htag => ?counted⟩⟩,
    fun s h hon => ?resumes, fun s h hoff => ?idle, fun s => State.resume_safe, fun k dt t s hrun hwait hdue => ?link⟩
  case go => exact congrArg Host.Outcome.next (State.mgWrite_port h rfl _)
  case timed => exact congrArg Host.Outcome.next (State.timedEntry_due (s := s.passNs dt) harmed htime hoff)
  case arms =>
    have htake : (s.consume src.val p).takeCurfewPkt p = ((s.consume src.val p).setReg 0x20218 (word64 p.data 0)).timedEntry :=
      if_pos (htag.trans (s.consume_p0Tag src.val p).symm)
    exact htake ▸ curfewPacket_takes hrun hp
  case counted =>
    obtain ⟨k, w, hconsume⟩ := s.consume_eq src.val p
    refine ⟨_, curfewPacket_takes hrun hp, ?_⟩
    rw [State.takeCurfewPkt, if_neg (htag.trans_eq (s.consume_p0Tag src.val p).symm), hconsume]
    exact ⟨rfl, rfl⟩
  case resumes => exact congrArg Host.Outcome.next (State.mgWrite_port h rfl _)
  case idle =>
    have hact : Answers .curfewResume s s.resume := congrArg Host.Outcome.next (State.mgWrite_port h rfl _)
    rwa [State.resume_outside hoff] at hact
  case link => exact does_of_eq rfl (State.resumeExpire_due (s := s.passNs dt) hrun hwait hdue)

end Sys2Proof.Machine
end

section
/-! SUPPORT. Event counters and the trace buffer (R387, R433 to R440): what a write of a counter, a snapshot of the views, a start of the
trace and a record taken into the buffer change, with the obligation about them. -/

namespace Sys2Proof.Machine
open Sys2Proof.Safety

/-! ### Counters and their views (R387, R433, R434) -/

/-- With no unit armed, none fires. -/
theorem State.fireWhere_unarmed {s : State} (h : ∀ k, (s.trigger k).en = false) (holds : Trig → Bool) : s.fireWhere holds = s := by
  have hstep (l : List Nat) : forEach l (fun k s =>
      if !s.obs.curfew.on && (s.trigger k).en && holds (s.trigger k) then s.fireUnit k else s) s = s := by
    induction l with
    | nil => rfl
    | cons k l ih =>
      have hk : (if !s.obs.curfew.on && (s.trigger k).en && holds (s.trigger k) then s.fireUnit k else s) = s :=
        if_neg (by simp [h k])
      change forEach l _ (if _ then _ else _) = s
      rw [hk]
      exact ih
  exact hstep _

theorem State.takeViews_boundary {s : State} (h : s.obs.viewAt < s.msIndex) : s.takeViews = { s with obs := { s.obs with
    viewAt := s.msIndex
    view := (s.obs.cnt.map fun e => (e.1, BitVec.ofNat 64 (e.2.toNat / 4096 * 4096))).filter fun e => decide (e.2 ≠ 0) } } :=
  congrArg (fun o => { s with obs := o }) (if_pos h)

theorem State.takeViews_within {s : State} (h : s.msIndex ≤ s.obs.viewAt) :
    s.takeViews = { s with obs := { s.obs with viewAt := s.msIndex } } :=
  congrArg (fun o => { s with obs := o }) (if_neg (Nat.not_lt.mpr h))

/-- A count in a view. -/
theorem viewed_toNat (c : Word) : (BitVec.ofNat 64 (c.toNat / 4096 * 4096)).toNat = c.toNat / 4096 * 4096 := by
  rw [BitVec.toNat_ofNat, Nat.mod_eq_of_lt]
  exact (Nat.div_mul_le_self _ _).trans_lt c.isLt

/-! ### EN of the trace (R439) -/

theorem bit_and {w : Nat} (x y : BitVec w) (i : Nat) : bit (x &&& y) i = (bit x i && bit y i) := BitVec.getLsbD_and

/-- EN set in a word of OBS_TRACE_CTL. -/
theorem bit_en_set (w : Word) : bit (w ||| 0x8000000000000000) 63 = true ∧
    ∀ i, i < 63 → bit (w ||| 0x8000000000000000) i = bit w i := by
  have hen : bit (0x8000000000000000 : Word) 63 = true ∧ ∀ i, i < 63 → bit (0x8000000000000000 : Word) i = false := by decide
  exact ⟨by rw [bit_or, hen.1, Bool.or_true], fun i hi => by rw [bit_or, hen.2 i hi, Bool.or_false]⟩

/-- EN cleared in a word of OBS_TRACE_CTL. -/
theorem bit_en_clear (w : Word) : bit (w &&& 0x7FFFFFFFFFFFFFFF) 63 = false ∧
    ∀ i, i < 63 → bit (w &&& 0x7FFFFFFFFFFFFFFF) i = bit w i := by
  have hen : bit (0x7FFFFFFFFFFFFFFF : Word) 63 = false ∧ ∀ i, i < 63 → bit (0x7FFFFFFFFFFFFFFF : Word) i = true := by decide
  exact ⟨by rw [bit_and, hen.1, Bool.and_false], fun i hi => by rw [bit_and, hen.2 i hi, Bool.and_true]⟩

section
variable {s : State} {v : Word}

theorem traceEnable_answers {u : State} (hopen : Open s) (h : s.writeTraceCtl (s.traceCtl ||| 0x8000000000000000) = u) :
    Answers .traceEnable s u :=
  answers_of_mgWrite hopen rfl h

/-- SPILL_EN finds no room: EN stays 0, and the trace stops. -/
theorem State.writeTraceCtl_full (hspill : bit v 60 = true) (hnone : bits (s.reg 0x20028) 0 29 = 0) : s.writeTraceCtl v =
    (s.setReg 0x20010 (v &&& 0x7FFFFFFFFFFFFFFF)).setTrace { s.obs.trace with recording := false, fifo := [] } := by
  unfold State.writeTraceCtl
  rw [hspill, hnone]
  exact if_pos (congrArg not (bit_en_clear v).1)

theorem State.writeTraceCtl_en (hen : bit v 63 = true) (hroom : bit v 60 = false ∨ bits (s.reg 0x20028) 0 29 ≠ 0) :
    s.writeTraceCtl v =
      if bit s.traceCtl 63 then s.setReg 0x20010 v
      else (s.setReg 0x20010 v).setTrace
        { recording := true, held := s.obs.trace.held, seq := s.obs.trace.seq, staged := s.obs.trace.staged, lost := s.obs.trace.lost
          tallied := s.obs.trace.tallied } := by
  have hgood : (bit v 60 && decide (bits (s.reg 0x20028) 0 29 = 0)) = false := by
    rcases hroom with h | h <;> simp [h]
  unfold State.writeTraceCtl
  rw [hgood]
  exact if_neg (by simp [hen])

end

/-! ### A record goes into the buffer (R438, R439) -/

/-- Taking a record leaves the buffer's words, and the capture FIFO's rest unless recording stops. -/
theorem Trace.take_fifo (t : Trace) (mode n p : Nat) (act : Bool) (h : t.recording = true) : (t.take mode n p act).buf = t.buf ∧
    (t.take mode n p act).fifo = if (t.take mode n p act).recording then t.fifo else [] := by
  unfold Trace.take
  dsimp only
  split_ifs <;> simp_all

theorem Trace.offer_buf (t : Trace) (now : Word) (r : Rec) : (t.offer now r).1.buf = t.buf := by
  unfold Trace.offer Trace.put
  split_ifs <;> rfl

/-- Records of the trace buffer's own events leave the records it holds. -/
theorem recording_buf (b : Tab (List Word)) : Recording fun s => s.obs.trace.buf = b where
  mark := id
  bump := fun _ _ => id
  take := fun _ h => (Trace.offer_buf _ _ _).trans h

/-- While the trace writes no EVENT records, counting its own events leaves the FIFO. -/
theorem State.tally_untraced {s : State} (h : s.traceSrc 1 = false) (event : Nat) :
    (s.tally event).obs.trace.fifo = s.obs.trace.fifo ∧ (s.tally event).obs.trace.recording = s.obs.trace.recording := by
  let P : State → Prop := fun t =>
    (t.obs.trace.fifo = s.obs.trace.fifo ∧ t.obs.trace.recording = s.obs.trace.recording) ∧ t.traceSrc 1 = false
  have hcnt : P (s.tallyCnt event) := by
    unfold State.tallyCnt
    refine iteInduction (fun _ => ⟨⟨rfl, rfl⟩, h⟩) fun _ => iteInduction (fun _ => ⟨⟨rfl, rfl⟩, h⟩) fun _ => ?_
    have hbump (i : Nat) (r : State) (hr : P r) : P (r.bumpCnt i 1) := hr
    exact forEach_preserves (P := P) hbump _ ⟨⟨rfl, rfl⟩, h⟩
  have hall : P (s.tally event) := by
    unfold State.tally
    refine iteInduction (fun _ => ⟨⟨rfl, rfl⟩, h⟩) fun _ => forEach_preserves (P := P) (fun i r hr => ?_) _ hcnt
    exact iteInduction (fun htraced => absurd htraced (by simp [State.traced, hr.2])) fun _ => hr
  exact hall.1

/-- The buffer after it has taken record `r` from a FIFO whose rest is `l`. -/
def State.traceTaken (s : State) (r : Rec) (l : List Rec) : Trace :=
  Trace.take { s.obs.trace with fifo := l } (bits s.traceCtl 61 2) s.traceCap (s.traceCap * s.postPct / 100) r.act

theorem State.takeRecord_onChip {s : State} {r : Rec} {l : List Rec} (hfifo : s.obs.trace.fifo = r :: l)
    (hrec : s.obs.trace.recording = true) (hspill : s.spillEn = false) (hcurfew : s.obs.curfew.on = false) : s.takeRecord =
      (s.setTrace { s.traceTaken r l with buf := (s.traceTaken r l).buf.put [] s.obs.trace.next r.words }).tally 0 := by
  unfold State.takeRecord
  simp only [hfifo]
  rw [if_neg (by simp [hrec, hspill, hcurfew]), if_neg (by simp [hspill])]
  rfl

/-- Settles O52: each clause is one outcome of a write of a counter, a snapshot, a start of the trace, a record or a read. -/
theorem countersAndTrace : Obligations.CountersAndTrace := by
  unfold Obligations.CountersAndTrace
  refine ⟨⟨fun n v s hopen => ?select, fun n v s hopen hunarmed => ?preset, fun dt s => ?views⟩,
    fun s hopen hspill hnone => ?full, fun s hopen hen hroom => ?running, fun s hopen hen hroom => ?starts,
    fun s r l hrun hfifo hrec hspill hcurfew => ?takes, fun s hport => ?reads⟩
  case select =>
    refine ⟨s.writeCsel n.val v, answers_of_mgWrite hopen rfl rfl, Tab.get_put_same (0 : Word) s.obs.cnt n.val 0,
      Tab.get_put_same (0 : Word) s.obs.view n.val 0, Tab.get_put_same (0 : Word) s.obs.csel n.val (v &&& 0xFE1FFFFF000000FF),
      fun m hm => ?_, rfl, rfl⟩
    exact ⟨Tab.get_put_ne (d := (0 : Word)) s.obs.cnt 0 hm, Tab.get_put_ne (d := (0 : Word)) s.obs.csel (v &&& 0xFE1FFFFF000000FF) hm⟩
  case preset =>
    have hwrite : s.writeCnt n.val v = s.modObs fun o => { o with cnt := o.cnt.put 0 n.val v } :=
      State.fireWhere_unarmed (s := s.modObs fun o => { o with cnt := o.cnt.put 0 n.val v }) hunarmed _
    refine ⟨s.modObs fun o => { o with cnt := o.cnt.put 0 n.val v }, answers_of_mgWrite hopen rfl hwrite,
      Tab.get_put_same (0 : Word) s.obs.cnt n.val v, fun m hm => ?_, rfl, rfl, rfl⟩
    exact Tab.get_put_ne (d := (0 : Word)) s.obs.cnt v hm
  case views =>
    rcases Nat.lt_or_ge s.obs.viewAt (s.passNs dt).msIndex with hdue | hearly
    · have htaken := State.takeViews_boundary (s := s.passNs dt) hdue
      refine ⟨_, congrArg Host.Outcome.next htaken, rfl, fun _ => ⟨fun e he => ?_, fun e he hlarge => ?_⟩,
        fun h => absurd hdue (Nat.not_lt.mpr h), rfl⟩
      · obtain ⟨hmem, hne⟩ := List.mem_filter.mp he
        obtain ⟨d, hd, rfl⟩ := List.mem_map.mp hmem
        exact ⟨d.2, hd, viewed_toNat d.2, of_decide_eq_true hne⟩
      · refine List.mem_filter.mpr ⟨List.mem_map.mpr ⟨e, he, rfl⟩, decide_eq_true fun h => ?_⟩
        have hzero : e.2.toNat / 4096 * 4096 = 0 := (viewed_toNat e.2).symm.trans (congrArg BitVec.toNat h)
        omega
    · have htaken := State.takeViews_within (s := s.passNs dt) hearly
      exact ⟨_, congrArg Host.Outcome.next htaken, rfl, fun h => absurd h (Nat.not_lt.mpr hearly), fun _ => rfl, rfl⟩
  case full =>
    obtain ⟨hen, hrest⟩ := bit_en_clear (s.traceCtl ||| 0x8000000000000000)
    have hset := (bit_en_set s.traceCtl).2
    refine ⟨_, traceEnable_answers hopen (State.writeTraceCtl_full ((hset 60 (by decide)).trans hspill) hnone), ?_⟩
    have hctl (t : Trace) : ((s.setReg 0x20010 ((s.traceCtl ||| 0x8000000000000000) &&& 0x7FFFFFFFFFFFFFFF)).setTrace t).traceCtl =
        (s.traceCtl ||| 0x8000000000000000) &&& 0x7FFFFFFFFFFFFFFF := s.reg_setReg _ _
    rw [hctl]
    exact ⟨hen, fun i hi => (hrest i hi).trans (hset i hi), rfl, rfl, rfl, rfl⟩
  case running =>
    obtain ⟨hset, hrest⟩ := bit_en_set s.traceCtl
    refine traceEnable_answers hopen ((State.writeTraceCtl_en hset (hroom.imp_left fun h => ?_)).trans (if_pos hen))
    rwa [hrest 60 (by decide)]
  case starts =>
    obtain ⟨hset, hrest⟩ := bit_en_set s.traceCtl
    refine traceEnable_answers hopen ((State.writeTraceCtl_en hset (hroom.imp_left fun h => ?_)).trans (if_neg (ne_true_of_eq_false hen)))
    rwa [hrest 60 (by decide)]
  case takes =>
    have htake := State.takeRecord_onChip hfifo hrec hspill hcurfew
    obtain ⟨hbuf, hrest⟩ := Trace.take_fifo { s.obs.trace with fifo := l } (bits s.traceCtl 61 2) s.traceCap
      (s.traceCap * s.postPct / 100) r.act hrec
    have hdoes : Does .traceRecordTake s s.takeRecord := congrArg Host.Outcome.next (if_pos hrun)
    refine ⟨_, hdoes, ?_⟩
    rw [htake]
    generalize hw : ({ s.traceTaken r l with buf := (s.traceTaken r l).buf.put [] s.obs.trace.next r.words } : Trace) = w
    have hheld := (recording_buf w.buf).tally (s := s.setTrace w) 0 rfl
    obtain ⟨x, c, hframe⟩ := (recording_traced s).tally 0 ((Traced.refl s).setTrace w)
    refine ⟨?_, fun hsrc => ?_, by rw [hframe], by rw [hframe], by rw [hframe]⟩
    · rw [hheld, ← hw]
      exact Tab.get_put_same [] (s.traceTaken r l).buf _ r.words
    · obtain ⟨hfifo, hon⟩ := State.tally_untraced (s := s.setTrace w) hsrc 0
      rw [hfifo, hon, ← hw]
      exact hrest
  case reads =>
    obtain ⟨hmgmt, hcredit⟩ := hport
    change Host.Outcome.next _ = _
    rw [State.mgBeat_credit hcredit, if_pos hmgmt]
    rfl

end Sys2Proof.Machine
end

section
/-! SUPPORT. Scan-out and the exerciser (R458 to R460, R485, R486): what loading an instruction of the TAP and bringing a lane's counts up
to the present leave, with the obligation about them. -/

namespace Sys2Proof.Machine
open Sys2Proof.Safety

/-! ### Fields of a word -/

theorem extract_congr {x y : Word} {lo n : Nat} (h : ∀ i, i < n → bit x (lo + i) = bit y (lo + i)) :
    x.extractLsb' lo n = y.extractLsb' lo n :=
  BitVec.eq_of_getLsbD_eq fun i hi => by
    rw [BitVec.getLsbD_extractLsb', BitVec.getLsbD_extractLsb']
    exact congrArg _ (h i hi)

/-- A field is the number its bits spell. -/
theorem bits_extract (x : Word) (lo n : Nat) : bits x lo n = (x.extractLsb' lo n).toNat := (BitVec.extractLsb'_toNat lo n x).symm

theorem bits_congr {x y : Word} {lo n : Nat} (h : ∀ i, i < n → bit x (lo + i) = bit y (lo + i)) : bits x lo n = bits y lo n := by
  rw [bits_extract, bits_extract, extract_congr h]

/-- A field holds `v` where its bits are those of `v`. -/
theorem bits_eq_toNat {x : Word} {lo n : Nat} {v : BitVec n} (h : ∀ i, i < n → bit x (lo + i) = v.getLsbD i) : bits x lo n = v.toNat := by
  rw [bits_extract]
  refine congrArg BitVec.toNat (BitVec.eq_of_getLsbD_eq fun i hi => ?_)
  rw [BitVec.getLsbD_extractLsb', decide_eq_true hi, Bool.true_and]
  exact h i hi

/-! ### The position of the TAP stays (R460) -/

/-- Records of the trace buffer's own events leave the TAP. -/
theorem recording_tap (p : ScanPos) : Recording fun s => s.obs.tap = p where
  mark := id
  bump := fun _ _ => id
  take := fun _ => id

section
variable {p : ScanPos} {s : State}

theorem State.enterCurfew_tap (cause link : Nat) (origin : BitVec 11) (serial : BitVec 32) (h : s.obs.tap = p) :
    (s.enterCurfew cause link origin serial).obs.tap = p := by
  cases hon : s.obs.curfew.on with
  | true => rwa [State.enterCurfew_again hon]
  | false =>
    obtain ⟨x, c, z, -, heq⟩ := State.enterCurfew_eq hon cause link origin serial
    rw [heq]
    exact h

theorem State.fireUnit_tap (k : Nat) (h : s.obs.tap = p) : (s.fireUnit k).obs.tap = p := by
  have hfired : (s.fired k).obs.tap = p := (recording_tap p).offer h h
  rw [State.fireUnit_eq]
  split
  · exact State.enterCurfew_tap _ _ _ _ hfired
  · exact hfired

theorem State.fireWhere_tap (holds : Trig → Bool) (h : s.obs.tap = p) : (s.fireWhere holds).obs.tap = p :=
  forEach_preserves (P := fun t => t.obs.tap = p)
    (f := fun k t => if !t.obs.curfew.on && (t.trigger k).en && holds (t.trigger k) then t.fireUnit k else t)
    (fun k t ht => by
      split
      · exact State.fireUnit_tap k ht
      · exact ht) _ h

theorem State.countStep_tap (i n inst : Nat) (part : Option Nat) (h : s.obs.tap = p) : (s.countStep i n inst part).obs.tap = p := by
  have hrec (r : Rec) : (if (s.bumpCnt i n).traced i then (s.bumpCnt i n).offer r else s.bumpCnt i n).obs.tap = p := by
    split
    · exact (recording_tap p).offer (s := s.bumpCnt i n) h h
    · exact h
  unfold State.countStep
  exact State.fireWhere_tap _ (hrec _)

theorem State.countOne_tap (i n inst : Nat) (part : Option Nat) (h : s.obs.tap = p) : (s.countOne i n inst part).obs.tap = p := by
  unfold State.countOne
  dsimp only
  split
  · exact forEach_preserves (P := fun t => t.obs.tap = p) (f := fun _ t => t.countStep i 1 inst part)
      (fun _ _ => State.countStep_tap i 1 inst part) _ h
  · exact State.countStep_tap i n inst part h

theorem State.count_tap (unit_ event inst : Nat) (part : Option Nat) (n : Nat) (h : s.obs.tap = p) :
    (s.count unit_ event inst part n).obs.tap = p := by
  unfold State.count
  split
  · exact h
  · exact forEach_preserves (P := fun t => t.obs.tap = p) (f := fun i t => t.countOne i n inst part)
      (fun i _ => State.countOne_tap i n inst part) _ h

theorem State.headerMore_tap (n k : Nat) (h : s.obs.tap = p) : (s.headerMore n k).obs.tap = p := by
  have hcross : (s.crossKey n .header k).obs.tap = p := by
    unfold State.crossKey
    dsimp only
    split <;> exact h
  unfold State.headerMore
  split
  · exact h
  · exact State.count_tap 2 1 n none k
      (s := (s.crossKey n .header k).modLane n fun l => { l with hdrErr := satAdd l.hdrErr k }) hcross

theorem State.windowTake_tap (n least : Nat) (h : s.obs.tap = p) : (s.windowTake n least).obs.tap = p := by
  unfold State.windowTake
  dsimp only
  split
  · exact h
  · exact State.headerMore_tap n _ h

theorem State.headTake_tap (n least : Nat) (h : s.obs.tap = p) : (s.headTake n least).obs.tap = p := by
  unfold State.headTake
  dsimp only
  split
  · exact h
  · split
    · exact State.windowTake_tap n least h
    · exact State.headerMore_tap n _ h

theorem State.prbsSettle_tap (n : Nat) (h : s.obs.tap = p) : (s.prbsSettle n).obs.tap = p := by
  unfold State.prbsSettle
  dsimp only
  split <;> exact h

theorem State.laneSettle_tap (n o : Nat) (h : s.obs.tap = p) : (s.laneSettle n o).obs.tap = p := by
  unfold State.laneSettle
  split
  · exact State.prbsSettle_tap n h
  · exact State.windowTake_tap n 0 h
  · exact State.headTake_tap n 0 h
  · exact h

theorem State.settle_tap (a : Nat) (h : s.obs.tap = p) : (s.settle a).obs.tap = p := by
  unfold State.settle
  dsimp only
  split
  · exact State.laneSettle_tap _ _ h
  · split
    · split
      · exact forEach_preserves (P := fun t => t.obs.tap = p) (f := fun n t => t.headSettle n) (fun n _ => State.headTake_tap n 0) _ h
      · exact h
    · exact h

end

/-- Bringing the counts that a word of the image shows up to the present leaves the TAP. -/
theorem State.scanSettle_tap (s : State) (p : ScanPos) : (s.scanSettle p).obs.tap = s.obs.tap := by
  unfold State.scanSettle
  split
  · rfl
  · exact State.settle_tap _ rfl

theorem State.scanSettle_eq_self (s : State) {p : ScanPos} (h : p.ended = true ∨ p.sect ≠ 0x30 ∨ p.word < 2) : s.scanSettle p = s :=
  if_pos (by simpa [or_assoc] using h)

/-! ### No register shows the instruction of the TAP -/

theorem State.peek_tapLoad (s : State) (ir : BitVec 4) : (s.tapLoad ir).peek = s.peek := by
  funext a
  unfold State.peek
  rw [show (s.tapLoad ir).peekGbl = s.peekGbl from rfl, show (s.tapLoad ir).peekFc = s.peekFc from rfl,
    show (s.tapLoad ir).peekObs = s.peekObs from rfl, show (s.tapLoad ir).peekSec = s.peekSec from rfl,
    show (s.tapLoad ir).peekLnk = s.peekLnk from rfl, show (s.tapLoad ir).peekLane = s.peekLane from rfl,
    show (s.tapLoad ir).peekPtr = s.peekPtr from rfl, show (s.tapLoad ir).peekSch = s.peekSch from rfl,
    show (s.tapLoad ir).peekStw = s.peekStw from rfl, show (s.tapLoad ir).peekQ = s.peekQ from rfl,
    show (s.tapLoad ir).peekSync = s.peekSync from rfl, show (s.tapLoad ir).peekSmv = s.peekSmv from rfl,
    show (s.tapLoad ir).peekInn = s.peekInn from rfl, show (s.tapLoad ir).peekTbl = s.peekTbl from rfl,
    show (s.tapLoad ir).peekPrt = s.peekPrt from rfl]

theorem State.scanAt_tapLoad (s : State) (ir : BitVec 4) (p : ScanPos) : (s.tapLoad ir).scanAt p = s.scanAt p := by
  have hbody : (s.tapLoad ir).scanBody = s.scanBody := by
    unfold State.scanBody
    rw [State.peek_tapLoad, show (s.tapLoad ir).scanList = s.scanList from rfl]
    rfl
  unfold State.scanAt
  rw [hbody, show (s.tapLoad ir).scanLen = s.scanLen from rfl]

theorem State.scanStep_tapLoad (s : State) (ir : BitVec 4) (p : ScanPos) : (s.tapLoad ir).scanStep p = s.scanStep p := rfl

/-! ### The rows of the TAP and of the read position (R459, R460) -/

section
variable {s : State}

/-- SCANOUT with the image open: the word at the position is shifted out, its counts at the present, and the position moves on. -/
theorem State.scanout_on (hpass : (s.xings.get {} (xingKey .tck)).inReset = false) (hon : s.obs.curfew.on = true ∨ s.fc.safe = true) :
    (s.tapLoad 9).tapScan 0 =
      (let u := (s.tapLoad 9).scanSettle s.obs.tap
       (u.modObs fun o => { o with tapDr := 0, tap := u.scanStep o.tap }).emit (.tdo (u.scanAt u.obs.tap))) :=
  (if_neg (ne_true_of_eq_false hpass)).trans (if_neg (by
    rcases hon with h | h <;> simp [State.scanOn, State.tapLoad, State.modObs, h]))

/-- SEEK goes to the header it names. -/
theorem State.writeScanCtl_seek (sect num : BitVec 16) :
    s.writeScanCtl (fields [(62, 1, 1), (16, 16, sect.toNat), (0, 16, num.toNat)]) =
      State.modObs (s.plain 0x20300 0xFFFFFFFF (fields [(62, 1, 1), (16, 16, sect.toNat), (0, 16, num.toNat)])) fun o =>
        { o with scan := { sect := sect.toNat, inst := num.toNat } } := by
  have hsect : bits (fields [(62, 1, 1), (16, 16, sect.toNat), (0, 16, num.toNat)]) 16 16 = sect.toNat := bits_eq_toNat fun i hi => by
    rw [bit_fields _ (by omega)]
    simp [show ¬ 62 ≤ 16 + i by omega, show ¬ 16 + i < 16 by omega, show 16 + i < 32 by omega, BitVec.testBit_toNat]
  have hnum : bits (fields [(62, 1, 1), (16, 16, sect.toNat), (0, 16, num.toNat)]) 0 16 = num.toNat := bits_eq_toNat fun i hi => by
    rw [bit_fields _ (by omega)]
    simp [show ¬ 62 ≤ i by omega, show ¬ 16 ≤ i by omega, hi, BitVec.testBit_toNat]
  unfold State.writeScanCtl
  rw [hsect, hnum, bit_fields _ (by decide), bit_fields _ (by decide)]
  rfl

/-! ### GO of the exerciser (R485) -/

/-- A write of OBS_BENCH_CTL with GO keeps the fields the register holds. -/
theorem benchWord_kept (r : Word) {i : Nat} (hi : i < 32 ∨ 49 ≤ i ∧ i < 56) :
    bit ((r ||| 0x8000000000000000) &&& 0x00FE0000FFFFFFFF) i = bit r i := by
  have hmask : ∀ i : Fin 56, i.val < 32 ∨ 49 ≤ i.val ∧ i.val < 56 → bit (0x00FE0000FFFFFFFF : Word) i.val = true ∧
      bit (0x8000000000000000 : Word) i.val = false := by decide
  obtain ⟨hin, hgo⟩ := hmask ⟨i, by omega⟩ hi
  rw [bit_and, bit_or, hin, hgo, Bool.or_false, Bool.and_true]

/-- The block once GO has been written, its other fields kept. -/
def State.benchGone (s : State) : State := s.setReg 0x24000 ((s.reg 0x24000 ||| 0x8000000000000000) &&& 0x00FE0000FFFFFFFF)

theorem State.writeBench_go : s.writeBench (s.reg 0x24000 ||| 0x8000000000000000) = s.benchGone.benchGo :=
  if_pos (by rw [bit_or]; simp [bit])

theorem State.benchGone_link : bits (s.benchGone.reg 0x24000) 51 5 = bits (s.reg 0x24000) 51 5 := by
  rw [State.benchGone, State.reg_setReg]
  exact bits_congr fun i hi => benchWord_kept _ (by omega)

theorem State.benchGone_rawFrame : s.benchGone.rawFrame =
    { bytes := wordsBytes ((List.range 32).map fun b => s.reg (0x24100 + 8 * b))
      ctl := (s.reg 0x24000).extractLsb' 0 32, bad := (s.reg 0x24008).extractLsb' 32 32, chk := bit (s.reg 0x24000) 49 } := by
  have hframe (b : Nat) : s.benchGone.reg (0x24100 + 8 * b) = s.reg (0x24100 + 8 * b) := s.reg_setReg_ne _ (by omega)
  have hbad : s.benchGone.reg 0x24008 = s.reg 0x24008 := s.reg_setReg_ne _ (by decide)
  unfold State.rawFrame
  dsimp only
  rw [funext hframe, hbad, State.benchGone, State.reg_setReg, benchWord_kept _ (by decide),
    extract_congr fun i hi => benchWord_kept _ (by omega)]

theorem benchInject_answers {u : State} (hopen : Open s) (hbench : s.fuses.bench = true) (h : s.benchGone.benchGo = u) :
    Answers .benchInject s u :=
  answers_of_mgWrite hopen rfl ((if_pos hbench).trans (State.writeBench_go.trans h))

end

/-- Settles O56: each clause is one row of scan-out or of the exerciser. -/
theorem scanAndBench : Obligations.ScanAndBench := by
  unfold Obligations.ScanAndBench
  refine ⟨⟨fun s hport => ?start, fun sect num s hport => ?seek, fun s hport hon => ?reads, fun p s => s.scanSettle_eq_self,
    fun s hport hoff hsafe => ?readsOff, fun w s hcut => ?cut, fun w s hpass => ?scansel, fun s hpass hon hstill => ?scanoutStill,
    fun s hpass hon => ?scanout, fun s hpass hoff hsafe => ?scanoutOff, fun s => rfl⟩,
    fun s hopen hbench hidle hlink hcarries => ?go, fun s hopen hbench hno => ?rej, fun s hopen hbench => ?production⟩
  case start => exact congrArg Host.Outcome.next (State.mgWrite_port hport rfl _)
  case seek =>
    refine ⟨s.writeScanCtl (fields [(62, 1, 1), (16, 16, sect.toNat), (0, 16, num.toNat)]),
      congrArg Host.Outcome.next (State.mgWrite_port hport rfl _), ?_⟩
    rw [State.writeScanCtl_seek]
    exact ⟨rfl, rfl, rfl, rfl⟩
  case reads =>
    obtain ⟨hmgmt, hcredit⟩ := hport
    refine congrArg Host.Outcome.next ((State.mgBeat_credit hcredit _).trans ((if_pos hmgmt).trans (if_neg ?_)))
    rcases hon with h | h <;> simp [State.scanOn, h]
  case readsOff =>
    obtain ⟨hmgmt, hcredit⟩ := hport
    refine congrArg Host.Outcome.next ((State.mgBeat_credit hcredit _).trans ((if_pos hmgmt).trans (if_pos ?_)))
    simp [State.scanOn, hoff, hsafe]
  case cut =>
    have hsel : (s.tapLoad 8).tapScan w = { s with obs := { s.obs with tapIr := 8, tapIdle := true, tapDr := w } } :=
      congrArg (fun p : ScanPos => { s with obs := { s.obs with tapIr := 8, tapIdle := true, tapDr := w, tap := p } }) (if_pos hcut)
    have hout : (s.tapLoad 9).tapScan 0 = ((s.tapLoad 9).modObs fun o => { o with tapDr := 0 }).emit (.tdo s.obs.tapDr) := if_pos hcut
    exact ⟨congrArg Host.Outcome.next hsel, _, congrArg Host.Outcome.next hout, rfl, rfl⟩
  case scansel =>
    exact congrArg (fun p : ScanPos => Host.Outcome.next { s with obs := { s.obs with tapIr := 8, tapIdle := true, tapDr := w, tap := p } })
      (if_neg (ne_true_of_eq_false hpass))
  case scanoutStill =>
    refine ⟨_, congrArg Host.Outcome.next (State.scanout_on hpass hon), ?_⟩
    rw [(s.tapLoad 9).scanSettle_eq_self hstill]
    refine ⟨rfl, rfl, rfl, rfl, ?_, rfl⟩
    exact congrArg (fun w => s.sent ++ [.tdo w]) (s.scanAt_tapLoad 9 s.obs.tap)
  case scanout =>
    refine ⟨_, congrArg Host.Outcome.next (State.scanout_on hpass hon), ?_⟩
    have htap : ((s.tapLoad 9).scanSettle s.obs.tap).obs.tap = s.obs.tap := State.scanSettle_tap _ _
    exact ⟨congrArg (State.scanStep _) htap, congrArg (fun p => _ ++ [Emit.tdo (State.scanAt _ p)]) htap⟩
  case scanoutOff =>
    have hout : (s.tapLoad 9).tapScan 0 = ((s.tapLoad 9).modObs fun o => { o with tapDr := 0 }).emit (.tdo 0) :=
      (if_neg (ne_true_of_eq_false hpass)).trans (if_pos (by simp [State.scanOn, State.tapLoad, State.modObs, hoff, hsafe]))
    exact ⟨_, congrArg Host.Outcome.next hout, rfl, rfl⟩
  case go =>
    have hgo : s.benchGone.benchGo = s.benchGone.modObs fun o => { o with
        bench := { busy := true, rej := false, link := bits (s.benchGone.reg 0x24000) 51 5, rawSeq := bit (s.benchGone.reg 0x24000) 50
                   frame := s.benchGone.rawFrame, left := 1 + bits (s.benchGone.reg 0x24008) 16 16
                   gap := bits (s.benchGone.reg 0x24008) 0 16, first := true } } := by
      refine if_neg ?_
      rw [State.benchGone_link]
      have hcarry : s.benchGone.carriesFrames (bits (s.reg 0x24000) 51 5) = true := hcarries
      have hbusy : s.benchGone.obs.bench.busy = false := hidle
      simpa [hbusy, hcarry] using hlink
    have hgap : s.benchGone.reg 0x24008 = s.reg 0x24008 := s.reg_setReg_ne _ (by decide)
    have hraw : bit (s.benchGone.reg 0x24000) 50 = bit (s.reg 0x24000) 50 := by
      rw [State.benchGone, State.reg_setReg]
      exact benchWord_kept _ (by decide)
    exact ⟨_, benchInject_answers hopen hbench hgo, rfl, rfl, State.benchGone_link, State.benchGone_rawFrame, hraw,
      congrArg (fun w => 1 + bits w 16 16) hgap, congrArg (fun w => bits w 0 16) hgap, rfl, rfl⟩
  case rej =>
    have hrej : s.benchGone.benchGo = s.benchGone.modObs fun o => { o with bench := { o.bench with rej := true } } := by
      refine if_pos ?_
      rw [State.benchGone_link]
      have hkept : s.benchGone.obs.bench.busy = true ∨ 24 ≤ bits (s.reg 0x24000) 51 5 ∨
          s.benchGone.carriesFrames (bits (s.reg 0x24000) 51 5) = false := hno
      simpa [or_assoc] using hkept
    exact ⟨_, benchInject_answers hopen hbench hrej, rfl, rfl⟩
  case production => exact answers_of_mgWrite hopen rfl (if_neg (ne_true_of_eq_false hbench))

end Sys2Proof.Machine
end

section
/-! SUPPORT. Group control and the measurement of milestone time (R339 to R341, R449, R450): the outcomes of a write of SMV_GCTL, of a
stall deadline, and of the measurement's GO and waits, with the obligation about them. -/

namespace Sys2Proof.Machine
open Sys2Proof.Safety

section
variable {s : State} {g : Nat}

theorem State.doParked_quiet (hrun : s.running = true) (hst : (s.grp g).st = .parking) (hquiet : s.groupQuiet g = true) :
    s.doParked g = s.parkGroup g := if_pos ⟨hrun, hst, hquiet⟩

theorem State.doParked_busy (hbusy : s.groupQuiet g = false) : s.doParked g = s :=
  if_neg fun ⟨_, _, hquiet⟩ => ne_true_of_eq_false hbusy hquiet

/-! ### The stall deadline (R340) -/

theorem State.stalled_due {t : Nat} (hrun : s.running = true) (hlimit : (s.grp g).limit = some t) (hdue : t ≤ s.clk.core) :
    s.stalled g = s.abortGroup g (if (s.grp g).st = .parked then causePark else causeStall) := by
  unfold State.stalled
  simp only [hlimit]
  exact if_pos (by simp [hrun, hdue])

theorem State.stalled_early {t : Nat} (hlimit : (s.grp g).limit = some t) (hearly : s.clk.core < t) : s.stalled g = s := by
  unfold State.stalled
  simp only [hlimit]
  exact if_neg (by simp [hearly])

/-! ### The measurement (R449, R450) -/

theorem State.msStart_refused (h : s.msRefused = true) : s.msStart = s.modMs fun m => { m with rej := true } := if_pos h

theorem State.msStart_root (h : s.msRefused = false) (hroot : tRoot s.sipTab s.msGroup = true) :
    s.msStart = State.modMs { s with clk := { s.clk with ofs := (s.reg 0x20120).toNat - (s.clk.ms / 5 : Nat) } } fun m =>
      { m with valid := true, root := true, rej := false, fail := false } :=
  (if_neg (ne_true_of_eq_false h)).trans (if_pos hroot)

theorem State.msStart_measures (h : s.msRefused = false) (hroot : tRoot s.sipTab s.msGroup = false) :
    s.msStart = (s.modMs fun m => { m with busy := true, root := false, rej := false, fail := false, good := 0, tries := 0
                                           best := none }).msTry :=
  (if_neg (ne_true_of_eq_false h)).trans (if_neg (ne_true_of_eq_false hroot))

/-- A wait that has ended: another 10 us follow a request that is not answered, and after them another request. -/
theorem State.msWaited_due (hbusy : s.obs.ms.busy = true) (hdue : s.obs.ms.waitAt ≤ s.clk.core) :
    s.msWaited = if s.obs.ms.asking then s.modMs fun m => { m with asking := false, waitAt := s.clk.core + us5 10 } else s.msTry :=
  if_neg (by simp [hbusy, hdue])

/-- While the core runs, the measurement looks at its wait. -/
theorem msSampleTimeout_runs (hrun : s.running = true) (dt : Nat) :
    exec (.msSampleTimeout dt) s = .next (s.passNs dt).msWaited.kick :=
  congrArg Host.Outcome.next (if_pos hrun)

end

/-- Settles O51: each clause is one outcome of a command of the groups or of the measurement. -/
theorem groupsAndMilestone : Obligations.GroupsAndMilestone := by
  unfold Obligations.GroupsAndMilestone
  refine ⟨fun g s => ⟨fun hopen hst => ?park, fun hrun hst hquiet => ?parked, fun hrun hst hbusy => ?notYet, fun hopen hst => ?resume,
    fun hopen hst => ?resumeIdle, fun hopen hst => ?parkIdle, fun hopen => ?abort, fun dt t hrun hlimit hdue => ?stall,
    fun dt t hrun hlimit hearly => ?noStall⟩, fun s hopen hno => ?msRej, fun s hopen hok hroot => ?msRoot, fun s hopen hok hroot => ?msAway,
    fun dt s hrun hbusy hasking hdue => ?unanswered, fun dt s hrun hbusy hasking hdue => ?again⟩
  case park => exact answers_of_mgWrite hopen rfl (if_pos hst)
  case parked => exact does_of_eq rfl (State.doParked_quiet hrun hst hquiet)
  case notYet => exact does_of_eq rfl (State.doParked_busy hbusy)
  case resume => exact answers_of_mgWrite hopen rfl (if_pos hst)
  case resumeIdle => exact answers_of_mgWrite hopen rfl (if_neg hst)
  case parkIdle => exact answers_of_mgWrite hopen rfl (if_neg hst)
  case abort => exact answers_of_mgWrite hopen rfl rfl
  case stall =>
    rw [← State.passNs_core (State.running_curfew hrun) dt] at hdue
    exact does_of_eq rfl (State.stalled_due (s := s.passNs dt) hrun hlimit hdue)
  case noStall =>
    rw [← State.passNs_core (State.running_curfew hrun) dt] at hearly
    exact does_of_eq rfl (State.stalled_early (s := s.passNs dt) hlimit hearly)
  case msRej => exact answers_of_mgWrite hopen rfl (State.msStart_refused hno)
  case msRoot =>
    refine ⟨_, answers_of_mgWrite hopen rfl (State.msStart_root hok hroot), ?_, rfl, rfl, rfl⟩
    exact add_sub_cancel _ _
  case msAway => exact answers_of_mgWrite hopen rfl (State.msStart_measures hok hroot)
  case unanswered =>
    have hcore := State.passNs_core (State.running_curfew hrun) dt
    rw [← hcore] at hdue ⊢
    exact does_of_eq (msSampleTimeout_runs hrun dt) ((State.msWaited_due (s := s.passNs dt) hbusy hdue).trans (if_pos hasking))
  case again =>
    rw [← State.passNs_core (State.running_curfew hrun) dt] at hdue
    exact does_of_eq (msSampleTimeout_runs hrun dt) ((State.msWaited_due (s := s.passNs dt) hbusy hdue).trans (if_neg (ne_true_of_eq_false hasking)))

end Sys2Proof.Machine
end

section
/-! SUPPORT. Commits (R18, R470, R471): a GO of a table's row, its outcomes and COMMIT_DONE, with the obligation about them. -/

namespace Sys2Proof.Machine
open Sys2Proof.Safety

/-! ### The bank of a table (R468) -/

theorem Tab.filter_insert {α : Type} {p : Nat × α → Bool} {k : Nat} (h : ∀ v, p (k, v) = false) (t : Tab α) (v : α) :
    (t.insert k v).filter p = t.filter p := by
  induction t with
  | nil => simp [Tab.insert, h]
  | cons e t ih =>
    obtain ⟨j, w⟩ := e
    unfold Tab.insert
    split
    · simp [h]
    · split
      · rename_i heq
        subst heq
        simp [h]
      · rw [List.filter_cons, List.filter_cons, ih]

/-- A write leaves the entries whose keys are not its own. -/
theorem Tab.filter_put {α : Type} [DecidableEq α] {d : α} {p : Nat × α → Bool} {k : Nat} (h : ∀ v, p (k, v) = false) (t : Tab α) (v : α) :
    (t.put d k v).filter p = t.filter p := by
  have hdrop : (t.drop k).filter p = t.filter p := by
    rw [Tab.drop, List.filter_filter]
    refine List.filter_congr fun e _ => ?_
    by_cases hk : e.1 = k
    · obtain ⟨j, w⟩ := e
      subst hk
      simp [h]
    · simp [hk]
  unfold Tab.put
  split
  · exact hdrop
  · exact (Tab.filter_insert h _ v).trans hdrop

/-- A register outside the bank of a table leaves that bank as it stands. -/
theorem State.bank_setReg (s : State) {code a : Nat} (v : Word) (h : a < bankBase code) : (s.setReg a v).bank code = s.bank code := by
  unfold State.bank State.setReg
  rw [Tab.filter_put]
  intro w
  simp [h]

/-! ### GO of a row (R470, R471) -/

section
variable {s : State}

/-- The rows of the nine tables. -/
theorem exec_tcommit : ∀ e ∈ [(Instr.tcommitTrainingTable, 1), (.tcommitInstalledPlan, 2), (.tcommitRoutingTable, 3),
    (.tcommitSchedulingTable, 4), (.tcommitInnkeeperTable, 5), (.tcommitSamovarTable, 6), (.tcommitFormatTable, 7),
    (.tcommitSipTree, 8), (.tcommitTastingMenu, 9)],
    (∀ s : State, exec e.1 s = .next (s.tcommitRow e.2)) ∧ 1 ≤ e.2 ∧ e.2 ≤ 9 := by
  simp only [List.forall_mem_cons, List.not_mem_nil, false_implies, implies_true, and_true]
  exact ⟨⟨fun _ => rfl, by decide⟩, ⟨fun _ => rfl, by decide⟩, ⟨fun _ => rfl, by decide⟩, ⟨fun _ => rfl, by decide⟩,
    ⟨fun _ => rfl, by decide⟩, ⟨fun _ => rfl, by decide⟩, ⟨fun _ => rfl, by decide⟩, ⟨fun _ => rfl, by decide⟩,
    ⟨fun _ => rfl, by decide⟩⟩

/-- The word a row writes: GO and its code. -/
theorem tcommitWord {code : Nat} (hle : code ≤ 9) : let v := fields [(63, 1, 1), (0, 8, code)]
    v &&& 0xFF = BitVec.ofNat 64 code ∧ bit v 63 = true ∧ v.extractLsb' 0 8 = BitVec.ofNat 8 code := by
  have hall : ∀ code : Fin 10, let v := fields [(63, 1, 1), (0, 8, code.val)]
      v &&& 0xFF = BitVec.ofNat 64 code.val ∧ bit v 63 = true ∧ v.extractLsb' 0 8 = BitVec.ofNat 8 code.val := by decide
  exact hall ⟨code, by omega⟩

theorem State.writeTcommit_go {code : Nat} (hle : code ≤ 9) :
    s.writeTcommit (fields [(63, 1, 1), (0, 8, code)]) = (s.setReg 0x10 (BitVec.ofNat 64 code)).goCommit (BitVec.ofNat 8 code) := by
  obtain ⟨hcode, hgo, hlow⟩ := tcommitWord hle
  unfold State.writeTcommit
  rw [hcode, hgo, hlow]
  rfl

/-- A row answers with what GO does with its code. -/
theorem tcommit_answers {c : Instr} {u : State} {code : Nat} (hopen : Open s) (hle : code ≤ 9)
    (hexec : exec c s = .next (s.tcommitRow code)) (h : (s.setReg 0x10 (BitVec.ofNat 64 code)).goCommit (BitVec.ofNat 8 code) = u) :
    Answers c s u := by
  unfold State.tcommitRow at hexec
  exact answers_of_mgWrite hopen hexec ((State.writeTcommit_go hle).trans h)

theorem State.goCommit_busy (h : s.commit.busy = true) (code : BitVec 8) :
    s.goCommit code = { s with commit := { s.commit with rej := true } } := if_pos h

theorem State.goCommit_idle (h : s.commit.busy = false) (code : BitVec 8) : s.goCommit code = s.startCommit code none :=
  if_neg (ne_true_of_eq_false h)

/-- A commit of a table that passes every check is accepted. -/
theorem State.startCommit_accepted {code : Nat} {g : State → State} (hle : code ≤ 9)
    (h : s.commitCheck code (s.bank code) = (1, g)) : s.startCommit (BitVec.ofNat 8 code) none = { s with
      sec := { s.sec with opLock := s.sec.opLock || decide (code = 2) }
      commit := { s.commit with busy := true, rej := false, locked := true, byInstr := false, code := BitVec.ofNat 8 code, result := 1
                                detail := 0, image := s.bank code, queue := none
                                pend := s.commit.pend &&& ~~~(BitVec.ofNat 10 (2 ^ code)) } } := by
  have hcode : (BitVec.ofNat 8 code).toNat = code := Nat.mod_eq_of_lt (by omega)
  have hplan : decide (BitVec.ofNat 8 code = 2) = decide (code = 2) := by
    rw [decide_eq_decide, ← BitVec.toNat_inj, hcode]
    rfl
  unfold State.startCommit
  dsimp only
  rw [hcode, h, hplan]
  simp [State.modCommit, Nat.one_shiftLeft, show code < 10 by omega]

end

/-! ### COMMIT_DONE (R18, R470) -/

/-- A commit ends: its table is in force or stands ready, and the one that waits goes on. -/
theorem State.commitDone_ends {s : State} (hbusy : s.commit.busy = true) (hadmits : s.admits = true) (hgo : s.commitWaits = false) :
    s.commitDone =
      (let u := (if s.commit.code = 2 then s.installPlan s.commit.image
          else s.install s.commit.code.toNat s.commit.image).modCommit fun c => { c with busy := false, image := [], queue := none }
       State.nextCommit (match s.commit.queue with
         | some (q, n) => u.answerQueue q n []
         | none => u)) :=
  if_neg (by simp [hbusy, hadmits, hgo])

/-- An operation under way in a group that the accepted table changes holds the table back. -/
theorem State.commitWaits_of_busy {s : State} {g : Nat} (hg : g < 512) (hbusy : s.sipBusy g = true)
    (hchange : s.commit.code = 6 ∧ gChanges s.smvTab (imgWord s.commit.code.toNat s.commit.image) g = true ∨
      s.commit.code = 8 ∧ sipChanges s.sipTab (imgWord s.commit.code.toNat s.commit.image) g = true) : s.commitWaits = true :=
  List.any_eq_true.mpr ⟨g, List.mem_range.mpr hg, by rw [hbusy]; simpa using hchange⟩

/-- Settles O17: each clause is one outcome of GO or of COMMIT_DONE. -/
theorem commits : Obligations.Commits := by
  unfold Obligations.Commits
  refine ⟨fun s hopen e he => ?go, fun s hno => ?nothing, fun s g hg hbusy => ⟨fun hcode hchange => ?smv, fun hcode hchange => ?sip⟩,
    fun s hbusy hadmits hgo => ?ends⟩
  case go =>
    obtain ⟨hexec, hpos, hle⟩ := exec_tcommit e he
    refine ⟨fun hbusy => ?_, fun hidle => ?_, fun hidle g hcheck => ?_⟩
    · exact tcommit_answers hopen hle (hexec s) (State.goCommit_busy (s := s.setReg 0x10 (BitVec.ofNat 64 e.2)) hbusy _)
    · exact tcommit_answers hopen hle (hexec s) (State.goCommit_idle (s := s.setReg 0x10 (BitVec.ofNat 64 e.2)) hidle _)
    · have hbank : (s.setReg 0x10 (BitVec.ofNat 64 e.2)).bank e.2 = s.bank e.2 := by
        refine s.bank_setReg _ ?_
        have hbase : ∀ code : Fin 10, 1 ≤ code.val → 0x10 < bankBase code.val := by decide
        exact hbase ⟨e.2, by omega⟩ hpos
      have haccepted := State.startCommit_accepted hle hcheck
      rw [hbank] at haccepted
      exact tcommit_answers hopen hle (hexec s)
        ((State.goCommit_idle (s := s.setReg 0x10 (BitVec.ofNat 64 e.2)) hidle _).trans haccepted)
  case nothing =>
    refine does_of_eq rfl (if_pos ?_)
    simpa [or_assoc] using hno
  case smv =>
    refine State.commitWaits_of_busy hg hbusy (.inl ⟨hcode, ?_⟩)
    rwa [hcode]
  case sip =>
    refine State.commitWaits_of_busy hg hbusy (.inr ⟨hcode, ?_⟩)
    rwa [hcode]
  case ends => exact does_of_eq rfl (State.commitDone_ends hbusy hadmits hgo)

end Sys2Proof.Machine
end

section
/-! SUPPORT. Scrubbing and the SPDM mailbox (R405, R407, R410): the outcomes of GO, the bytes of the request buffer, and the obligation
about them. -/

namespace Sys2Proof.Machine
open Sys2Proof.Safety

/-! ### The bytes of words (R4) -/

theorem leBytes_getElem? (n v : Nat) {i : Nat} (hi : i < n) : (leBytes n v)[i]? = some (BitVec.ofNat 8 (v / 256 ^ i)) := by
  induction n generalizing v i with
  | zero => omega
  | succ n ih =>
    cases i with
    | zero => simp [leBytes]
    | succ i => rw [leBytes, List.getElem?_cons_succ, ih _ (by omega), Nat.div_div_eq_div_mul, Nat.pow_succ']

theorem ofNat_byte (w : Word) (i : Nat) : BitVec.ofNat 8 (w.toNat / 256 ^ i) = w.extractLsb' (i * 8) 8 := by
  rw [Nat.mul_comm, BitVec.extractLsb', Nat.shiftRight_eq_div_pow, Nat.pow_mul]

/-- Byte `i` of a row of words is byte `i` mod 8 of word `i` / 8. -/
theorem wordsBytes_getElem? (l : List Word) (i : Nat) :
    (wordsBytes l)[i]? = l[i / 8]?.map fun w => w.extractLsb' (i % 8 * 8) 8 := by
  induction l generalizing i with
  | nil => rfl
  | cons w l ih =>
    change (leBytes 8 w.toNat ++ wordsBytes l)[i]? = _
    rw [List.getElem?_append, leBytes_length]
    split
    · rename_i hi
      rw [leBytes_getElem? _ _ hi, ofNat_byte, Nat.div_eq_of_lt hi, Nat.mod_eq_of_lt hi]
      rfl
    · rename_i hi
      rw [ih, show i / 8 = (i - 8) / 8 + 1 by omega, show (i - 8) % 8 = i % 8 by omega, List.getElem?_cons_succ]

theorem wordsBytes_length (l : List Word) : (wordsBytes l).length = 8 * l.length := by
  induction l with
  | nil => rfl
  | cons w l ih =>
    change (leBytes 8 w.toNat ++ wordsBytes l).length = _
    rw [List.length_append, leBytes_length, ih, List.length_cons]
    omega

/-- The first `n` bytes of the request buffer. -/
def State.spdmRequest (s : State) (n : Nat) : Bytes :=
  (wordsBytes ((List.range ((n + 7) / 8)).map fun i => s.reg (0x36000 + 8 * i))).take n

theorem State.spdmRequest_length (s : State) (n : Nat) : (s.spdmRequest n).length = n := by
  rw [State.spdmRequest, List.length_take, wordsBytes_length, List.length_map, List.length_range]
  omega

theorem State.spdmRequest_getElem (s : State) (n : Nat) {i : Nat} (h : i < (s.spdmRequest n).length) :
    (s.spdmRequest n)[i] = (s.reg (0x36000 + i / 8 * 8)).extractLsb' (i % 8 * 8) 8 := by
  have hi : i < n := by rwa [State.spdmRequest_length] at h
  refine Option.some_inj.mp ((List.getElem?_eq_getElem h).symm.trans ?_)
  rw [State.spdmRequest, List.getElem?_take_of_lt hi, wordsBytes_getElem?, List.getElem?_map, List.getElem?_range (by omega),
    Nat.mul_comm (i / 8)]
  rfl

section
variable {s : State}

/-! ### Scrubbing (R410) -/

theorem State.scrubGo_busy (h : s.sec.scrub.busy = true) : s.scrubGo = s.modScrub fun x => { x with rej := true, done := false } :=
  if_pos (by simp [h])

/-- GO of MODE RANGE, with no scrub running. -/
theorem State.scrubGo_range (hidle : s.sec.scrub.busy = false) (hmode : bit (s.reg 0x30058) 62 = true) :
    s.scrubGo = s.modScrub fun x => if s.wholly s.scrubRange.1 s.scrubRange.2 then
      (if s.scrubRange.2 = 0 then { done := true } else { busy := true, todo := [s.scrubRange] })
      else { x with rej := true, done := false } := by
  unfold State.scrubGo
  dsimp only
  rw [hidle, hmode]
  cases s.wholly s.scrubRange.1 s.scrubRange.2 with
  | false => rfl
  | true => by_cases hsize : s.scrubRange.2 = 0 <;> simp [hsize]

theorem State.scrubGo_refused (hmode : bit (s.reg 0x30058) 62 = false)
    (hno : s.segValid (bits (s.reg 0x30058) 0 10) = false ∨
      (s.inn.lodge.any fun e => e.2.busy && decide (keySeg e.2.key = bits (s.reg 0x30058) 0 10)) = true) :
    s.scrubGo = s.modScrub fun x => { x with rej := true, done := false } := by
  unfold State.scrubGo
  dsimp only
  rw [hmode, if_neg Bool.false_ne_true]
  exact if_pos (by rcases hno with h | h <;> simp [h])

theorem State.scrubGo_segment (hidle : s.sec.scrub.busy = false) (hmode : bit (s.reg 0x30058) 62 = false)
    (hvalid : s.segValid (bits (s.reg 0x30058) 0 10) = true)
    (hfree : (s.inn.lodge.any fun e => e.2.busy && decide (keySeg e.2.key = bits (s.reg 0x30058) 0 10)) = false) :
    s.scrubGo = s.modScrub fun _ => { busy := true, todo := s.segRanges (bits (s.reg 0x30058) 0 10) } := by
  unfold State.scrubGo
  dsimp only
  rw [hidle, hmode, hvalid, hfree]
  rfl

/-! ### The mailbox (R405, R407) -/

theorem State.spdmGo_takes (hidle : s.sec.spdm.busy = false) (hready : s.boot.stage = .ready) (hsome : 0 < bits (s.reg 0x38000) 0 13)
    (hfits : bits (s.reg 0x38000) 0 13 ≤ 4096) : s.spdmGo = s.modSpdm fun x =>
      { x with err := false, done := false, queue := x.queue ++ [(none, 0, s.spdmRequest (bits (s.reg 0x38000) 0 13))] } :=
  (if_neg (ne_true_of_eq_false hidle)).trans (if_neg (by simp [hready]; omega))

theorem State.spdmGo_error (hidle : s.sec.spdm.busy = false)
    (hno : ¬ (s.boot.stage = .ready ∧ 0 < bits (s.reg 0x38000) 0 13 ∧ bits (s.reg 0x38000) 0 13 ≤ 4096)) :
    s.spdmGo = s.modSpdm fun x => { x with err := true, done := false } := by
  refine (if_neg (ne_true_of_eq_false hidle)).trans (if_pos ?_)
  by_cases hready : s.boot.stage = .ready
  · simp only [hready, true_and] at hno
    omega
  · exact .inr (.inr hready)

/-- The mailbox's request is the oldest: its answer lands in the response buffer. -/
theorem State.spdmAnswer_mailbox {m : Bytes} {no : BitVec 8} {l : List (Option Nat × BitVec 8 × Bytes)}
    (hqueue : s.sec.spdm.queue = (none, no, m) :: l) : s.spdmAnswer =
      (let a := (s.sec.spdm.conns.get {} 0).answer s.spdmSelf m
       let u := (s.modSpdm fun x => { x with queue := l, conns := x.conns.put {} 0 a.2 }).drew
       State.modSpdm (u.setRegs 0x37000 (bytesWords a.1)) fun x => { x with done := true, rspLen := a.1.length }) := by
  unfold State.spdmAnswer
  rw [hqueue]
  rfl

end

/-- Settles O25: each clause is one outcome of GO of a scrub or of the mailbox, or of the end of either. -/
theorem scrubAndSpdm : Obligations.ScrubAndSpdm := by
  unfold Obligations.ScrubAndSpdm
  refine ⟨⟨fun s hopen hbusy => ?busy, fun s hopen hidle hmode => ?range, fun s hopen hidle hmode hno => ?refused,
    fun s hopen hidle hmode hvalid hfree => ?segment, fun s hrun hbusy hnone => ?ends⟩,
    fun s hopen hidle hready hsome hfits => ?request, fun s hopen hidle hno => ?error, fun s m no l hrun hqueue => ?response⟩
  case busy => exact answers_of_mgWrite hopen rfl (State.scrubGo_busy hbusy)
  case range => exact answers_of_mgWrite hopen rfl (State.scrubGo_range hidle hmode)
  case refused => exact answers_of_mgWrite hopen rfl (State.scrubGo_refused hmode hno)
  case segment => exact answers_of_mgWrite hopen rfl (State.scrubGo_segment hidle hmode hvalid hfree)
  case ends => exact congrArg Host.Outcome.next (if_pos (by simp [hrun, hbusy, hnone]))
  case request =>
    exact ⟨s.spdmRequest (bits (s.reg 0x38000) 0 13), s.spdmRequest_length _, fun _ => s.spdmRequest_getElem _,
      answers_of_mgWrite hopen rfl (State.spdmGo_takes hidle hready hsome hfits)⟩
  case error => exact answers_of_mgWrite hopen rfl (State.spdmGo_error hidle hno)
  case response => exact does_of_eq (congrArg Host.Outcome.next (if_pos hrun)) (State.spdmAnswer_mailbox hqueue)

end Sys2Proof.Machine
end
